-- ==== Sys2Proof/Word.lean ====
section
/-! DEFINITION. Word.lean: the word types of the SV-256 model.
A byte of memory or of a packet is a bit vector; addresses, counts and times are naturals. -/
namespace Sys2Proof

/-- One byte of memory, of a packet or of a tile line. -/
abbrev Byte := BitVec 8

/-- An AF50 accumulator word (R42). -/
abbrev Af50Word := BitVec 50

/-- The 48-bit spill salt (R407). -/
abbrev Salt := BitVec 48

/-- The 256-bit seal (R397). -/
abbrev Seal := BitVec 256

end Sys2Proof
end

