-- ==== Sys2Proof/Syntax.lean ====
section
/-! DEFINITION. Syntax.lean: the commands of the SV-256, one constructor for each row of spec/opcode_table.json.
The table gives its rows no operands and no bits.  The operands are the model's: which unit acts, the packet or flit that
arrives, and the outcome of what the world outside the logic decides (an error found, a reading, a lock). -/
namespace Sys2Proof

/-- An error met in a store or on a path of Table 16.1.  `ok` is true of a single-bit error, which is corrected (R869). -/
inductive Found where
  /-- The payload of line `line` of a slice (Table 3.10). -/
  | payload (slice line : Nat) (ok : Bool)
  /-- The metadata word of a line. -/
  | metadata (slice line : Nat) (ok : Bool)
  /-- The line map entry of a line. -/
  | lineMap (slice line : Nat) (ok : Bool)
  /-- Element `e` (256 i + j) of a physical plane, or of its checkpoint copy. -/
  | element (quarter plane e : Nat) (ckpt ok : Bool)
  /-- The live flags of a physical plane, or their checkpoint copy. -/
  | liveFlags (quarter plane : Nat) (ckpt ok : Bool)
  /-- Peg `i`: A-pegs 0-7, B-pegs 8-15. -/
  | peg (quarter i : Nat) (ok : Bool)
  /-- A crossbar lane of a quarter delivers tile `tile` of a context with an uncorrectable word. -/
  | lane (quarter tile : Nat)
  /-- A fetch of the micro-word at an address: 0 a single-bit error, 1 a sibling engine's copy decodes, 2 no copy decodes (Table 7.7). -/
  | micro (addr kind : Nat)
  /-- The attach entry, queue, descriptor copy or deadline account of a context. -/
  | entry (ctx : Nat) (ok : Bool)
  /-- A translation cache entry of a context: dropped (Table 16.1). -/
  | xlat (ctx va : Nat)
  /-- A word of the profile store (Table 16.1). -/
  | profile (number : Nat) (ok : Bool)
  deriving DecidableEq, Repr, Inhabited

/-- An error met at an HBM target, at an offset from the first byte of the burst. -/
inductive HbmFound where
  /-- The path of Table 16.1 delivers the offset's chunk uncorrectable. -/
  | path (off : Nat)
  /-- The offset's 8-byte word proves uncorrectable (R572, R575). -/
  | bad (off : Nat)
  /-- The offset's 8-byte word has a single-bit error (R571). -/
  | corrected (off : Nat)
  /-- The stack reports an ECC severity of its own (R573). -/
  | severity
  deriving DecidableEq, Repr, Inhabited

/-- What the read of the SFDP tables finds (R760, R985): 0 absent or malformed, 1 a 1-1-4 read, 2 a 1-4-4 read; and at which of the 21
capture points, 0 to 10 ns in steps of 0.5 ns, the read passes. -/
structure SfdpRead where
  mode : Nat
  passes : List Bool
  deriving DecidableEq, Repr, Inhabited

/-- What a round of a slice port meets: the write requesters of which only so many of the next lines reach their latches in time (R158), and
the errors found. -/
structure RoundFind where
  late : List (Nat × Nat) := []
  errors : List Found := []
  deriving DecidableEq, Repr, Inhabited

/-- A DRAM bank: the pseudo channel of the device, the stack ID and the bank (R563). -/
structure DramBank where
  pseudo : Nat
  sid : Nat
  bank : Nat
  deriving DecidableEq, Repr, Inhabited

/-- A BIST finding: a condition of Table 15.3. -/
inductive Finding where
  | column (quarter col : Nat)
  /-- A peg, plane element, checkpoint, vector unit, path or lane. -/
  | unit (quarter : Nat)
  | bank (slice bank : Nat)
  | microWord (addr : Nat)
  deriving DecidableEq, Repr, Inhabited

/-- What one lane of a fabric port receives in a training frame (Tables 13.4 to 13.6): the control and status words, and
whether the pair proves to be inverted. -/
structure TrainFrame where
  received : Bool
  control : Nat
  status : Nat
  inverted : Bool
  /-- The requests that this side's receiver makes of the partner's taps, and whether it is ready (R691, R693). -/
  want : Nat
  ready : Bool
  deriving DecidableEq, Repr, Inhabited

/-- A marker decoded on a lane (R695): its lane field, its count, its set and its port. -/
structure Marker where
  lane : Nat
  count : Nat
  set : Nat
  ok : Bool
  deriving DecidableEq, Repr, Inhabited

/-- The commands: the operations and events of the SV-256. -/
inductive Instr where
  /-- PWRGOOD_FALL. PWRGOOD falls (R815). -/
  | pwrgoodFall
  /-- RESET_ASSERT. RESET_N asserts (R817). -/
  | resetAssert
  /-- RESET_RELEASE. RESET_N is released (R816): whether every stack had completed self-refresh entry before (R847). -/
  | resetRelease (selfRefreshed : Bool)
  /-- STRAP_LATCH. The straps are latched, the fuses are read, and the TRNG start-up test runs (R739): the levels of the strap pins, and the two outcomes. -/
  | strapLatch (boot : Nat) (remapEn sealLocal pselLink testmode fuseOk trngOk : Bool)
  /-- LEVEL_PIN_MEASURE. The level pins are measured (R749): the means of IDH, IDL, SYS and PWR in mV. -/
  | levelPinMeasure (samples : List (List Nat))
  /-- PLLS_LOCKED. Both PLLs lock (R917). -/
  | pllsLocked
  /-- FLASH_SFDP_READ. The SFDP tables are read (R760, R985). -/
  | flashSfdpRead (found : SfdpRead)
  /-- HOLD_CLEARED. The hold instrument is cleared through JTAG (R825). -/
  | holdCleared
  /-- IMAGE_COPY_VERIFY. An image copy has been read (R766): whether every read completed, and its bytes from the copy's start. -/
  | imageCopyVerify (readOk : Bool) (copy : List Byte)
  /-- MICRO_RAM_REMAP. The end of STAT 0x6 (R831). -/
  | microRamRemap
  /-- BIST. Full BIST has run, with its findings (R838). -/
  | bist (findings : List Finding)
  /-- BRINGUP_APPLY. The bring-up apply (R832): whether VDD_CORE reaches the new voltage under the selected profile, and under the ROM profile (R935). -/
  | bringupApply (reached romReached : Bool)
  /-- HBM_TRAINING. The four stacks have been trained (R843): attempts that each took, above 3 for a failure, and lanes repaired. -/
  | hbmTraining (attempts : List Nat) (repaired : List Nat)
  /-- HBM_INITIALISE. HBM is initialised (R845). -/
  | hbmInitialise
  /-- FABRIC_TRAINING_END. STAT 0xA ends (R855). -/
  | fabricTrainingEnd
  /-- READINESS. The device becomes ready (R857). -/
  | readiness
  /-- BRINGUP_PHASE_TIMEOUT. The phase in progress reaches its limit (R822). -/
  | bringupPhaseTimeout
  /-- STAT_HOLD_EXPIRY. The microsecond for which a STAT value is held ends (R987). -/
  | statHoldExpiry
  /-- PLL_LOCK_LOSS. A PLL loses lock (R919): the core PLL or the IOCLK PLL. -/
  | pllLockLoss (core : Bool)
  /-- SDREFCLK_LOSS. SDREFCLK of a port quad is lost (R920). -/
  | sdrefclkLoss (quad : Nat)
  /-- ENERGY_INTERVAL. A 1 µs interval ends (R945). -/
  | energyInterval
  /-- POWER_STEP_DECISION. A step boundary: the mask of quarters that have a step ready at this edge (R945, R947). -/
  | powerStepDecision (quarters : Nat)
  /-- IMON_SAMPLE. IMON is sampled (R937), in 0.5 A. -/
  | imonSample (halfAmps : Nat)
  /-- IMON_TRIP_HOLD_EXPIRY. The 20 µs hold of a trip ends (R938). -/
  | imonTripHoldExpiry
  /-- THERMAL_CEILING_UPDATE. P_therm is updated (R953). -/
  | thermalCeilingUpdate
  /-- STATIC_BAND_EVAL. The static band is re-evaluated (R944). -/
  | staticBandEval
  /-- SENSOR_SAMPLE. The 28 on-die sensors are read (R958), in 1/16 °C, with those whose built-in check fails. -/
  | sensorSample (readings : List Int) (failed : List Bool)
  /-- HBM_TEMPERATURE_READ. The stack temperatures are read (R576), in 1/16 °C. -/
  | hbmTemperatureRead (readings : List Int) (failed : List Bool)
  /-- VID_SETTLE_TIMEOUT. 100 µs have passed since a code whose voltage has not been reached (R934). -/
  | vidSettleTimeout
  /-- VID_LOWER_CODE. 1 µs after the apply edge of a CCLK fall (R933). -/
  | vidLowerCode
  /-- TRF_REFRESH. A free round of the bank's port takes its refresh (R137), with the errors found. -/
  | trfRefresh (slice bank : Nat) (found : List Found)
  /-- TRF_REFRESH_URGENT. A refresh that became urgent takes its port (R139, R171). -/
  | trfRefreshUrgent (slice bank : Nat) (found : List Found)
  /-- REF_INTERVAL_CHANGE. A sweep boundary at which the sweep period changes (R135). -/
  | refIntervalChange
  /-- BANK_RETIRE. A bank is retired (R895): a physical bank, and the cause of Table 16.9. -/
  | bankRetire (slice bank cause : Nat)
  /-- BANK_HANDOVER_SWAP. The end of a verify sweep with no difference (R150). -/
  | bankHandoverSwap (slice : Nat)
  /-- BANK_EVACUATE. A bank with no spare is evacuated (R897). -/
  | bankEvacuate (slice bank : Nat)
  /-- BANK_MARCH. A march of a bank completes (R902). -/
  | bankMarch (slice bank : Nat) (ok : Bool)
  /-- BANK_REINSTATE. A retired bank with enough passes returns (R903). -/
  | bankReinstate (slice bank : Nat)
  /-- PORT_ROUND. A slice port holds a round (R166), with what it meets. -/
  | portRound (slice port : Nat) (found : RoundFind)
  /-- DEBUG_TRANSFER. A debug request takes a slot (R172). -/
  | debugTransfer (slice line : Nat)
  /-- ALLOCATOR_ROUND. A basket allocator holds a round (R184). -/
  | allocatorRound (slice : Nat)
  /-- ARRAY_STEP_START. An array step starts (R189). -/
  | arrayStepStart (quarter : Nat)
  /-- FABRIC_TARGET_ROUND. A fabric target holds a round (R550), with the errors met with the request of a master that it grants: the offsets on the path of a write, and what is found in the words that a partial write or an atomic reads. -/
  | fabricTargetRound (target : Nat) (path : List (Nat × Nat)) (words : List (Nat × HbmFound))
  /-- HBM_READ_RETURN. The data of a read, or of an atomic, return (R569), with the errors that the controller and the path meet. -/
  | hbmReadReturn (txn : Nat) (errs : List HbmFound)
  /-- HBM_BANK_REFRESH. A per-bank refresh (R576). -/
  | hbmBankRefresh (dram : DramBank)
  /-- HBM_RETRAIN. The next channel is retrained (R578). -/
  | hbmRetrain
  /-- HBM_SCRUB_READ. A scrub read (R582): device offsets of corrected and of uncorrectable words. -/
  | hbmScrubRead (stack : Nat) (corrected : List Nat) (bad : List Nat)
  /-- STORE_SCRUB. A scrub of planes, micro-stores or attach entries (R916), with what it finds. -/
  | storeScrub (found : List Found)
  /-- TRNG_REFILL. The TRNG pool is refilled (R557). -/
  | trngRefill
  /-- SALT_DRAW_RESUME. A salt draw that waited has its bits (R559). -/
  | saltDrawResume (ctx : Nat)
  /-- OPR_RECEIVE. An OPR is taken from VC0 (R619): its link, and its packet. -/
  | oprReceive (link : Nat) (pkt : List Byte)
  /-- NOP. The routine of a context's NOP runs on, up to its next wait or commit point (R225). -/
  | nop (ctx : Nat) (found : List Found)
  /-- ATT. The routine of a context's ATT runs on, up to its next wait or commit point (R351). -/
  | att (ctx : Nat) (found : List Found)
  /-- DET. The routine of a context's DET runs on, up to its next wait or commit point (R365). -/
  | det (ctx : Nat) (found : List Found)
  /-- SPL. The routine of a context's SPL runs on, up to its next wait or commit point (R369). -/
  | spl (ctx : Nat) (found : List Found)
  /-- FRM. The routine of a context's FRM runs on, up to its next wait or commit point (R226). -/
  | frm (ctx : Nat) (found : List Found)
  /-- FNC. The routine of a context's FNC runs on, up to its next wait or commit point (R212). -/
  | fnc (ctx : Nat) (found : List Found)
  /-- NTF. The routine of a context's NTF runs on, up to its next wait or commit point (R228). -/
  | ntf (ctx : Nat) (found : List Found)
  /-- LDT. The routine of a context's LDT runs on, up to its next wait or commit point (R237). -/
  | ldt (ctx : Nat) (found : List Found)
  /-- STT. The routine of a context's STT runs on, up to its next wait or commit point (R244). -/
  | stt (ctx : Nat) (found : List Found)
  /-- CPT. The routine of a context's CPT runs on, up to its next wait or commit point (R250). -/
  | cpt (ctx : Nat) (found : List Found)
  /-- ZRT. The routine of a context's ZRT runs on, up to its next wait or commit point (R253). -/
  | zrt (ctx : Nat) (found : List Found)
  /-- RLS. The routine of a context's RLS runs on, up to its next wait or commit point (R254). -/
  | rls (ctx : Nat) (found : List Found)
  /-- AOP. The routine of a context's AOP runs on, up to its next wait or commit point (R263). -/
  | aop (ctx : Nat) (found : List Found)
  /-- ACL. The routine of a context's ACL runs on, up to its next wait or commit point (R264). -/
  | acl (ctx : Nat) (found : List Found)
  /-- MMA. The routine of a context's MMA runs on, up to its next wait or commit point (R274). -/
  | mma (ctx : Nat) (found : List Found)
  /-- MMS. The routine of a context's MMS runs on, up to its next wait or commit point (R281). -/
  | mms (ctx : Nat) (found : List Found)
  /-- ASD. The routine of a context's ASD runs on, up to its next wait or commit point (R289). -/
  | asd (ctx : Nat) (found : List Found)
  /-- ADR. The routine of a context's ADR runs on, up to its next wait or commit point (R291). -/
  | adr (ctx : Nat) (found : List Found)
  /-- VAD. The routine of a context's VAD runs on, up to its next wait or commit point (R295). -/
  | vad (ctx : Nat) (found : List Found)
  /-- VMU. The routine of a context's VMU runs on, up to its next wait or commit point (R295). -/
  | vmu (ctx : Nat) (found : List Found)
  /-- VMX. The routine of a context's VMX runs on, up to its next wait or commit point (R295). -/
  | vmx (ctx : Nat) (found : List Found)
  /-- VMN. The routine of a context's VMN runs on, up to its next wait or commit point (R295). -/
  | vmn (ctx : Nat) (found : List Found)
  /-- VSC. The routine of a context's VSC runs on, up to its next wait or commit point (R295). -/
  | vsc (ctx : Nat) (found : List Found)
  /-- VEX. The routine of a context's VEX runs on, up to its next wait or commit point (R295). -/
  | vex (ctx : Nat) (found : List Found)
  /-- VRC. The routine of a context's VRC runs on, up to its next wait or commit point (R295). -/
  | vrc (ctx : Nat) (found : List Found)
  /-- VRS. The routine of a context's VRS runs on, up to its next wait or commit point (R295). -/
  | vrs (ctx : Nat) (found : List Found)
  /-- VRR. The routine of a context's VRR runs on, up to its next wait or commit point (R303). -/
  | vrr (ctx : Nat) (found : List Found)
  /-- VTR. The routine of a context's VTR runs on, up to its next wait or commit point (R82). -/
  | vtr (ctx : Nat) (found : List Found)
  /-- VRQ. The routine of a context's VRQ runs on, up to its next wait or commit point (R295). -/
  | vrq (ctx : Nat) (found : List Found)
  /-- SMX. The routine of a context's SMX runs on, up to its next wait or commit point (R304). -/
  | smx (ctx : Nat) (found : List Found)
  /-- NRM. The routine of a context's NRM runs on, up to its next wait or commit point (R305). -/
  | nrm (ctx : Nat) (found : List Found)
  /-- TRANSLATION_WALK. A TLB miss of a context walks the page tables (R503). -/
  | translationWalk (ctx va : Nat)
  /-- SEGMENT_COMMIT. A routine reaches its commit point (R324) after it has held its tracks for `held` cclk. -/
  | segmentCommit (quarter track held : Nat)
  /-- OPERATION_COMPLETE. The first operation of a context completes (R196, R214). -/
  | operationComplete (ctx : Nat)
  /-- PARK. The internal routine PARK of a context runs (R107). -/
  | park (ctx : Nat) (found : List Found)
  /-- UNPARK. The internal routine UNPARK of a context runs (R110). -/
  | unpark (ctx : Nat) (found : List Found)
  /-- EVICT. The internal routine EVICT of a context runs (R413). -/
  | evict (ctx : Nat) (found : List Found)
  /-- RESTORE. The internal routine RESTORE of a context runs (R420). -/
  | restore (ctx : Nat) (found : List Found)
  /-- ISMOVE. The internal routine ISMOVE of a context runs (R393). -/
  | ismove (ctx : Nat) (found : List Found)
  /-- CANDIDATE_SLOT. The first restore candidate is given a slot, or displaces a context (R376). -/
  | candidateSlot
  /-- CONTEXT_REBIND. A context is rebound to the quarter chosen for it (R384). -/
  | contextRebind (ctx : Nat)
  /-- PERIOD_START. A frame period begins (R429, R448). -/
  | periodStart
  /-- FRAME_DEADLINE. The earliest deadline of a context's frames falls (R457). -/
  | frameDeadline (ctx : Nat)
  /-- FLIT_TRANSMIT. A flit is sent on a link (R588): 0 the host link, 1 + n port FPn. -/
  | flitTransmit (link : Nat)
  /-- FLIT_RECEIVE. A flit arrives (R595). -/
  | flitReceive (link : Nat) (flit : List Byte)
  /-- RETRY_REQ_RECEIVE. A RETRY_REQ flit arrives (R598). -/
  | retryReqReceive (link : Nat) (flit : List Byte)
  /-- RETRY_REQ_REPEAT. RETRY_REQ is sent again (R597). -/
  | retryReqRepeat (link : Nat)
  /-- IDLE_FLIT_SEND. An IDLE flit is due (R603). -/
  | idleFlitSend (link : Nat)
  /-- REPLAY_TIMEOUT. The oldest flit has waited for its acknowledgement (R605). -/
  | replayTimeout (link : Nat)
  /-- REPLAY_LIMIT. A replay has failed too often (R606). -/
  | replayLimit (link : Nat)
  /-- CREDIT_STALL_TIMEOUT. A packet has waited too long for credit (R615). -/
  | creditStallTimeout (link : Nat)
  /-- LINK_STATE_TIMEOUT. The limit of the host link's state expires (R658). -/
  | linkStateTimeout
  /-- MODULE_ACTIVE_CHANGE. The set of modules in the UCIe active state changes (R665). -/
  | moduleActiveChange (mask : Nat)
  /-- MODULE_RETRAIN. The device retrains a module alone (R905). -/
  | moduleRetrain (module : Nat)
  /-- INIT_RECEIVE. An INIT flit arrives (R661). -/
  | initReceive (link : Nat) (flit : List Byte)
  /-- INIT_DONE_RECEIVE. An INIT_DONE flit arrives (R661). -/
  | initDoneReceive (link : Nat) (flit : List Byte)
  /-- MRD. A read request is taken from VC1 (R628). -/
  | mrd (link : Nat) (pkt : List Byte)
  /-- MWR. A write request is taken (R630). -/
  | mwr (link : Nat) (pkt : List Byte)
  /-- MFA. An atomic fetch-add is taken (R632). -/
  | mfa (link : Nat) (pkt : List Byte)
  /-- MCS. An atomic compare-and-swap is taken (R632). -/
  | mcs (link : Nat) (pkt : List Byte)
  /-- RWR. A ring write arrives (R638). -/
  | rwr (link : Nat) (pkt : List Byte)
  /-- CPLD_RECEIVE. A completion with data arrives (R628). -/
  | cpldReceive (link : Nat) (pkt : List Byte)
  /-- CPL_RECEIVE. A completion without data arrives (R630). -/
  | cplReceive (link : Nat) (pkt : List Byte)
  /-- HOST_COMPLETION_TIMEOUT. A request to the host has waited its limit (R633). -/
  | hostCompletionTimeout (tag : Nat)
  /-- FABRIC_COMPLETION_TIMEOUT. A request on a fabric port has waited its limit (R736). -/
  | fabricCompletionTimeout (link tag : Nat)
  /-- TAG_HOLD_EXPIRY. The hold of a timed-out tag ends (R627). -/
  | tagHoldExpiry (link tag : Nat)
  /-- SEAL. The control packet SEAL is taken from VC3 (R646). -/
  | sealPacket (link : Nat) (pkt : List Byte)
  /-- RING. The control packet RING is taken from VC3 (R648). -/
  | ringPacket (link : Nat) (pkt : List Byte)
  /-- PROFILE. The control packet PROFILE is taken from VC3 (R650). -/
  | profilePacket (link : Nat) (pkt : List Byte)
  /-- TIME. The control packet TIME is taken from VC3 (R652). -/
  | timePacket (link : Nat) (pkt : List Byte)
  /-- HALT. The control packet HALT is taken from VC3 (R654). -/
  | haltPacket (link : Nat) (pkt : List Byte)
  /-- HALT_CACK. Every track of a HALT's quarters is free (R655). -/
  | haltCack
  /-- RESUME. The control packet RESUME is taken (R656). -/
  | resumePacket (link : Nat) (pkt : List Byte)
  /-- LINK_VIOLATION_REPORT. The millisecond over which violations are counted ends (R673). -/
  | linkViolationReport
  /-- FP_TRAINING_FRAME. One training frame on each lane of a port, sent and received (R689, R691): what each lane received. -/
  | fpTrainingFrame (port : Nat) (frames : List TrainFrame)
  /-- FP_CODED_STREAM_START. A port's lanes begin the coded stream (R694). -/
  | fpCodedStreamStart (port : Nat)
  /-- FP_MARKER_LOCK. Markers are decoded on the lanes of a port (R695). -/
  | fpMarkerLock (port : Nat) (marks : List Marker)
  /-- FP_STATE_CHANGE. A port enters the state that its conditions give (R700). -/
  | fpStateChange (port : Nat)
  /-- FP_STATE_TIMEOUT. The limit of a port's state expires (R696). -/
  | fpStateTimeout (port : Nat)
  /-- FP_FAILED_RETRY. A FAILED port retries (R696). -/
  | fpFailedRetry (port : Nat)
  /-- FP_UE_RATE_RETRAIN. A millisecond of codewords: those that could not be corrected, and corrected symbols by lane (R688, R697). -/
  | fpUeRateRetrain (port : Nat) (count : Nat) (corrected : List Nat)
  /-- FP_LANE_FAIL. A lane's receiver fails it (R706). -/
  | fpLaneFail (port lane : Nat)
  /-- WIDTH. A WIDTH or WIDTH_ACK flit arrives (R709). -/
  | width (port : Nat) (flit : List Byte)
  /-- WIDTH_SWITCH. The named marker is reached, and the lane set switches (R710). -/
  | widthSwitch (port : Nat)
  /-- FP_LANE_RETRAIN. A failed lane is trained alone, by the frames that arrive on it (R713). -/
  | fpLaneRetrain (port lane : Nat) (frames : List TrainFrame)
  /-- FP_LANE_BER_REMOVE. A lane's symbol error rate exceeds its limit (R714). -/
  | fpLaneBerRemove (port lane : Nat)
  /-- PACKET_FORWARD. The first held packet that can be sent is forwarded (R718). -/
  | packetForward
  /-- FORWARD_HOLD_EXPIRY. A held packet's time is over (R720). -/
  | forwardHoldExpiry
  /-- PIN_LAPSE. A pin lapses (R731). -/
  | pinLapse (index : Nat)
  /-- STREAM_EPOCH_RESUME. A stream held for a new epoch resumes (R729). -/
  | streamEpochResume (dest : Nat)
  /-- PSEL_SAMPLE. PSEL[2:0] is sampled (R774). -/
  | pselSample (value : Nat)
  /-- PSEL_DEBOUNCE_DONE. PSEL has held one value for 1 ms (R774). -/
  | pselDebounceDone
  /-- PROFILE_SWITCH_START. The queued switch starts (R782). -/
  | profileSwitchStart
  /-- RINSE_START. The rinse begins (R786): the findings of the return tests it runs (R909). -/
  | rinseStart (returns : List (Nat × List Finding))
  /-- RINSE_TIMEOUT. A rinse has lasted 100 ms (R792). -/
  | rinseTimeout
  /-- PROFILE_APPLY. The apply edge (R797). -/
  | profileApply
  /-- ROTATION_BOUNDARY. A rotation boundary (R882): for each completed run of the test sequence, whether it matched (R880). -/
  | rotationBoundary (quarter : Nat) (runs : List Bool)
  /-- SHADOW_STEP. The quarter starts the step that the shadow joins (R883). -/
  | shadowStep (quarter : Nat)
  /-- SHADOW_COMPARE. The shadow step ends (R884): whether the two columns agree. -/
  | shadowCompare (quarter : Nat) (equal : Bool)
  /-- QUARTER_REMOVE. A quarter is removed (R906). -/
  | quarterRemove (quarter cause : Nat)
  /-- DEBUG_BIST. A BIST request through the instrument (R910), with what the test finds. -/
  | debugBist (findings : List Finding)
  /-- HEALTH_RECORD. A HEALTH event is due (R912). -/
  | healthRecord
  /-- PWRGOOD_RISE. PWRGOOD rises (R815). -/
  | pwrgoodRise
  /-- HANDSHAKE_ENTRY. The first module is active: the host link enters HANDSHAKE (R658). -/
  | handshakeEntry
  /-- JTAG_HALT_INSTRUMENT. JTAG writes the halt instruments (R654, R656). -/
  | jtagHaltInstrument (qmask : Nat) (set : Bool)
  deriving DecidableEq, Repr

end Sys2Proof
end

