-- ==== Sys2Proof/Decode.lean ====
section
/-! DEFINITION. Decode.lean: the commands that words of the table spell.  Every row of spec/opcode_table.json has an empty list of
fields and gives no bits, so no word spells a command. -/
namespace Sys2Proof

/-- The command that a table word spells: none, for the table gives no row any bits. -/
def decodeTableWord (_nbits _w : Nat) : Option Instr := none

end Sys2Proof
end

