-- ==== Sys2Proof/Machine/Bits.lean ====
section
/-! DEFINITION. Machine/Bits.lean: byte order, bit fields and the small list operations that the
other files use.  Every multi-byte field of the part is little-endian (R8). -/
namespace Sys2Proof.Machine

/-- The natural that a list of bytes spells, the first byte least significant (R8). -/
def leNat : List Byte → Nat
  | [] => 0
  | b :: bs => b.toNat + 256 * leNat bs

/-- The `n` bytes that spell a natural, least significant first (R8). -/
def natLe : Nat → Nat → List Byte
  | 0, _ => []
  | n + 1, x => BitVec.ofNat 8 (x % 256) :: natLe n (x / 256)

/-- The natural that a list of bytes spells, the first byte most significant. -/
def beNat (bs : List Byte) : Nat := leNat bs.reverse

/-- The `n` bytes that spell a natural, most significant first. -/
def natBe (n x : Nat) : List Byte := (natLe n x).reverse

/-- `len` bits of `x` from bit `lo` upward. -/
def bitsAt (x lo len : Nat) : Nat := (x / 2 ^ lo) % 2 ^ len

/-- Bit `i` of `x`. -/
def bitAt (x i : Nat) : Bool := (x / 2 ^ i) % 2 == 1

/-- The bytes `off .. off+len-1` of a byte list, read as 0x00 beyond its end. -/
def bytesAt (bs : List Byte) (off len : Nat) : List Byte :=
  let part := (bs.drop off).take len
  part ++ List.replicate (len - part.length) 0

/-- The little-endian natural at byte `off`, `len` bytes long. -/
def natAt (bs : List Byte) (off len : Nat) : Nat := leNat (bytesAt bs off len)

/-- The byte at an offset as a natural. -/
def byteAt (bs : List Byte) (off : Nat) : Nat := (bs.getD off 0).toNat

/-- A signed reading of the `w` low bits of `x`. -/
def signedOf (w x : Nat) : Int :=
  if x % 2 ^ w < 2 ^ (w - 1) then Int.ofNat (x % 2 ^ w) else Int.ofNat (x % 2 ^ w) - Int.ofNat (2 ^ w)

/-- Round a natural up to a multiple of `m`. -/
def alignUp (x m : Nat) : Nat := (x + m - 1) / m * m

/-- The greatest `x < 2 ^ n` with `p x`, for a `p` that holds of 0 and is downward closed: found bit by bit. -/
def bitSearch (p : Nat → Bool) : Nat → Nat → Nat
  | 0, acc => acc
  | n + 1, acc => if p (acc + 2 ^ n) then bitSearch p n (acc + 2 ^ n) else bitSearch p n acc

/-- 1 for true. -/
def b2n (b : Bool) : Nat := if b then 1 else 0

/-- The set bits below `n` of a mask, in ascending order. -/
def maskBits (n mask : Nat) : List Nat := (List.range n).filter (bitAt mask)

/-- The mask whose set bits are the members of a list (each counted once). -/
def bitsMask (n : Nat) (xs : List Nat) : Nat :=
  ((List.range n).filter (fun i => xs.contains i)).foldl (fun a i => a + 2 ^ i) 0

/-- A mask with bit `i` written. -/
def maskSet (mask i : Nat) (v : Bool) : Nat :=
  if bitAt mask i == v then mask else if v then mask + 2 ^ i else mask - 2 ^ i

/-- How many of the low `n` bits of a mask are set. -/
def popcount (n mask : Nat) : Nat := (maskBits n mask).length

/-- Replace entry `i` of a list by its image under `f`. -/
def modAt {α : Type} (xs : List α) (i : Nat) (f : α → α) : List α :=
  match xs, i with
  | [], _ => []
  | x :: xs, 0 => f x :: xs
  | x :: xs, i + 1 => x :: modAt xs i f

/-- Replace entry `i` of a list. -/
def setAt {α : Type} (xs : List α) (i : Nat) (v : α) : List α := modAt xs i (fun _ => v)

/-- The entry of a keyed list under a key. -/
def assocGet {β : Type} (xs : List (Nat × β)) (k : Nat) : Option β :=
  match xs with
  | [] => none
  | (k', v) :: rest => if k' = k then some v else assocGet rest k

/-- A keyed list in rising key order with the entry under `k` removed. -/
def assocDel {β : Type} (xs : List (Nat × β)) (k : Nat) : List (Nat × β) :=
  xs.filter (fun p => p.1 != k)

/-- A keyed list in rising key order with the entry under `k` written. -/
def assocPut {β : Type} : List (Nat × β) → Nat → β → List (Nat × β)
  | [], k, v => [(k, v)]
  | (k', v') :: rest, k, v =>
    if k < k' then (k, v) :: (k', v') :: rest
    else if k = k' then (k, v) :: rest
    else (k', v') :: assocPut rest k v

/-- A list with one member added unless it is there. -/
def addOnce {α : Type} [DecidableEq α] (xs : List α) (x : α) : List α := if x ∈ xs then xs else xs ++ [x]

/-- The least number of a list, or a default for the empty list. -/
def minD (d : Nat) : List Nat → Nat
  | [] => d
  | x :: xs => xs.foldl Nat.min x

/-- The greatest number of a list, or a default for the empty list. -/
def maxD (d : Nat) : List Nat → Nat
  | [] => d
  | x :: xs => xs.foldl Nat.max x

/-- Cut a byte range into pieces that do not cross multiples of `unit`: (start, length), `fuel` pieces at most. -/
def splitAtUnit (unit : Nat) : Nat → Nat → Nat → List (Nat × Nat)
  | 0, _, _ => []
  | fuel + 1, a, len =>
    if len = 0 then [] else
      let room := unit - a % unit
      if len ≤ room then [(a, len)] else (a, room) :: splitAtUnit unit fuel (a + room) (len - room)

/-- The pieces of a byte range between multiples of `unit` (R480, R561). -/
def pieces (unit a len : Nat) : List (Nat × Nat) := splitAtUnit unit (len / unit + 2) a len

/-- Ring distance: the rank of lane `x` in a round-robin order of `n` lanes that starts just after `p`. -/
def ringRank (n p x : Nat) : Nat := (x + n - (p + 1) % n) % n

/-- The member of a list with the least rank. -/
def argMin (f : Nat → Nat) : List Nat → Option Nat
  | [] => none
  | x :: xs => some (xs.foldl (fun best y => if f y < f best then y else best) x)

end Sys2Proof.Machine
end

