-- ==== Sys2Proof/Machine/Crypto.lean ====
section
/-! DEFINITION. Machine/Crypto.lean: the published algorithms that the spec names: SHA-384 (FIPS 180-4), ECDSA P-384
verification (FIPS 186-5), AES-256 (FIPS 197), CMAC (SP 800-38B), GCM (SP 800-38D), and CRC-32.  Their constants are formed
from the definitions the standards give (roots of primes, inverses in the field of AES), not copied as tables. -/
namespace Sys2Proof.Machine.Crypto

/-! ### SHA-384 -/

/-- The first primes below a bound. -/
def primesBelow (n : Nat) : List Nat :=
  (List.range n).filter (fun p => decide (2 ≤ p) && (List.range p).all (fun d => decide (d < 2) || decide (p % d ≠ 0)))

/-- The first 80 primes are those below 410. -/
def primes80 : List Nat := primesBelow 410

/-- The first 64 bits of the fractional part of the cube root of `p`. -/
def cubeFrac (p : Nat) : Nat := bitSearch (fun x => decide (x * x * x ≤ p * 2 ^ 192)) 68 0 % 2 ^ 64

/-- The first 64 bits of the fractional part of the square root of `p`. -/
def squareFrac (p : Nat) : Nat := bitSearch (fun x => decide (x * x ≤ p * 2 ^ 128)) 70 0 % 2 ^ 64

/-- The 80 round constants. -/
def shaK : List (BitVec 64) := primes80.map (fun p => BitVec.ofNat 64 (cubeFrac p))

/-- The initial value of SHA-384: from the ninth to the sixteenth prime. -/
def shaInit : List (BitVec 64) := ((primes80.drop 8).take 8).map (fun p => BitVec.ofNat 64 (squareFrac p))

/-- The functions of FIPS 180-4 on 64-bit words. -/
def bigSigma0 (x : BitVec 64) : BitVec 64 := x.rotateRight 28 ^^^ x.rotateRight 34 ^^^ x.rotateRight 39
def bigSigma1 (x : BitVec 64) : BitVec 64 := x.rotateRight 14 ^^^ x.rotateRight 18 ^^^ x.rotateRight 41
def smallSigma0 (x : BitVec 64) : BitVec 64 := x.rotateRight 1 ^^^ x.rotateRight 8 ^^^ (x >>> 7)
def smallSigma1 (x : BitVec 64) : BitVec 64 := x.rotateRight 19 ^^^ x.rotateRight 61 ^^^ (x >>> 6)

/-- The message schedule: words so far, newest first, extended by `n`. -/
def shaExtend : Nat → List (BitVec 64) → List (BitVec 64)
  | 0, w => w
  | n + 1, w => shaExtend n ((smallSigma1 (w.getD 1 0) + w.getD 6 0 + smallSigma0 (w.getD 14 0) + w.getD 15 0) :: w)

/-- One round on the eight working variables. -/
def shaRound (v : List (BitVec 64)) (kw : BitVec 64) : List (BitVec 64) :=
  match v with
  | [a, b, c, d, e, f, g, h] =>
    let t1 := h + bigSigma1 e + ((e &&& f) ^^^ (~~~e &&& g)) + kw
    let t2 := bigSigma0 a + ((a &&& b) ^^^ (a &&& c) ^^^ (b &&& c))
    [t1 + t2, a, b, c, d + t1, e, f, g]
  | v => v

/-- The compression of one 128-byte block. -/
def shaBlock (h : List (BitVec 64)) (blk : List Byte) : List (BitVec 64) :=
  let w0 := (List.range 16).map (fun i => BitVec.ofNat 64 (beNat (bytesAt blk (8 * i) 8)))
  let w := (shaExtend 64 w0.reverse).reverse
  let v := (List.zipWith (· + ·) shaK w).foldl shaRound h
  List.zipWith (· + ·) h v

/-- A list cut into blocks of `n` members. -/
def chunks {α : Type} (n : Nat) : Nat → List α → List (List α)
  | 0, _ => []
  | fuel + 1, xs => if xs.isEmpty then [] else xs.take n :: chunks n fuel (xs.drop n)

/-- SHA-384 of a byte string: 48 bytes. -/
def sha384 (m : List Byte) : List Byte :=
  let zeros := (239 - m.length % 128) % 128
  let padded := m ++ [0x80] ++ List.replicate zeros 0 ++ natBe 16 (8 * m.length)
  let h := (chunks 128 (padded.length / 128 + 1) padded).foldl shaBlock shaInit
  ((h.map (fun x => natBe 8 x.toNat)).flatten).take 48

/-! ### ECDSA P-384 -/

/-- The field prime. -/
def p384 : Nat := 2 ^ 384 - 2 ^ 128 - 2 ^ 96 + 2 ^ 32 - 1

/-- The order of the base point. -/
def n384 : Nat := 0xffffffffffffffffffffffffffffffffffffffffffffffffc7634d81f4372ddf581a0db248b0a77aecec196accc52973

/-- The coefficient b of the curve. -/
def b384 : Nat := 0xb3312fa7e23ee7e4988e056be3f82d19181d9c6efe8141120314088f5013875ac656398d8a2ed19d2a85c8edd3ec2aef

/-- The base point. -/
def g384 : Nat × Nat :=
  (0xaa87ca22be8b05378eb1c71ef320ad746e1d3b628ba79b9859f741e082542a385502f25dbf55296c3a545e3872760ab7,
   0x3617de4a96262c6f5d9e98bf9292dc29f8f41dbd289a147ce9da3113b5f0b8c00a60b1ce1d7e819d7a431d7c90ea0e5f)

/-- `b ^ e` modulo `m`, over `fuel` bits of the exponent. -/
def powMod (m : Nat) : Nat → Nat → Nat → Nat
  | 0, _, _ => 1 % m
  | fuel + 1, b, e =>
    let h := powMod m fuel (b * b % m) (e / 2)
    if e % 2 = 1 then b * h % m else h

/-- The inverse modulo a prime. -/
def invMod (m x : Nat) : Nat := powMod m 384 (x % m) (m - 2)

/-- Addition of two points of the curve; none is the point at infinity. -/
def ecAdd (a b : Option (Nat × Nat)) : Option (Nat × Nat) :=
  match a, b with
  | none, q => q
  | q, none => q
  | some (x1, y1), some (x2, y2) =>
    if x1 = x2 ∧ (y1 + y2) % p384 = 0 then none else
    let l := if x1 = x2 then (3 * x1 * x1 + (p384 - 3)) * invMod p384 (2 * y1) % p384
      else (y2 + p384 - y1) * invMod p384 (x2 + p384 - x1) % p384
    let x3 := (l * l + 2 * p384 - x1 - x2) % p384
    some (x3, (l * (x1 + p384 - x3) + p384 - y1) % p384)

/-- `k` times a point, over `fuel` bits of `k`. -/
def ecMul : Nat → Nat → Option (Nat × Nat) → Option (Nat × Nat)
  | 0, _, _ => none
  | fuel + 1, k, q =>
    let h := ecMul fuel (k / 2) (ecAdd q q)
    if k % 2 = 1 then ecAdd q h else h

/-- A point of the curve other than infinity, with coordinates in the field. -/
def onCurve (x y : Nat) : Bool :=
  decide (x < p384) && decide (y < p384) && decide (y * y % p384 = (x * x * x + (p384 - 3) * x + b384) % p384)

/-- FIPS 186-5: the signature (r, s) over a 48-byte digest is valid under the public key. -/
def ecdsaVerify (qx qy r s : Nat) (digest : List Byte) : Bool :=
  if !onCurve qx qy || r = 0 || s = 0 || decide (n384 ≤ r) || decide (n384 ≤ s) then false else
  let e := beNat digest
  let w := invMod n384 s
  match ecAdd (ecMul 384 (e * w % n384) (some g384)) (ecMul 384 (r * w % n384) (some (qx, qy))) with
  | none => false
  | some (x, _) => x % n384 == r

/-! ### AES-256 -/

/-- Doubling in the field of AES. -/
def xtime (x : Byte) : Byte := (x <<< 1) ^^^ (if x.msb then 0x1B else 0)

/-- Multiplication in the field of AES, over `fuel` bits of the second factor. -/
def gmul : Nat → Byte → Byte → Byte
  | 0, _, _ => 0
  | n + 1, a, b => (if b.getLsbD 0 then a else 0) ^^^ gmul n (xtime a) (b >>> 1)

/-- `a * b` in the field of AES. -/
def gf (a b : Byte) : Byte := gmul 8 a b

/-- The inverse in the field of AES, 0 for 0: `x ^ 254`. -/
def gfInv (x : Byte) : Byte :=
  let x2 := gf x x
  let x4 := gf x2 x2
  let x8 := gf x4 x4
  let x16 := gf x8 x8
  let x32 := gf x16 x16
  let x64 := gf x32 x32
  let x128 := gf x64 x64
  gf x2 (gf x4 (gf x8 (gf x16 (gf x32 (gf x64 x128)))))

/-- The S-box: the inverse followed by the affine map. -/
def sbox (x : Byte) : Byte :=
  let y := gfInv x
  y ^^^ y.rotateLeft 1 ^^^ y.rotateLeft 2 ^^^ y.rotateLeft 3 ^^^ y.rotateLeft 4 ^^^ 0x63

/-- Bytewise exclusive or. -/
def xorBytes (a b : List Byte) : List Byte := List.zipWith (· ^^^ ·) a b

/-- One more word of the key schedule: words so far newest first, the round constant. -/
def keyWord (i : Nat) (w : List (List Byte)) (rcon : Byte) : List Byte :=
  let t := w.getD 0 []
  let t1 := if i % 8 = 0 then
      match (t.drop 1 ++ t.take 1).map sbox with
      | b :: bs => (b ^^^ rcon) :: bs
      | [] => []
    else if i % 8 = 4 then t.map sbox else t
  xorBytes (w.getD 7 []) t1

/-- The key schedule from word `i` on: newest first. -/
def keyExpand : Nat → Nat → List (List Byte) → Byte → List (List Byte)
  | 0, _, w, _ => w
  | n + 1, i, w, rcon => keyExpand n (i + 1) (keyWord i w rcon :: w) (if i % 8 = 0 then xtime rcon else rcon)

/-- The 15 round keys of a 32-byte key. -/
def roundKeys (key : List Byte) : List (List Byte) :=
  let ws := (keyExpand 52 8 ((List.range 8).map (fun i => bytesAt key (4 * i) 4)).reverse 1).reverse
  (List.range 15).map (fun r => ((ws.drop (4 * r)).take 4).flatten)

/-- ShiftRows: byte 4 c + r comes from column c + r. -/
def shiftRows (st : List Byte) : List Byte := (List.range 16).map (fun i => st.getD ((i + 4 * (i % 4)) % 16) 0)

/-- MixColumns of one column. -/
def mixColumn (c : List Byte) : List Byte :=
  match c with
  | [a, b, d, e] => [xtime a ^^^ (xtime b ^^^ b) ^^^ d ^^^ e, a ^^^ xtime b ^^^ (xtime d ^^^ d) ^^^ e,
      a ^^^ b ^^^ xtime d ^^^ (xtime e ^^^ e), (xtime a ^^^ a) ^^^ b ^^^ d ^^^ xtime e]
  | c => c

/-- One inner round. -/
def aesRound (st rk : List Byte) : List Byte :=
  let t := shiftRows (st.map sbox)
  xorBytes ((List.range 4).map (fun c => mixColumn (bytesAt t (4 * c) 4))).flatten rk

/-- AES-256 of one block under round keys. -/
def aesBlock (rks : List (List Byte)) (blk : List Byte) : List Byte :=
  let st := ((rks.drop 1).take 13).foldl aesRound (xorBytes blk (rks.getD 0 []))
  xorBytes (shiftRows (st.map sbox)) (rks.getD 14 [])

/-! ### CMAC -/

/-- Doubling of a 128-bit block for the CMAC subkeys. -/
def cmacDouble (b : List Byte) : List Byte :=
  let x := beNat b
  natBe 16 (Nat.xor (2 * x % 2 ^ 128) (if bitAt x 127 then 0x87 else 0))

/-- AES-256-CMAC of a message. -/
def cmac (key m : List Byte) : List Byte :=
  let rks := roundKeys key
  let k1 := cmacDouble (aesBlock rks (List.replicate 16 0))
  let full := m.length ≠ 0 ∧ m.length % 16 = 0
  let n := if m.length = 0 then 0 else (m.length - 1) / 16
  let last := m.drop (16 * n)
  let mLast := if full then xorBytes last k1
    else xorBytes (last ++ [0x80] ++ List.replicate (15 - last.length) 0) (cmacDouble k1)
  let x := (List.range n).foldl (fun x i => aesBlock rks (xorBytes x (bytesAt m (16 * i) 16))) (List.replicate 16 0)
  aesBlock rks (xorBytes x mLast)

/-! ### GCM -/

/-- Multiplication in the field of GCM: bit 127 of a natural is the coefficient of x^0. -/
def ghashMul (x y : Nat) : Nat :=
  ((List.range 128).foldl (fun (zv : Nat × Nat) i =>
    let z := if bitAt x (127 - i) then Nat.xor zv.1 zv.2 else zv.1
    let v := if bitAt zv.2 0 then Nat.xor (zv.2 / 2) (0xE1 * 2 ^ 120) else zv.2 / 2
    (z, v)) (0, y)).1

/-- GHASH of a string of whole blocks. -/
def ghash (h : Nat) (m : List Byte) : Nat :=
  (chunks 16 (m.length / 16 + 1) m).foldl (fun y b => ghashMul (Nat.xor y (beNat b)) h) 0

/-- Zero padding to a whole number of blocks. -/
def pad16 (m : List Byte) : List Byte := m ++ List.replicate ((16 - m.length % 16) % 16) 0

/-- GCTR with a 96-bit IV: the counter of the first block is 2. -/
def gctr (rks : List (List Byte)) (iv m : List Byte) : List Byte :=
  ((chunks 16 (m.length / 16 + 1) m).zipIdx.map (fun p => xorBytes p.1 (aesBlock rks (iv ++ natBe 4 (p.2 + 2))))).flatten

/-- The 128-bit tag of a ciphertext and additional data. -/
def gcmTag (rks : List (List Byte)) (iv aad ct : List Byte) : List Byte :=
  let h := beNat (aesBlock rks (List.replicate 16 0))
  let s := ghash h (pad16 aad ++ pad16 ct ++ natBe 8 (8 * aad.length) ++ natBe 8 (8 * ct.length))
  xorBytes (natBe 16 s) (aesBlock rks (iv ++ natBe 4 1))

/-- AES-256-GCM: ciphertext and tag. -/
def gcmSeal (key iv aad pt : List Byte) : List Byte × List Byte :=
  let rks := roundKeys key
  let ct := gctr rks iv pt
  (ct, gcmTag rks iv aad ct)

/-- AES-256-GCM: the plaintext, where the tag verifies. -/
def gcmOpen (key iv aad ct tag : List Byte) : Option (List Byte) :=
  let rks := roundKeys key
  if gcmTag rks iv aad ct = tag then some (gctr rks iv ct) else none

/-! ### CRC-32 -/

/-- One bit of the reflected CRC-32 with polynomial 0x04C11DB7. -/
def crcBit (c : Nat) : Nat := if c % 2 = 1 then Nat.xor (c / 2) 0xEDB88320 else c / 2

/-- One byte of the CRC. -/
def crcByte (c : Nat) (b : Byte) : Nat :=
  crcBit (crcBit (crcBit (crcBit (crcBit (crcBit (crcBit (crcBit (Nat.xor c b.toNat))))))))

/-- The CRC-32 of a byte string, initial value and final exclusive or all ones. -/
def crc32 (bs : List Byte) : Nat := Nat.xor (bs.foldl crcByte 0xFFFFFFFF) 0xFFFFFFFF

end Sys2Proof.Machine.Crypto
end

