-- ==== Sys2Proof/Machine/Codes.lean ====
section
/-! DEFINITION. Machine/Codes.lean: the code numbers of spec chapter 19 (Tables 19.2 to 19.12) and their severities. -/
namespace Sys2Proof.Machine.Code

/-! NAKs, Table 19.2 (R1012). -/
def ctxUnknown : Nat := 0x1001
def seqOrder : Nat := 0x1002
def queueFull : Nat := 0x1003
def ctxFaulted : Nat := 0x1004
def opcUnknown : Nat := 0x1005
def fieldReserved : Nat := 0x1006
def outOfRange : Nat := 0x1007
def tileRange : Nat := 0x1008
def viewBad : Nat := 0x1010
def viewAlign : Nat := 0x1011
def regroupRequired : Nat := 0x1012
def tileOverlap : Nat := 0x1013
def geomBad : Nat := 0x1014
def planeClosed : Nat := 0x1015
def ctxExists : Nat := 0x1020
def descBad : Nat := 0x1021
def descFault : Nat := 0x1022
def ctxTiles : Nat := 0x1023
def affinityEmpty : Nat := 0x1024
def isoDenied : Nat := 0x1025
def dlAdmit : Nat := 0x1026
def sealAbsent : Nat := 0x1027
def epochExhausted : Nat := 0x1028
def frameOrder : Nat := 0x1030
def frameMismatch : Nat := 0x1031
def frameDropped : Nat := 0x1032

/-! Context faults, operation and deadline events, Table 19.3 (R1014). -/
def spillAuth : Nat := 0x1101
def spillFit : Nat := 0x1102
def isoLost : Nat := 0x1103
def ctxCapacity : Nat := 0x1104
def accRange : Nat := 0x1201
def vecDomain : Nat := 0x1202
def affinityLost : Nat := 0x1203
def dlCharge : Nat := 0x1301
def dlOverrun : Nat := 0x1302
def dlMiss : Nat := 0x1303
def dlSuspended : Nat := 0x1304
def dlOvercommit : Nat := 0x1305

/-! Translation and address codes, Table 19.4 (R1015). -/
def xlatRange : Nat := 0x2001
def xlatInvalid : Nat := 0x2002
def xlatFormat : Nat := 0x2003
def xlatUnbacked : Nat := 0x2004
def xlatPerm : Nat := 0x2005
def walkFault : Nat := 0x2010
def windowFault : Nat := 0x2020
def writeRefused : Nat := 0x2030

/-! Walk sub-codes, Table 19.5 (R1016). -/
def subVoid : Nat := 0x01
def subNotify : Nat := 0x02
def subUnbacked : Nat := 0x03
def subUe : Nat := 0x04
def subRemote : Nat := 0x05

/-! Completion statuses, Table 19.6 (R1017). -/
def stOk : Nat := 0x00
def stPoison : Nat := 0x01
def stUnbacked : Nat := 0x02
def stLoop : Nat := 0x03
def stNotify : Nat := 0x04
def stVoid : Nat := 0x05
def stUnroutable : Nat := 0x06
def stReqBad : Nat := 0x07
def stHostRefused : Nat := 0x08

/-! Link codes, Table 19.7 (R1019). -/
def linkViolation : Nat := 0x3001
def hlinkState : Nat := 0x3002
def fpState : Nat := 0x3003
def oprUnrouted : Nat := 0x3004
def reqFault : Nat := 0x3005
def pvFtype : Nat := 0x3101
def pvFlitRsvd : Nat := 0x3102
def pvInit : Nat := 0x3103
def pvAckRange : Nat := 0x3104
def pvCreditExcess : Nat := 0x3105
def pvOverrun : Nat := 0x3106
def pvCreditStall : Nat := 0x3107
def pvPtype : Nat := 0x3108
def pvDir : Nat := 0x3109
def pvLen : Nat := 0x310A
def pvPktRsvd : Nat := 0x310B
def pvSize : Nat := 0x310C
def pvAtomicAlign : Nat := 0x310D
def pvTagBusy : Nat := 0x310E
def pvUnroutable : Nat := 0x310F
def pvCplTag : Nat := 0x3110
def pvCplLen : Nat := 0x3111
def pvCplStatus : Nat := 0x3112
def pvCplTimeout : Nat := 0x3113
def pvSeal : Nat := 0x3114
def pvRing : Nat := 0x3115
def pvPsel : Nat := 0x3116
def pvCtrlPeer : Nat := 0x3117
def pvStorm : Nat := 0x3118
def pvMiswire : Nat := 0x3120
def pvVn : Nat := 0x3121
def pvSrc : Nat := 0x3122
def pvWidth : Nat := 0x3123

/-! Reliability and repair, Table 19.8 (R1020). -/
def trfUe : Nat := 0x4001
def trfMapUe : Nat := 0x4002
def planeUe : Nat := 0x4003
def memPoison : Nat := 0x4004
def memUe : Nat := 0x4005
def hbmScrubUe : Nat := 0x4006
def ctxStateUe : Nat := 0x4007
def routineUe : Nat := 0x4008
def colDarn : Nat := 0x4010
def colSuspect : Nat := 0x4011
def colReinstate : Nat := 0x4012
def colReinstateFail : Nat := 0x4013
def bankRetire : Nat := 0x4020
def bankReinstate : Nat := 0x4021
def trfShrink : Nat := 0x4022
def quarterRemoved : Nat := 0x4030
def quarterUntested : Nat := 0x4031
def quarterReturn : Nat := 0x4032
def dbgBistRefused : Nat := 0x4040
def dbgBist : Nat := 0x4041

/-! Power and thermal, Table 19.9 (R1021). -/
def refIntervalChange : Nat := 0x5001
def imonTrip : Nat := 0x5002
def thermAlarm : Nat := 0x5003
def thermCrit : Nat := 0x5004
def sensorFail : Nat := 0x5005

/-! Profiles, Table 19.10 (R1022). -/
def profileApplied : Nat := 0x6001
def profileReject : Nat := 0x6002
def pfAbsent : Nat := 0x6101
def pfFormat : Nat := 0x6102
def pfRange : Nat := 0x6103
def dlShareRange : Nat := 0x6104
def pfMember : Nat := 0x6105
def qmaskEmpty : Nat := 0x6106
def arbBackoff : Nat := 0x6107
def basketMin : Nat := 0x6108
def trfSplit : Nat := 0x6109
def winOrder : Nat := 0x610A
def routePort : Nat := 0x610B
def routeSys : Nat := 0x610C
def dlSlots : Nat := 0x610D
def rinseSeal : Nat := 0x610E
def rinseEpoch : Nat := 0x610F
def rinseTimeout : Nat := 0x6110
def vidSettle : Nat := 0x6111

/-! Bring-up, Table 19.11 (R1023). -/
def bringupReport : Nat := 0x7001
def fuseFail : Nat := 0x7101
def lvlInvalid : Nat := 0x7102
def pllLockFail : Nat := 0x7103
def bistFail : Nat := 0x7104
def profileNone : Nat := 0x7105
def hbmTrainFail : Nat := 0x7106
def phaseTimeout : Nat := 0x7107
/-- HEALTH, R1011. -/
def health : Nat := 0x0001

/-- R1009, R1013: the severity of an event code: 0 INFO, 1 WARN, 2 CTXFAULT, 3 DEVFAULT. -/
def severity (c : Nat) : Nat :=
  if [health, dlCharge, hlinkState, fpState, colReinstate, bankReinstate, quarterReturn, dbgBistRefused, dbgBist,
      refIntervalChange, profileApplied, bringupReport].contains c then 0
  else if [spillAuth, spillFit, isoLost, ctxCapacity, xlatRange, xlatInvalid, xlatFormat, xlatUnbacked, xlatPerm,
      walkFault, windowFault, reqFault, trfMapUe, memUe, ctxStateUe, routineUe].contains c then 2
  else if [trfShrink, quarterRemoved, quarterUntested, thermCrit].contains c then 3
  else 1

end Sys2Proof.Machine.Code
end

