-- ==== Sys2Proof/Config.lean ====
section
/-! DEFINITION. Config.lean: what the SV-256 fixes by its family member, and the free values, which the spec leaves open.
A free value is an opaque constant: nothing can evaluate it, so a statement holds for every value. -/
namespace Sys2Proof.Config

/-- FREE VALUE (log entry 3): the n-th 48-bit salt that the TRNG gives (R407). -/
opaque salt : Nat → Salt

/-- FREE VALUE (log entry 3): the n-th 256-bit seed that the TRNG gives (R398). -/
opaque localSeal : Nat → Seal

/-- FREE VALUE (log entry 4): for the n-th racing byte read (R211), whether it returns the value after the write. -/
opaque raceNew : Nat → Bool

/-- FREE VALUE (log entry 5): for the n-th write not admitted when RESET_N asserts (R818), whether it takes effect. -/
opaque keptWrite : Nat → Bool

/-- FREE VALUE (log entry 6): the TLB entry that the n-th fill replaces in a full cache (R501 leaves the choice open). -/
opaque victim : Nat → Nat

/-- FREE VALUE (log entry 79): the lanes that the n-th periodic retraining finds and repairs (R581). -/
opaque retrainRepairs : Nat → Nat

/-- FREE VALUE (log entry 10): the greatest magnitude of transmitter tap `tap` that the electrical class `cls` allows, in 1/320 of peak
swing: the CEI agreements' figure, which the spec does not give. -/
opaque tapLimit (cls tap : Nat) : Nat

/-- Family member 3 is the SV-256 (Table 14.7). -/
def member : Nat := 3

/-- The first offset past the backed memory: 96 GiB (R474). -/
def backedEnd : Nat := 0x01800000000

/-- Working lines of a slice (Table 3.1). -/
def sliceLines : Nat := 8192

/-- The park reserve of a slice (§3.6). -/
def parkReserve : Nat := 896

end Sys2Proof.Config
end

