-- ==== Sys2Proof/Machine/Arith.lean ====
section
/-! DEFINITION. Machine/Arith.lean: the arithmetic of spec chapter 02: TB8 rows, exact reals, the AF50 word
and its single rounding, group sums, quantisation, the SR16 generator, the vector primitives and the storage
conversions.  Exact reals that the part forms are all dyadic: a mantissa times a power of two. -/
namespace Sys2Proof.Machine

/-- An exact dyadic real `m * 2 ^ e`. -/
structure Dy where
  m : Int
  e : Int
  deriving DecidableEq, Repr, Inhabited

/-- Zero. -/
def Dy.zero : Dy := ⟨0, 0⟩

/-- An integer. -/
def Dy.ofInt (n : Int) : Dy := ⟨n, 0⟩

/-- The sum, at the smaller of the two exponents. -/
def Dy.add (a b : Dy) : Dy :=
  if a.m = 0 then b else if b.m = 0 then a else
  let e := min a.e b.e
  ⟨a.m * 2 ^ (a.e - e).toNat + b.m * 2 ^ (b.e - e).toNat, e⟩

/-- The negation. -/
def Dy.neg (a : Dy) : Dy := ⟨-a.m, a.e⟩

/-- The difference. -/
def Dy.sub (a b : Dy) : Dy := a.add b.neg

/-- The product. -/
def Dy.mul (a b : Dy) : Dy := ⟨a.m * b.m, a.e + b.e⟩

/-- The value times a power of two. -/
def Dy.scale (a : Dy) (k : Int) : Dy := ⟨a.m, a.e + k⟩

/-- Strict order of the values. -/
def Dy.lt (a b : Dy) : Bool := (a.sub b).m < 0

/-- Equality of the values. -/
def Dy.eqv (a b : Dy) : Bool := (a.sub b).m == 0

/-- `floor(log2 |a|)` of a non-zero value. -/
def Dy.log2 (a : Dy) : Int := Int.ofNat (Nat.log2 a.m.natAbs) + a.e

/-- `floor a`. -/
def Dy.floor (a : Dy) : Int := if 0 ≤ a.e then a.m * 2 ^ a.e.toNat else a.m / 2 ^ (-a.e).toNat

/-- The nearest integer, ties to the even integer. -/
def Dy.rne (a : Dy) : Int :=
  if 0 ≤ a.e then a.m * 2 ^ a.e.toNat else
  let d : Int := 2 ^ (-a.e).toNat
  let q := a.m / d
  let r := a.m % d
  if 2 * r < d then q else if d < 2 * r then q + 1 else if q % 2 = 0 then q else q + 1

/-- A value at a point where TB8 elements are decoded or formed (R37, R58): a real, poison, or on loads an infinity. -/
inductive Val where
  | real (x : Dy)
  | poison
  | inf (negative : Bool)
  deriving DecidableEq, Repr, Inhabited

/-- One TB8 row: its row scale and 32 element bytes (R37). -/
structure Row where
  scale : Byte
  elems : List Byte
  deriving DecidableEq, Repr, Inhabited

/-- The canonical zero row (R38). -/
def Row.zero : Row := ⟨0, List.replicate 32 0⟩

/-- The canonical poisoned row (R38). -/
def Row.poisoned : Row := ⟨0xFF, List.replicate 32 0⟩

/-- A tile: 32 rows (R36). -/
abbrev Tile := List Row

/-- The tile of zero rows. -/
def Tile.zero : Tile := List.replicate 32 Row.zero

/-- The tile of poisoned rows. -/
def Tile.poisoned : Tile := List.replicate 32 Row.poisoned

/-- Table 2.1 and Table 2.2: the value of one element of a row. -/
def elemVal (scale b : Byte) : Val :=
  if scale = 0 then .real Dy.zero
  else if scale = 0xFF then .poison
  else if b = 0x80 then .poison
  else .real ⟨b.toInt, Int.ofNat scale.toNat - 127⟩

/-- The 32 values of a row. -/
def Row.vals (r : Row) : List Val := r.elems.map (elemVal r.scale)

/-- R38, R39: the canonical form of a row. -/
def Row.canonical (r : Row) : Row :=
  if r.scale = 0 then Row.zero
  else if r.scale = 0xFF then Row.poisoned
  else if r.elems.all (· == 0) then Row.zero
  else r

/-- True of a row that holds poison. -/
def Row.hasPoison (r : Row) : Bool := r.vals.any (fun v => v == .poison)

/-- True of a row whose every element is exactly 0. -/
def Row.isZero (r : Row) : Bool := r.vals.all (fun v => match v with | .real x => x.m == 0 | _ => false)

/-- R40: the 1,056-byte NAT block of a tile, elements then scales. -/
def Tile.toNat (t : Tile) : List Byte := (t.map (·.elems)).flatten ++ t.map (·.scale)

/-- R40: the tile that a NAT block spells, before R39 makes its rows canonical. -/
def Tile.ofNat (bs : List Byte) : Tile :=
  (List.range 32).map (fun r => ⟨bs.getD (1024 + r) 0, bytesAt bs (r * 32) 32⟩)

/-- The byte of a signed element. -/
def elemByte (q : Int) : Byte := BitVec.ofInt 8 q

/-! ### AF50 -/

/-- One AF50 element: its word and the poison bit held beside it (R42). -/
structure Af where
  word : Af50Word
  poison : Bool
  deriving DecidableEq, Repr, Inhabited

/-- +0 (R44). -/
def Af.zero : Af := ⟨0, false⟩

/-- Poison, with the word all zero (R45). -/
def Af.bad : Af := ⟨0, true⟩

/-- The biased exponent field of an AF50 word. -/
def Af.exp (a : Af) : Nat := bitsAt a.word.toNat 39 10

/-- R43, R47: the value of an AF50 element. -/
def Af.val (a : Af) : Val :=
  if a.poison then .poison
  else if a.exp = 0 then .real Dy.zero
  else if a.exp = 1023 then .poison
  else
    let f : Int := Int.ofNat (2 ^ 39 + bitsAt a.word.toNat 0 39)
    .real ⟨if bitAt a.word.toNat 49 then -f else f, Int.ofNat a.exp - 550⟩

/-- R44-R47: the element the device holds after reading an AF50 word from outside. -/
def Af.normal (a : Af) : Af :=
  if a.poison then Af.bad else if a.exp = 0 then Af.zero else if a.exp = 1023 then Af.bad else a

/-- The outcome of an operation that rounds: the element and the two conditions it can raise. -/
structure Rounded where
  val : Af
  /-- ACC_RANGE: the exact result reached 2^512 (R48). -/
  range : Bool := false
  /-- VEC_DOMAIN (R68, R69). -/
  domain : Bool := false
  deriving DecidableEq, Repr, Inhabited

/-- R48: the single rounding R(y) of an exact real. -/
def roundDy (y : Dy) : Rounded :=
  if y.m = 0 then ⟨Af.zero, false, false⟩ else
  let k := y.log2
  let mm := (Dy.mk (Int.ofNat y.m.natAbs) (y.e - (k - 39))).rne
  let big := mm == 2 ^ 40
  let mant : Int := if big then 2 ^ 39 else mm
  let ex : Int := (if big then k + 1 else k) + 511
  if ex > 1022 then ⟨Af.bad, true, false⟩
  else if ex < 1 then ⟨Af.zero, false, false⟩
  else
    let s : Nat := if y.m < 0 then 1 else 0
    ⟨⟨BitVec.ofNat 50 (s * 2 ^ 49 + ex.toNat * 2 ^ 39 + (mant - 2 ^ 39).toNat), false⟩, false, false⟩

/-- R48: the single rounding R(y). -/
def roundVal (v : Val) : Rounded :=
  match v with
  | .real y => roundDy y
  | _ => ⟨Af.bad, false, false⟩

/-! ### Group sums (R41) -/

/-- R41: the exact group sum of an A row and a B row. -/
def groupSum (a b : Row) : Val :=
  if a.scale = 0 ∨ b.scale = 0 then .real Dy.zero
  else if a.scale = 0xFF ∨ b.scale = 0xFF then .poison
  else if (a.elems.contains 0x80) || (b.elems.contains 0x80) then .poison
  else
    let g := (List.zipWith (fun x y => x.toInt * y.toInt) a.elems b.elems).foldl (· + ·) 0
    if g = 0 then .real Dy.zero
    else .real ⟨g, Int.ofNat a.scale.toNat + Int.ofNat b.scale.toNat - 254⟩

/-- The exact sum of two values; poison in either gives poison. -/
def Val.add (a b : Val) : Val :=
  match a, b with
  | .real x, .real y => .real (x.add y)
  | _, _ => .poison

/-- The exact product of two values; poison in either gives poison, including 0 times poison (Table 2.5). -/
def Val.mul (a b : Val) : Val :=
  match a, b with
  | .real x, .real y => .real (x.mul y)
  | _, _ => .poison

/-- The larger exact value (Table 2.5). -/
def Val.max (a b : Val) : Val :=
  match a, b with
  | .real x, .real y => if x.lt y then .real y else .real x
  | _, _ => .poison

/-- The smaller exact value (Table 2.5). -/
def Val.min (a b : Val) : Val :=
  match a, b with
  | .real x, .real y => if y.lt x then .real y else .real x
  | _, _ => .poison

/-- The exact negation. -/
def Val.neg (a : Val) : Val :=
  match a with
  | .real x => .real x.neg
  | v => v

/-- R53: accumulate one group sum into a plane element. -/
def accumulate (acc : Af) (g : Val) : Rounded := roundVal (acc.val.add g)

/-- R52: the plane element that ASD seeds from a value: exact, without rounding. -/
def seedOf (v : Val) : Af := (roundVal v).val

/-! ### SR16 (R61) -/

/-- R61: the SR16 value for a seed and an element index, on 32-bit unsigned arithmetic. -/
def sr16 (seed c : Nat) : Nat :=
  let x0 := (BitVec.ofNat 32 seed) ^^^ (BitVec.ofNat 32 c * 0x9E3779B9#32)
  let x1 := x0 ^^^ (x0 >>> 16)
  let x2 := x1 * 0x7FEB352D#32
  let x3 := x2 ^^^ (x2 >>> 15)
  let x4 := x3 * 0x846CA68B#32
  let x5 := x4 ^^^ (x4 >>> 16)
  x5.toNat % 65536

/-! ### Quantisation Q (R58) -/

/-- The settings of a quantisation (R58). -/
structure QMode where
  /-- RELU activation. -/
  relu : Bool := false
  /-- FIXS with this scale, or MAXS. -/
  fixs : Option Nat := none
  /-- SR16 with this seed, or RNE. -/
  seed : Option Nat := none
  deriving DecidableEq, Repr, Inhabited

/-- NONE, MAXS, RNE: the settings of loads and of regrouping (R71, R82). -/
def QMode.load : QMode := {}

/-- R58: activation of one value. -/
def activate (relu : Bool) (v : Val) : Val :=
  if relu then
    match v with
    | .real x => if x.m < 0 then .real Dy.zero else .real x
    | .inf true => .real Dy.zero
    | w => w
  else v

/-- The values of largest magnitude: the greatest magnitude among the non-zero reals. -/
def maxMag (vs : List Val) : Option Dy :=
  vs.foldl (fun best v =>
    match v with
    | .real x =>
      if x.m = 0 then best else
      let a : Dy := ⟨Int.ofNat x.m.natAbs, x.e⟩
      match best with
      | none => some a
      | some b => if b.lt a then some a else some b
    | _ => best) none

/-- R58: one element under the chosen scale. -/
def quantElem (m : QMode) (s : Nat) (c : Nat) (v : Val) : Option Int :=
  match v with
  | .poison => none
  | .inf neg => some (if neg then -127 else 127)
  | .real x =>
    let y := x.scale (127 - Int.ofNat s)
    let q := match m.seed with
      | none => y.rne
      | some seed => ((y.scale 16).floor + Int.ofNat (sr16 seed c)) / 65536
    some (Min.min (Max.max q (-127)) 127)

/-- R58: quantise the values of a row, whose element indices are `c0 + k`. -/
def quantRow (m : QMode) (c0 : Nat) (vs0 : List Val) : Row :=
  let vs := vs0.map (activate m.relu)
  if vs.all (· == .poison) then Row.poisoned else
  let infAny := vs.any (fun v => match v with | .inf _ => true | _ => false)
  let poisAny := vs.any (· == .poison)
  let pick : Option Nat := match m.fixs, maxMag vs with
    | some sf, _ => some sf
    | none, some mx => some (Min.min (Max.max (mx.log2 + 121) 1) 254).toNat
    | none, none => if infAny then some 254 else if poisAny then some 127 else none
  match pick with
  | none => Row.zero
  | some s =>
    let qs := (vs.zipIdx).map (fun p => quantElem m s (c0 + p.2) p.1)
    if !poisAny && qs.all (· == some 0) then Row.zero
    else ⟨BitVec.ofNat 8 s, qs.map (fun q => match q with | none => 0x80 | some i => elemByte i)⟩

/-- Column `k` of a tile as 32 values. -/
def Tile.column (t : Tile) (k : Nat) : List Val := t.map (fun r => elemVal r.scale (r.elems.getD k 0))

/-- R82: regroup a tile: the transposed tile, each new row quantised. -/
def Tile.regroup (t : Tile) : Tile :=
  (List.range 32).map (fun k => quantRow QMode.load (k * 32) (t.column k))

/-! ### Function kernels (R64 to R69) -/

/-- The natural `M` for which `M / 2 ^ 39` is the nearest to a root: `q t` tells whether `t / 2 ^ 40` is at most the root. -/
def nodeRound (q : Nat → Bool) : Nat :=
  let t := bitSearch q 41 0
  (t + 1) / 2

/-- R65: N_exp[j] = R(2 ^ (j / 256)), and 2 at j = 256. -/
def nExp (j : Nat) : Dy :=
  if 256 ≤ j then ⟨2, 0⟩
  else ⟨Int.ofNat (nodeRound (fun t => decide (t ^ 256 ≤ 2 ^ (40 * 256 + j)))), -39⟩

/-- R65: N_rcp[j] = R(256 / (256 + j)), and 1/2 at j = 256.  The node lies in (1/2, 1], so its unit is 2 ^ -40 below 1. -/
def nRcp (j : Nat) : Dy :=
  if 256 ≤ j then ⟨1, -1⟩
  else if j = 0 then ⟨1, 0⟩
  else ⟨Int.ofNat ((2 * (2 ^ 40 * 256) / (256 + j) + 1) / 2), -40⟩

/-- R65: N_rsq[j] = R(1 / sqrt(1 + j / 128)), and 1/2 at j = 384. -/
def nRsq (j : Nat) : Dy :=
  if 384 ≤ j then ⟨1, -1⟩
  else if j = 0 then ⟨1, 0⟩
  else ⟨Int.ofNat (nodeRound (fun t => decide (t * t * (128 + j) ≤ 128 * 2 ^ 82))), -40⟩

/-- Linear interpolation between two nodes at the exact fraction `t`. -/
def interp (n0 n1 t : Dy) : Dy := n0.add (t.mul (n1.sub n0))

/-- R67: exp2 of an exact real. -/
def exp2Real (a : Dy) : Rounded :=
  -- Beyond these bounds the result is +0 or reaches 2^512 whatever the fraction (R48).
  if a.lt (Dy.ofInt (-600)) then ⟨Af.zero, false, false⟩
  else if (Dy.ofInt 600).lt a then ⟨Af.bad, true, false⟩
  else
    let n := a.floor
    let f := a.sub (Dy.ofInt n)
    let j := (f.scale 8).floor
    let t := (f.scale 8).sub (Dy.ofInt j)
    roundDy ((interp (nExp j.toNat) (nExp (j.toNat + 1)) t).scale n)

/-- R68: reciprocal of an exact real. -/
def rcpReal (a : Dy) : Rounded :=
  if a.m = 0 then ⟨Af.bad, false, true⟩ else
  let k := a.log2
  let m : Dy := ⟨Int.ofNat a.m.natAbs, a.e - k⟩
  let x := (m.sub (Dy.ofInt 1)).scale 8
  let j := x.floor
  let t := x.sub (Dy.ofInt j)
  let p := (interp (nRcp j.toNat) (nRcp (j.toNat + 1)) t).scale (-k)
  roundDy (if a.m < 0 then p.neg else p)

/-- R69: reciprocal square root of an exact real. -/
def rsqReal (a : Dy) : Rounded :=
  if a.m ≤ 0 then ⟨Af.bad, false, true⟩ else
  let k := a.log2
  let h := k / 2
  let m : Dy := a.scale (-2 * h)
  let x := (m.sub (Dy.ofInt 1)).scale 7
  let j := x.floor
  let t := x.sub (Dy.ofInt j)
  roundDy ((interp (nRsq j.toNat) (nRsq (j.toNat + 1)) t).scale (-h))

/-- Lift a kernel to values; poison gives poison (Table 2.5). -/
def liftKernel (f : Dy → Rounded) (v : Val) : Rounded :=
  match v with
  | .real x => f x
  | _ => ⟨Af.bad, false, false⟩

/-! ### Loads (R70 to R74) -/

/-- The exact value of an IEEE 754 binary number with `eb` exponent bits and `fb` fraction bits (R71). -/
def ieeeVal (eb fb x : Nat) : Val :=
  let f := bitsAt x 0 fb
  let e := bitsAt x fb eb
  let neg := bitAt x (fb + eb)
  let bias : Int := Int.ofNat (2 ^ (eb - 1) - 1)
  if e = 2 ^ eb - 1 then (if f = 0 then .inf neg else .poison)
  else
    let m : Int := Int.ofNat (if e = 0 then f else f + 2 ^ fb)
    let ex : Int := (if e = 0 then 1 else Int.ofNat e) - bias - Int.ofNat fb
    .real ⟨if neg then -m else m, ex⟩

/-- R72: a row loaded from I8 bytes with exponent `x`. -/
def rowOfI8 (x : Int) (bs : List Byte) : Row :=
  if bs.all (· == 0) then Row.zero
  else if bs.all (· == 0x80) then Row.poisoned
  else ⟨BitVec.ofInt 8 (x + 127), bs⟩

/-! ### Stores (R76 to R81) -/

/-- The power-of-two unit of the last place of a magnitude in a format with smallest exponent `emin` and `fb` fraction bits. -/
def ulpExp (emin : Int) (fb : Nat) (x : Dy) : Int := Max.max x.log2 emin - Int.ofNat fb

/-- R77-R79: the encoding of an exact value in an IEEE format, rounded to nearest even and saturated. -/
def ieeeStore (eb fb : Nat) (x : Dy) : Nat :=
  if x.m = 0 then 0 else
  let bias : Nat := 2 ^ (eb - 1) - 1
  let emin : Int := 1 - Int.ofNat bias
  let mag : Dy := ⟨Int.ofNat x.m.natAbs, x.e⟩
  let u := ulpExp emin fb mag
  let q := (mag.scale (-u)).rne.toNat          -- at most 2 ^ (fb + 1)
  if q = 0 then 0 else
  let be : Int := u - emin + Int.ofNat fb       -- 0 for the subnormal and the smallest normal binade
  -- The encoding of q units of 2 ^ u is additive: a carry into the next binade bumps the exponent.
  let enc : Nat := be.toNat * 2 ^ fb + q
  let top : Nat := (2 ^ eb - 1) * 2 ^ fb - 1
  let enc := Min.min enc top
  (if x.m < 0 then 2 ^ (eb + fb) else 0) + enc

/-- R76-R80: the bytes that one element stores to F16. -/
def storeF16 (v : Val) : List Byte :=
  natLe 2 (match v with | .real x => ieeeStore 5 10 x | _ => 0x7E80)

/-- R76-R80: the bytes that one element stores to F32. -/
def storeF32 (v : Val) : List Byte :=
  natLe 4 (match v with | .real x => ieeeStore 8 23 x | _ => 0x7FD00000)

/-- R76, R80: the byte that one element stores to I8 with exponent `x`. -/
def storeI8 (x : Int) (v : Val) : Byte :=
  match v with
  | .real a => elemByte (Min.min (Max.max (a.scale (-x)).rne (-127)) 127)
  | _ => 0x80

end Sys2Proof.Machine
end

