-- ==== Sys2Proof/Machine/State.lean ====
section
/-! DEFINITION. Machine/State.lean: every piece of state the spec gives the SV-256, as plain data, and the machine after reset.
A structure below groups the state of one part of the spec; INVENTORY.md lists each field with its rule and reset value. -/
namespace Sys2Proof.Machine

/-! ### Reasons to stop -/

/-- The reasons a command stops the machine with a fault. -/
inductive Fault where
  /-- Raised by a meaning whose command names a unit (a quarter, port, slice, bank, stack, link or target) that the part
  does not have: chapter 01 gives the counts.  Safe: the machine stops where no such unit exists. -/
  | noSuchUnit (what : String) (index : Nat)
  deriving DecidableEq, Repr

/-- The reasons a command is refused. -/
inductive Refusal where
  /-- Raised only by an arm of exec whose command has no meaning yet.  Safe: the machine stops. -/
  | notModelled (mnemonic : String)
  deriving DecidableEq, Repr

/-! ### Tile register file (chapter 03) and crossbar (chapter 04) -/

/-- R86: the metadata word of a line. -/
structure Meta where
  live : Bool := false
  zero : Bool := true
  zsrc : Bool := true
  poison : Bool := false
  ver : Nat := 0
  tile : Nat := 0
  deriving DecidableEq, Repr, Inhabited

/-- Table 3.5: what a basket line's charge falls on; window lines are charged to the window. -/
inductive Charge where
  | window
  | floor (slot : Nat)
  | shared
  | reserve
  deriving DecidableEq, Repr, Inhabited

/-- R96a, Table 3.5: what a physical line in use serves. -/
inductive LineOwner where
  /-- The tile's window line (R96a). -/
  | window (slot tile : Nat)
  /-- A line staged for the destination tile of a context (Table 3.5). -/
  | staged (ctx tile : Nat)
  /-- A streamed B line of MMS for an ordinal and column position (R284). -/
  | streamed (ctx ord pos : Nat)
  /-- Line `q` of a parked sub-block (R107). -/
  | parked (ctx pl sub q : Nat)
  /-- A window line of a slot whose RESTORE has not committed: unreadable (R422, R423). -/
  | restoring (ctx tile : Nat)
  /-- A reserve line that a RESTORE that has not committed has filled with line `q` of a parked sub-block: unreadable (R422, R423). -/
  | unread (ctx pl sub q : Nat)
  deriving DecidableEq, Repr, Inhabited

/-- An entry of a slice's line map. -/
structure LineUse where
  owner : LineOwner
  charge : Charge
  deriving DecidableEq, Repr, Inhabited

/-- R146: the phases of a bank handover. -/
inductive HandoverPhase where
  | fill
  | verify
  deriving DecidableEq, Repr, Inhabited

/-- R146-R152: a handover of working bank `bank` from one physical bank to another. -/
structure Handover where
  bank : Nat
  source : Nat
  target : Nat
  phase : HandoverPhase := .fill
  /-- Rows refreshed in this sweep of the handover. -/
  rows : Nat := 0
  deriving DecidableEq, Repr, Inhabited

/-- R1028: a use waiting at a slice's allocator, of the write lane `lane`. -/
structure WaitUse where
  lane : Nat
  cls : Nat
  slot : Nat
  owner : LineOwner
  port : Nat
  deriving DecidableEq, Repr, Inhabited

/-- R166, R1028: the arbitration state of a port or an allocator: one pointer, and wait, loss and hold per requester index. -/
structure Arb where
  ptr : Nat := 0
  wait : List Nat := List.replicate 32 0
  loss : List Nat := List.replicate 32 0
  hold : List Nat := List.replicate 32 0
  deriving DecidableEq, Repr, Inhabited

/-- The service state of a physical bank (R146, R895-R904). -/
inductive BankStatus where
  /-- A working bank number is served by it, or it is a working bank in service. -/
  | serving
  /-- A spare bank that serves no bank number and is free to take one. -/
  | free
  /-- A spare bank whose march failed: no spare until it has passed REINSTATE_PASSES marches in a row (R904). -/
  | suspect
  /-- A bank in service that is to be evacuated, for want of a spare (R897). -/
  | retiring
  /-- Retired: its bank number is served by a spare, or its lines have left the slice. -/
  | retired
  deriving DecidableEq, Repr, Inhabited

/-- R895-R904: the repair state of one physical bank of a slice. -/
structure Bank where
  status : BankStatus := .serving
  /-- Instants of its uncorrectable errors within the last hour (R895). -/
  ueTimes : List Nat := []
  /-- Instants of its corrected words within the last 10 s, newest first (R895). -/
  ceTimes : List Nat := []
  /-- The bank number that it served when it was retired. -/
  served : Option Nat := none
  /-- Consecutive march passes (R902). -/
  passes : Nat := 0
  /-- The row that the bank's next refresh takes, and the sweep, counted from 1 at the sweep origin, whose slot of that row it takes
  (R137); 0 for a row that the sweep before the origin has left. -/
  refRow : Nat := 0
  refSweep : Nat := 1
  deriving DecidableEq, Repr, Inhabited

/-- One TRF slice: line map, payload and metadata stores, loss map, line counts, banks. -/
structure Slice where
  /-- The line map: physical line ↦ use, in rising line order (R96a). -/
  lines : List (Nat × LineUse) := []
  /-- Payloads by `256 * physical bank + row`; an absent entry holds 32 zero rows (the model's choice). -/
  payload : List (Nat × Tile) := []
  /-- Metadata words by line; an absent entry holds the default word of Table 3.2. -/
  words : List (Nat × Meta) := []
  /-- The loss map: lines marked lost (R144). -/
  lost : List Nat := []
  /-- Free floor lines by resident slot (R123). -/
  floorFree : List (Nat × Nat) := []
  /-- Free lines of the shared part (R125). -/
  sharedFree : Nat := 0
  /-- Free lines of the park reserve (R126). -/
  reserveFree : Nat := 0
  /-- The physical bank that serves each working bank number 0-31 (R150). -/
  serves : List Nat := List.range 32
  /-- Bank numbers whose lines have left the slice (R152). -/
  gone : List Nat := []
  /-- Lines that the shared part still owes to evacuated banks (R152, R898). -/
  owed : Nat := 0
  /-- The handover in progress, if any (R146). -/
  handover : Option Handover := none
  /-- The 34 physical banks. -/
  banks : List Bank := List.replicate 32 ({} : Bank) ++ List.replicate 2 { status := .free }
  /-- The slot ceiling that a shortage of this slice has set (R899). -/
  ceiling : Option Nat := none
  /-- The basket allocator (R184). -/
  alloc : Arb := {}
  /-- Uses waiting for a shared line, in the order of their lanes' needs (R1028). -/
  waiting : List WaitUse := []
  deriving DecidableEq, Repr, Inhabited

/-- What a lane's transfers are for. -/
inductive LaneFor where
  /-- The context's routine. -/
  | routine
  /-- A park, an unpark or an ISMOVE of the context. -/
  | move
  /-- The lines of the next segment of the context's MMS, staged ahead (R284). -/
  | ahead
  deriving DecidableEq, Repr, Inhabited

/-- A request that a lane has to make at a port: `left` lines to move (R163, R168), of a kind of Table 4.2 for a context, with the
class of context `by_` (R164, R165). -/
structure LaneReq where
  port : Nat
  left : Nat
  kind : Nat
  ctx : Nat
  by_ : Nat
  use : LaneFor := .routine
  /-- The plane that a park or an unpark moves. -/
  pl : Nat := 0
  /-- Its class, once it is posted (R164, R182). -/
  cls : Option Nat := none
  deriving DecidableEq, Repr, Inhabited

/-- R138, R158, R166: one slice port: its round state, its write latches and the non-urgent refreshes that wait. -/
structure Port where
  arb : Arb := {}
  /-- Which of the eight write latches hold a line: latch 2q of the DV write lane of quarter q, 2q + 1 of its LS write lane (R158). -/
  latches : List Bool := List.replicate 8 false
  /-- The physical banks of this port whose non-urgent refresh waits for a free slot, in the order in which their slots opened (R138). -/
  pendingRef : List Nat := []
  deriving DecidableEq, Repr, Inhabited

/-- R134-R137: the refresh schedule. -/
structure Refresh where
  /-- The sweep period in force, µs (R134). -/
  period : Nat := 40
  /-- Start of the sweep in progress, ns. -/
  origin : Nat := 0
  /-- The hottest TRF sensor's last reading, 1/16 °C. -/
  hottest : Int := 0
  /-- It has read above 93 °C, and the return of R135 has not come. -/
  hot : Bool := false
  /-- Since when the hottest TRF sensor has read 90 °C or below, while the sweep is at 20 µs (R135). -/
  coolSince : Option Nat := none
  deriving DecidableEq, Repr, Inhabited

/-! ### Quarters (chapters 03, 06, 07, 16, 17) -/

/-- R112: a peg: its tag and the line it holds. -/
structure Peg where
  valid : Bool := false
  slot : Nat := 0
  tile : Nat := 0
  ver : Nat := 0
  line : Tile := []
  deriving DecidableEq, Repr, Inhabited

/-- One physical plane of a quarter, its holder and its checkpoint copy (R104). -/
structure PhysPlane where
  /-- The context and architectural plane it holds. -/
  holder : Option (Nat × Nat) := none
  /-- Elements by sub-block, 1,024 each; a sub-block not listed holds +0. -/
  blocks : List (Nat × List Af) := []
  /-- The checkpoint copy of the elements (R104). -/
  ckpt : List (Nat × List Af) := []
  /-- The checkpoint copy of the 64 live flags (R104). -/
  ckptLive : Nat := 0
  deriving DecidableEq, Repr, Inhabited

/-- Table 7.3: what a running routine is. -/
inductive JobKind where
  | op
  | evict
  | restore
  /-- ATT, whose context has no queue yet. -/
  | attach
  deriving DecidableEq, Repr, Inhabited

/-- How far the segment in progress has come. -/
inductive Stage where
  /-- Fetching memory, tile lines and basket lines. -/
  | gather
  /-- Every input is there and the effects are staged: the commit point is next (R324, R326). -/
  | staged
  deriving DecidableEq, Repr, Inhabited

/-- A tile write that waits for its commit (R325). -/
structure StagedTile where
  tile : Nat
  /-- The staged line; none for a structural write (R89). -/
  line : Option Nat := none
  rows : Tile := []
  structural : Bool := false
  /-- RLS (R254). -/
  release : Bool := false
  deriving DecidableEq, Repr, Inhabited

/-- A routine that holds tracks of a quarter, and its segment in progress (§7.3). -/
structure Job where
  kind : JobKind := .op
  ctx : Nat
  tracks : List Nat
  /-- First ordinal of the segment in progress. -/
  base : Nat := 0
  /-- Ordinals of the segment in progress. -/
  len : Nat := 0
  stage : Stage := .gather
  /-- Instant at which the segment took its tracks (R436). -/
  takenAt : Nat := 0
  /-- True of a reserved segment (R440). -/
  reserved : Bool := false
  /-- A preemption request waits for this routine's commit point (R334). -/
  yielding : Bool := false
  /-- Port transfers of the segment have been posted. -/
  fetched : Bool := false
  /-- Memory writes of the segment have been issued (R326). -/
  issued : Bool := false
  staged : List StagedTile := []
  /-- Reduction ordinals of the segment that execute, in order (R276, R277). -/
  steps : List Nat := []
  /-- Steps of the segment started so far (R189). -/
  started : Nat := 0
  /-- Lines of the next step are at the array edge (R189). -/
  edge : Bool := false
  /-- Physical plane in use. -/
  phys : Option Nat := none
  accRange : Bool := false
  vecDomain : Bool := false
  /-- Poisoned chunks read in this run, and the first one's VA and SPA (R242). -/
  poisoned : Nat := 0
  poisonVa : Nat := 0
  poisonSpa : Nat := 0
  /-- Tiles or records whose writes are all issued, over the whole routine (R326, R345). -/
  writesDone : Nat := 0
  /-- The pages of the segment's accesses have been classified (R328, R481). -/
  classified : Bool := false
  /-- Of a RESTORE: a claim has been in force on its quarter while the segment ran (R437). -/
  underClaim : Bool := false
  /-- The salt draw waits for pool bits and the track is given up (R559); the cclk for which it held the track before. -/
  awaitsSalt : Bool := false
  heldBefore : Nat := 0
  /-- The start, in 1/600 s, of the frame period in which the segment started (R439), and the idle steps inserted into it (R465). -/
  period : Nat := 0
  idle : Nat := 0
  /-- The plane of the segment has its checkpoint copy (R104). -/
  saved : Bool := false
  /-- Translations of the segment: 4 KiB page of the VA ↦ page of the SPA (R328, R500). -/
  pages : List (Nat × Nat) := []
  /-- The reads of the residency map, and those of tensor data, have been posted. -/
  mapAsked : Bool := false
  asked : Bool := false
  /-- The fetches of the next step have been posted; the step's lines at the array edge, A positions then B (R189). -/
  stepAsked : Bool := false
  /-- The pegs of the step whose lines have been asked of a port (R116, R190). -/
  missed : List Nat := []
  lines : List Tile := []
  /-- The B lines of an MMS segment are staged, and the steps that execute are chosen (R278). -/
  loaded : Bool := false
  /-- Of a RESTORE: the header that has verified, and the metadata words of the segment's tiles (R421, R423). -/
  header : List Byte := []
  words : List (Nat × Meta) := []
  /-- Steps whose group sums the plane holds. -/
  summed : Nat := 0
  deriving DecidableEq, Repr, Inhabited

/-- Table 7.3: the internal routines that move lines inside the device, each of one segment. -/
inductive MoveKind where
  | park
  | unpark
  | ismove
  deriving DecidableEq, Repr, Inhabited

/-- A park, an unpark or an ISMOVE that holds tracks of a quarter (R107 to R109, R393). -/
structure MoveJob where
  kind : MoveKind
  ctx : Nat
  /-- The architectural plane, and the physical plane that it leaves or takes. -/
  pl : Nat := 0
  phys : Nat := 0
  /-- The sub-blocks that it moves. -/
  subs : List Nat := []
  tracks : List Nat
  /-- When it took its tracks. -/
  takenAt : Nat
  /-- Every line has been transferred: its commit point is next. -/
  staged : Bool := false
  deriving DecidableEq, Repr, Inhabited

/-- R387, R388: the rotation state of a track. -/
structure Track where
  /-- The slot the track served last. -/
  last : Nat := 0
  /-- Consecutive segments of that slot. -/
  run : Nat := 0
  deriving DecidableEq, Repr, Inhabited

/-- A cached leaf translation (R494). -/
structure TlbEntry where
  ctx : Nat
  va : Nat
  /-- log2 of the page size: 12, 21 or 30. -/
  bits : Nat
  page : Nat
  rd : Bool
  wr : Bool
  deriving DecidableEq, Repr, Inhabited

/-- A cached non-leaf entry: the table that a level's entry names (Table 10.7). -/
structure TableEntry where
  ctx : Nat
  level : Nat
  /-- The VA bits above the level's page size. -/
  tag : Nat
  table : Nat
  deriving DecidableEq, Repr, Inhabited

/-- Role of a physical column (R878). -/
inductive ColRole where
  | work (logical : Nat)
  | board
  | spare
  | darned
  deriving DecidableEq, Repr, Inhabited

/-- R880-R893: board rotation of one quarter's array. -/
structure Rotation where
  /-- The 258 physical columns. -/
  roles : List ColRole := (List.range 256).map ColRole.work ++ [.board, .spare]
  /-- A shadow step is due or in progress: the physical columns X (board) and Y (working). -/
  shadow : Option (Nat × Nat) := none
  /-- Y's state has been copied into X, both run the shadow step, and its compare is due (R883, R884). -/
  shadowRan : Bool := false
  /-- The period in progress is a darn period (R890). -/
  testDarned : Bool := false
  /-- When each physical column last passed its test: own time and timebase (R885, Table 16.5). -/
  lastPass : List (Nat × (Nat × Nat)) := []
  /-- Consecutive passes of the darned column under reinstatement. -/
  darnPasses : Nat := 0
  deriving DecidableEq, Repr, Inhabited

/-- One quarter. -/
structure Quarter where
  planes : List PhysPlane := [{}, {}]
  pegsA : List Peg := List.replicate 8 {}
  pegsB : List Peg := List.replicate 8 {}
  jobs : List Job := []
  /-- Parks, unparks and ISMOVEs that hold tracks. -/
  moves : List MoveJob := []
  /-- Requests of the six crossbar lanes, oldest first (R154, R155). -/
  lanes : List (List LaneReq) := List.replicate 6 []
  tracks : List Track := List.replicate 4 {}
  /-- Contexts in the order in which they last ran a segment here, most recent first (R268). -/
  recent : List Nat := []
  /-- A plane that a bind has chosen to park: holder context and plane (R268). -/
  parkChosen : Option (Nat × Nat) := none
  /-- The context whose bind chose it (R437), and since when its park has waited for reserve lines (R127). -/
  parkFor : Option Nat := none
  parkSince : Option Nat := none
  /-- Binds that wait for a commit point at which a physical plane is left unused: context and plane, oldest first (R268). -/
  bindWaits : List (Nat × Nat) := []
  tlb : List TlbEntry := []
  /-- A deadline claim is in force (R449); while its latency runs, since when, and the contexts whose reserved work waited when it was
  raised (R438). -/
  claim : Bool := false
  claimAt : Option Nat := none
  claimFor : List Nat := []
  /-- Suspensions reported: start of the period in 1/600 s, and cause (R472). -/
  suspended : List (Nat × Nat) := []
  /-- D(q) exceeds B_max after a rebind (R471). -/
  overcommit : Bool := false
  /-- The halt instrument, which HALT, RESUME and JTAG reach (R654, R656). -/
  halted : Bool := false
  /-- In service: in QUARTER_MASK and not removed (§8.4). -/
  removed : Bool := false
  /-- The cause of removal (Table 16.8). -/
  removeCause : Nat := 0
  /-- A removal is under way: no segment starts. -/
  leaving : Bool := false
  untested : Bool := false
  rotation : Rotation := {}
  /-- Contexts that have committed a segment writing a plane of the quarter, with the instant of the last such commit (R885). -/
  planeWriters : List (Nat × Nat) := []
  /-- Instants of the plane, peg and path errors, newest first (Table 16.8). -/
  planeUes : List Nat := []
  pegUes : List Nat := []
  pathUes : List Nat := []
  /-- A step boundary's decision permits the next step (R945). -/
  stepPermit : Bool := false
  deriving DecidableEq, Repr, Inhabited

/-! ### Contexts (chapters 05, 06, 08, 09) -/

/-- Table 8.1: the device's copy of a context descriptor, and the SPA that it was read from (Table 8.4). -/
structure Desc where
  dspa : Nat := 0
  dver : Nat := 0
  cls : Nat := 0
  qaff : Nat := 0
  wt : Nat := 1
  tcnt : Nat := 0
  shdl : Nat := 0
  troot : Nat := 0
  ppage : Nat := 0
  ering : Nat := 0
  ersz : Nat := 0
  sarea : Nat := 0
  sepoch : Nat := 0
  img : Bool := false
  budget : Nat := 0
  deriving DecidableEq, Repr, Inhabited

/-- Table 8.2. -/
inductive CtxState where
  | detached
  | spilled
  | idle
  | runnable
  | running
  | preempted
  | faulted
  deriving DecidableEq, Repr, Inhabited

/-- A frame of a context of class DL (R430, R431): number, bound period, the start of that period in 1/600 s of the timebase (every
legal FRAME_HZ divides 600, so that starts compare across a change of rate), and deadline instant. -/
structure Frame where
  num : Nat
  bound : Int
  period : Int
  /-- Deadline as an instant of the device's own time, ns (R470). -/
  deadline : Nat
  /-- Charge of the frame's segments in whatever periods they ran (R443). -/
  charge : Nat := 0
  /-- It was found missed (R457), and its deadline has been seen to. -/
  missed : Bool := false
  past : Bool := false
  /-- `seq` and committed segments of its first operation that a context fault has ended unfinished (R223, R457). -/
  ended : Option (Nat × Nat) := none
  deriving DecidableEq, Repr, Inhabited

/-- An admitted operation that has not completed (R199). -/
structure Op where
  pkt : List Byte
  /-- The start, in 1/600 s of the timebase, of the bound period of the frame it belongs to, for a context of class DL; of an FRM
  that of the period bound to it (R430, §9.1), and the number of that period. -/
  frame : Option Int := none
  bound : Int := 0
  /-- Of an FRM of a context of class DL: the deadline fixed at its binding (R431, R470). -/
  deadline : Nat := 0
  /-- The content checks have passed (R204). -/
  issued : Bool := false
  /-- First ordinal not committed. -/
  ord : Nat := 0
  /-- Committed segments. -/
  segs : Nat := 0
  /-- Count of Table 5.4 or 6.9 over the committed segments. -/
  count : Nat := 0
  /-- Every segment has committed. -/
  done : Bool := false
  accDone : Bool := false
  domDone : Bool := false
  poisonDone : Bool := false
  /-- Profile epoch at issue (Table 5.3). -/
  pepoch : Nat := 0
  /-- The routine was stopped by a preemption request and has not run again. -/
  stopped : Bool := false
  /-- Of an LDT: the residency map bytes that it has read, by VA (R238). -/
  mapBits : Option (List (Nat × Byte)) := none
  deriving DecidableEq, Repr, Inhabited

/-- R284: the staging ahead of the next segment of an MMS: its first ordinal and its ordinals, whose reads have been posted, and whether
the transfers of its lines have been. -/
structure Ahead where
  base : Nat
  len : Nat
  moved : Bool := false
  deriving DecidableEq, Repr, Inhabited

/-- Where an architectural plane is held (R266, R267). -/
inductive PlaneLoc where
  | none
  | phys (quarter plane : Nat)
  | parked
  deriving DecidableEq, Repr, Inhabited

/-- One architectural plane of a context (R261). -/
structure ArchPlane where
  isOpen : Bool := false
  /-- The 64 live flags. -/
  live : Nat := 0
  loc : PlaneLoc := .none
  deriving DecidableEq, Repr, Inhabited

/-- R422, R423: a restore in progress: what has verified and waits unreadable for the final commit. -/
structure RestoreState where
  header : List Byte := []
  /-- Records verified so far. -/
  records : Nat := 0
  /-- Metadata words of the verified tiles, whose payloads lie in the slot's window lines. -/
  tiles : List (Nat × Meta) := []
  deriving DecidableEq, Repr, Inhabited

/-- One attach entry (R349). -/
structure Entry where
  state : CtxState := .detached
  /-- An admitted ATT that has not been refused: its packet (Table 8.5, order 1). -/
  att : Option (List Byte) := none
  desc : Desc := {}
  expSeq : Nat := 0
  queue : List Op := []
  slot : Option Nat := none
  quarter : Option Nat := none
  planes : List ArchPlane := [{}, {}]
  salt : Option Salt := none
  /-- Records of the spill in progress whose segments have committed (R416). -/
  spillAt : Nat := 0
  /-- Progress word fields (R220). -/
  done : Nat := 0
  frm : Nat := 0
  naks : Nat := 0
  flt : Bool := false
  /-- Records written to the context's event ring since ATT (R873). -/
  ringCount : Nat := 0
  /-- The last record transaction of the ring (R523), and the last response or progress transaction (R222). -/
  lastRecord : Option Nat := none
  lastReport : Option Nat := none
  /-- Order in which the context became a restore candidate (R376). -/
  candidate : Option Nat := none
  /-- A SEAL_ABSENT or EPOCH_EXHAUSTED event was written for this wait (R379, Table 8.13). -/
  waitTold : Bool := false
  lastRestore : Nat := 0
  lastTrack : Nat := 0
  committedSince : Bool := false
  restore : Option RestoreState := none
  /-- Quarter that a rebind will move the context to at its next commit point (R384, R386). -/
  rebindTo : Option Nat := none
  /-- An IS context whose window waits for ISMOVE: the old slice (R393). -/
  moving : Option Nat := none
  /-- The context that displaces this one from its slot (R165). -/
  displacedBy : Option Nat := none
  /-- What its MMS has staged ahead (R284). -/
  ahead : Option Ahead := none
  /-- The frame that the latest FRM to run opened (R433). -/
  curFrame : Option Frame := none
  /-- The frames bound since ATT, by the FRMs admitted, in order. -/
  frames : List Frame := []
  /-- Charges by the start of the period in 1/600 s (R439), and the last period for which DL_OVERRUN was written (R441). -/
  charges : List (Nat × Nat) := []
  /-- The periods for which DL_OVERRUN was written (R441). -/
  overrunAt : List Nat := []
  /-- The suspensions told to the context (R472): start of the period in 1/600 s, quarter and cause. -/
  suspensions : List (Nat × Nat × Nat) := []
  deriving DecidableEq, Repr, Inhabited

/-- An internal routine waiting to run (Table 7.3). -/
inductive Internal where
  | park (ctx pl : Nat)
  | unpark (ctx pl phys : Nat)
  | evict (ctx : Nat)
  | restore (ctx : Nat)
  | ismove (ctx : Nat)
  deriving DecidableEq, Repr, Inhabited

/-! ### Memory fabric and HBM (chapters 10, 11) -/

/-- Whose transaction it is, and where its answer goes. -/
inductive TxnOwner where
  /-- A routine of a context. -/
  | op (ctx : Nat)
  /-- A read of an aborted run of an operation of a context: its data come back to no one, and FNC waits for it (R212). -/
  | aborted (ctx : Nat)
  /-- A page walk (R503). -/
  | walk (ctx va : Nat)
  /-- A record write of a context or of the device ring (Table 10.3): response, progress word, event, descriptor word. -/
  | record (ctx : Nat)
  | device
  /-- A request that arrived on a link (0 the host link, 1 + n port FPn): its tag, its request type, and its `sdev`. -/
  | inbound (link tag ptype sdev : Nat)
  /-- A request from fabric port FP`link - 1` for another device, received at `since`: it crosses from FPI to FPO (§11.10). -/
  | transit (link since : Nat)
  deriving DecidableEq, Repr, Inhabited

/-- What a transaction does. -/
inductive TxnKind where
  | read
  | write
  | fetchAdd (operand : Nat)
  | compareSwap (compare swap : Nat)
  deriving DecidableEq, Repr, Inhabited

/-- Where a transaction stands. -/
inductive TxnState where
  /-- In its master's queue, or posted to its target (R546). -/
  | posted
  /-- Admitted to an HBM queue: a read or an atomic whose data have not returned (R566). -/
  | admitted
  /-- Sent on a link, waiting for its completion (R547). -/
  | sent
  deriving DecidableEq, Repr, Inhabited

/-- A memory fabric transaction (R543).  `spa` and `len` are the bytes that it accesses; its burst is their cover by 64-byte chunks,
with a byte enable for each of them (R535, R536). -/
structure Txn where
  /-- The model's own name of the transaction, which no other has. -/
  id : Nat
  /-- The 8-bit ID that it carries in the fabric (R543, R544); bit 0 selects the path of a port with two (R534). -/
  bus : Nat := 0
  master : Nat
  target : Nat
  owner : TxnOwner
  kind : TxnKind
  spa : Nat
  len : Nat
  data : List Byte := []
  /-- Byte enables of a write; the empty list enables every byte (R536). -/
  enables : List Bool := []
  /-- Transactions that must be visible first (R216, R222, R522, R523). -/
  after : List Nat := []
  state : TxnState := .posted
  /-- It stands at its target: it has taken part in a round, and stays posted until one grants it (R546). -/
  atPort : Bool := false
  /-- Rounds lost since it was posted (R550). -/
  lost : Nat := 0
  /-- It holds a shared admission entry (R565). -/
  sharedEntry : Bool := false
  /-- Data captured at admission, and chunks poisoned there (R566, R572). -/
  got : List Byte := []
  bad : List Nat := []
  /-- Words of an admitted read that a write admitted after it has covered whole (R575): an error found in one of them is past. -/
  cured : List Nat := []
  /-- Doorbell to a NOTIFY window (Table 10.3). -/
  notify : Bool := false
  /-- An inbound request of an ordered stream, with its stream tag (R634); `rkind` of a forwarded RWR (Table 12.6). -/
  ord : Option Nat := none
  rkind : Nat := 0
  /-- The first completion status other than OK that a part of it drew (R486). -/
  st : Nat := 0
  /-- `seq` and `opc` of the operation that issued it, for WRITE_REFUSED; the level of a walk read in `seq`. -/
  seq : Nat := 0
  opc : Nat := 0
  /-- The virtual address of the first byte, for reports. -/
  va : Nat := 0
  deriving DecidableEq, Repr, Inhabited

/-- Data that a read has returned to a routine. -/
structure Got where
  owner : TxnOwner
  spa : Nat
  data : List Byte
  /-- Start addresses of the 64-byte chunks reported uncorrectable (R572, R485). -/
  bad : List Nat
  /-- Completion status of a remote read; 0 for OK. -/
  st : Nat := 0
  deriving DecidableEq, Repr, Inhabited

/-- A page walk in flight (R497). -/
structure Walk where
  ctx : Nat
  quarter : Nat
  va : Nat
  /-- A write access asked for it. -/
  write : Bool
  deriving DecidableEq, Repr, Inhabited

/-- The memory fabric: its transactions, the round state of its targets and its clients' returned data. -/
structure Fabric where
  txns : List Txn := []
  nextId : Nat := 0
  /-- ptr of each of the seven targets (R550). -/
  ptrs : List Nat := List.replicate 7 0
  /-- The target from which the rotation of each of the ten masters' response channels goes on (R540). -/
  respPtrs : List Nat := List.replicate 10 0
  got : List Got := []
  walks : List Walk := []
  sharedTlb : List TlbEntry := []
  tableCache : List TableEntry := []
  deriving DecidableEq, Repr, Inhabited

/-- Per-stack state of the local HBM. -/
structure Stack where
  /-- Last temperature read, 1/16 °C (R576). -/
  temp : Int := 0
  /-- The refresh interval in force, ns: 3,900 or 1,950 (R576). -/
  refInterval : Nat := 3900
  /-- The unit that the next scrub read takes; when the pass in progress began, ns, and its scrub period, h (R582, R585). -/
  scrubAt : Nat := 0
  scrubFrom : Nat := 0
  scrubHours : Nat := 24
  trained : Bool := false
  /-- In self-refresh (R819). -/
  selfRefresh : Bool := false
  lanesRepaired : Nat := 0
  deriving DecidableEq, Repr, Inhabited

/-- R564: a 256-byte piece of an admitted burst, which waits at its pseudo channel: the burst's transaction, the pseudo channel, the
bank by stack ID and bank number (16 sid + bank), the row, and how often younger pieces have passed it (R568). -/
structure DramPiece where
  txn : Nat
  pc : Nat
  bank : Nat
  row : Nat
  passed : Nat := 0
  deriving DecidableEq, Repr, Inhabited

/-- Local HBM: contents, words in error, the queues of the pseudo channels, stacks, retraining and the TRNG pool. -/
structure Hbm where
  /-- Byte offset ↦ byte, rising, no entry 0: an absent byte reads 0 (R845). -/
  mem : List Host.Cell := []
  /-- Offsets of 8-byte words that hold an uncorrectable code, rising (R572, R575). -/
  badWords : List Nat := []
  /-- Offsets of 8-byte words that hold a single-bit error, rising, until the next write or scrub (R571). -/
  ceWords : List Nat := []
  /-- The pieces that wait, oldest first (R564, R568). -/
  pieces : List DramPiece := []
  /-- The open row of each bank that has one, by `48 * pc + bank` (R568). -/
  openRows : List (Nat × Nat) := []
  /-- When each bank was last refreshed, by `48 * pc + bank`, ns (R576). -/
  refreshed : List (Nat × Nat) := []
  /-- When each pseudo channel last had a scrub read, ns (R582). -/
  scrubbed : List (Nat × Nat) := []
  hbmStacks : List Stack := List.replicate 4 {}
  /-- The channel that the next retraining takes, and the interval in force (R578). -/
  retrainAt : Nat := 0
  retrainMs : Nat := 100
  /-- When the retrain interval in progress began, ns; and the retraining under way: its channel and its end (R579, R580). -/
  retrainFrom : Nat := 0
  retraining : Option (Nat × Nat) := none
  /-- Conditioned bits in the TRNG pool, and when it was last refilled, ns (R557). -/
  pool : Nat := 0
  trngAt : Nat := 0
  deriving DecidableEq, Repr, Inhabited

/-! ### Links (chapters 12, 13) -/

/-- Credits of one channel of a link (R609, R610): what the partner advertised and has freed, what this side used, and
what this side holds and has freed; what it advertised are the slots of Tables 12.3 and 13.9 less those that it holds. -/
structure Credit where
  adv : Nat := 0
  partnerFreed : Nat := 0
  used : Nat := 0
  held : Nat := 0
  freed : Nat := 0
  deriving DecidableEq, Repr, Inhabited

/-- A packet for another device, held for an outbound port (R718-R722). -/
structure Held where
  bytes : List Byte
  /-- 0 the host link or inside, 1 + n port FPn. -/
  arrived : Nat
  /-- The channel on which it arrived, 4 VN + VC. -/
  vc : Nat
  dest : Nat
  since : Nat
  /-- Its slots have been freed: it was queued for a port that has gone down since (R612, R737). -/
  freed : Bool := false
  /-- An ordered packet queued for a port that went down waits for that port (R732, R737). -/
  waitsFor : Option Nat := none
  deriving DecidableEq, Repr, Inhabited

/-- A packet waiting to be sent: its bytes, whole slots, since when it has waited for credit (R615), and, where it was held for
forwarding, as which (R737). -/
structure OutPacket where
  bytes : List Byte
  since : Nat := 0
  held : Option Held := none
  deriving DecidableEq, Repr, Inhabited

/-- A DATA flit kept until it is acknowledged (R599, R600): its number, its 240 payload bytes, when it was last sent, the packets
with a slot in it, and whether the first of them began in an earlier flit. -/
structure SentFlit where
  fseq : Nat
  pay : List Byte
  sentAt : Nat
  parts : List OutPacket := []
  cont : Bool := false
  deriving DecidableEq, Repr, Inhabited

/-- The Lykel layer of one link, the same for the host link and the fabric ports (§12.2 to §12.4). -/
structure Lykel where
  /-- The number of the next new DATA flit (R594), and the next `fseq` expected (R595). -/
  nextSeq : Nat := 0
  expSeq : Nat := 0
  /-- A DATA flit has been accepted since the link first became ACTIVE (`ackv`). -/
  ackv : Bool := false
  unacked : List SentFlit := []
  /-- Flits to resend before any new one, by `fseq` (R598). -/
  resend : List Nat := []
  /-- Dropping DATA flits until `expSeq` is accepted, and when RETRY_REQ was last due (R597). -/
  dropping : Bool := false
  retryAt : Nat := 0
  /-- A RETRY_REQ waits to be sent. -/
  retryDue : Bool := false
  /-- Replays from one `fseq` without progress (R606). -/
  replayFrom : Nat := 0
  replays : Nat := 0
  ackAt : Nat := 0
  /-- One entry per channel, 4 VN + VC; the host link uses VN0 alone (Tables 12.3, 13.9). -/
  credits : List Credit := List.replicate 8 {}
  /-- Packets waiting to be sent, per channel. -/
  txq : List (List OutPacket) := List.replicate 8 []
  /-- Slots of a packet begun and not wholly sent (R592). -/
  txRest : List (List Byte) := []
  /-- The packet of `txRest`; while a flit is built, the packets with a slot in it. -/
  begun : List OutPacket := []
  /-- Slots of a packet whose tail has not arrived, and how many more it has (R592). -/
  rxPart : List Byte := []
  rxNeed : Nat := 0
  /-- Slots of a packet being skipped. -/
  rxSkip : Nat := 0
  /-- Packets received and not yet taken, in arrival order, by channel. -/
  rxq : List (Nat × List Byte) := []
  lastSent : Nat := 0
  /-- The free slots offered, by channel, in the first INIT of the handshake in progress; empty until it is sent (R661, R668). -/
  offered : List Nat := []
  /-- The last flit placed on each module or port: the link's outputs. -/
  wire : List (Nat × List Byte) := []
  deriving DecidableEq, Repr, Inhabited

/-- Table 12.10. -/
inductive LinkState where
  | down
  | train
  | handshake
  | active
  | resync
  | retrain
  | failed
  deriving DecidableEq, Repr, Inhabited

/-- The host link (§12.1, §12.9). -/
structure HostLink where
  st : LinkState := .down
  lk : Lykel := {}
  /-- Failed attempts in a row (R659). -/
  attempts : Nat := 0
  /-- Instant at which the state was entered. -/
  since : Nat := 0
  /-- Modules in the UCIe active state, and the module set (R662). -/
  active : Nat := 0
  mset : Nat := 0
  firstActive : Option Nat := none
  /-- The link has been ACTIVE since reset: the next handshake is no initial one (R664). -/
  wasActive : Bool := false
  gotInit : Bool := false
  /-- In RETRAIN: module retraining has completed and the handshake is on (Table 12.10). -/
  shaking : Bool := false
  /-- Modules under retraining alone, and when each last began (R905). -/
  modRetrain : List (Nat × Nat) := []
  deriving DecidableEq, Repr, Inhabited

/-- A request that this device has sent and whose last completion has not come (R627). -/
structure OutReq where
  tag : Nat
  /-- 0 the host link, 1 + n port FPn. -/
  link : Nat
  ptype : Nat
  spa : Nat
  size : Nat
  txn : Nat
  /-- When its last slot left; until then when it joined its link's queue (R633, R736). -/
  sentAt : Nat
  onWire : Bool := false
  /-- The stream to this destination that it belongs to, if it is ordered (R729). -/
  stream : Option Nat := none
  /-- Bytes received so far: offset and byte. -/
  got : List (Nat × Byte) := []
  bad : List Nat := []
  deriving DecidableEq, Repr, Inhabited

/-- R673: the violations of one code on one link in the 1 ms window in progress. -/
structure Violation where
  link : Nat
  code : Nat
  count : Nat
  ptype : Nat
  tag : Nat
  deriving DecidableEq, Repr, Inhabited

/-- Table 13.7. -/
inductive PortState where
  | down
  | train
  | align
  | handshake
  | active
  | resync
  | retrain
  | failed
  deriving DecidableEq, Repr, Inhabited

/-- One lane of a fabric port: its transmitter taps in 1/320 of peak swing, its training words and its health (§13.3, §13.5). -/
structure Lane where
  cm2 : Int := 0
  cm1 : Int := 0
  cp1 : Int := 0
  /-- The status that the lane reports for its own taps (Table 13.6). -/
  stm2 : Nat := 0
  stm1 : Nat := 0
  stp1 : Nat := 0
  stpre : Bool := false
  /-- The receive pair is inverted and corrected (R679). -/
  inverted : Bool := false
  rdyOut : Bool := false
  rdyIn : Bool := false
  /-- Frames in a row on which `go` 1 was both sent and received, up to 80 (R694). -/
  goFrames : Nat := 0
  /-- This side's receiver has failed the lane (R706). -/
  failedHere : Bool := false
  /-- The partner's receiver has failed it (WIDTH `fmask`). -/
  failedThere : Bool := false
  /-- The instant of the last removal under R714. -/
  removedAt : Option Nat := none
  /-- The requests that this side's receiver repeats for the partner's taps (R691). -/
  rqm2 : Nat := 0
  rqm1 : Nat := 0
  rqp1 : Nat := 0
  /-- The scrambler of the lane's hold pattern (R712). -/
  holdScr : Nat := 0
  deriving DecidableEq, Repr, Inhabited

/-- One fabric port. -/
structure FabricPort where
  st : PortState := .down
  lk : Lykel := {}
  attempts : Nat := 0
  since : Nat := 0
  /-- RETRAIN runs TRAIN, ALIGN and HANDSHAKE again: which of them it is in. -/
  phase : PortState := .down
  lanes : List Lane := List.replicate 8 {}
  /-- The set transmitted, the set received, and the active set (masks of lanes). -/
  txSet : Nat := 0
  rxSet : Nat := 0
  setNext : Option Nat := none
  /-- Marker count of the next marker, and data codewords since the last (R685). -/
  marker : Nat := 0
  codewords : Nat := 0
  /-- Markers decoded in a row that agree (R695). -/
  locks : Nat := 0
  lockSet : Nat := 0
  lockCount : Nat := 0
  /-- Scrambler state, 58 bits, and message bits not yet in a codeword (R681). -/
  scrambler : Nat := 0
  message : List Bool := []
  /-- The last codeword sent, by lane: its PAM4 levels (R683, R684). -/
  sent : List (Nat × List Nat) := []
  gotInit : Bool := false
  wasActive : Bool := false
  /-- Virtual network whose counts the next flit reports (R702). -/
  cvn : Nat := 0
  /-- Lanes whose transmit pair is inverted (Table 13.1). -/
  txpol : Nat := 0
  /-- A WIDTH or WIDTH_ACK to send: (is ack, fmask, smask, wmark) (Table 13.10). -/
  widthOut : Option (Bool × Nat × Nat × Nat) := none
  deriving DecidableEq, Repr, Inhabited

/-- R731: a pin of an ordered stream and epoch to a port. -/
structure Pin where
  vc : Nat
  sender : Nat
  dest : Nat
  repoch : Nat
  port : Nat
  lastLeft : Nat
  deriving DecidableEq, Repr, Inhabited

/-- R729: a VC1 ordered stream of this device to a destination: its epoch, and the tags sent under earlier epochs that wait. -/
structure Stream where
  dest : Nat
  epoch : Nat := 0
  /-- Outstanding requests: tag and epoch. -/
  open_ : List (Nat × Nat) := []
  /-- The stream is held until the old epoch drains. -/
  holding : Bool := false
  deriving DecidableEq, Repr, Inhabited

/-- Links, routing and the requests in flight on them. -/
structure Links where
  host : HostLink := {}
  ports : List FabricPort := List.replicate 16 {}
  /-- Requests sent and not ended (R627), and tags held after a timeout: link, tag, release instant. -/
  out : List OutReq := []
  tagHold : List (Nat × Nat × Nat) := []
  held : List Held := []
  pins : List Pin := []
  streams : List Stream := []
  /-- e(d) by destination (R726). -/
  epochs : List Nat := List.replicate 128 0
  violations : List Violation := []
  /-- Start of the 1 ms violation window in progress (R673). -/
  vioSince : Nat := 0
  /-- Instants of the violations of the last 1 ms, per link (PV_STORM). -/
  storm : List (Nat × Nat) := []
  /-- HALT packets whose CACK waits: tag, mask of the quarters in service that it named, tstamp (R655), and the slots it holds
  until then (R612). -/
  haltAcks : List (Nat × Nat × Nat × Nat) := []
  deriving DecidableEq, Repr, Inhabited

/-! ### Configuration (chapter 14) -/

/-- Table 14.11: a window entry. -/
structure Window where
  en : Bool := false
  wcls : Nat := 0
  first : Nat := 0
  last : Nat := 0
  deriving DecidableEq, Repr, Inhabited

/-- Table 13.1, Table 14.12: a PORT_CFG entry; `minw` counts lanes. -/
structure PortCfg where
  cls : Nat := 0
  global : Bool := true
  minw : Nat := 2
  pchk : Bool := false
  preset : Nat := 1
  peer : Nat := 0
  txpol : Nat := 0
  deriving DecidableEq, Repr, Inhabited

/-- Table 13.11, Table 14.13: a route entry. -/
structure Route where
  v : Bool := false
  pri : Nat := 0
  altv : Bool := false
  alt : Nat := 0
  deriving DecidableEq, Repr, Inhabited

/-- Table 14.10: the fields of a profile, with the defaults of the table, which are the ROM profile's (R770). -/
structure Profile where
  cclkMhz : Nat := 1600
  pwrCapW : Nat := 320
  quarterMask : Nat := 0xF
  isoAllow : Nat := 0xF
  residentCtx : Nat := 64
  segSteps : Nat := 32
  tilesPerCtx : Nat := 256
  basketFloor : Nat := 64
  preemptMode : Nat := 2
  waitLimit : Nat := 32
  backoffBase : Nat := 1
  backoffCap : Nat := 16
  burstLimit : Nat := 8
  fabArbFixed : Bool := false
  frameHz : Nat := 30
  dlShare : Nat := 75
  missDrop : Bool := false
  refIntervalUs : Nat := 40
  testRotateMs : Nat := 10
  reinstatePasses : Nat := 16
  healthMs : Nat := 1000
  rtMs : Nat := 100
  scrubH : Nat := 24
  ttgt : Nat := 100
  thys : Nat := 2
  sliceEn : Nat := 0
  /-- PRIO_TABLE, entry 3k + c (Table 4.2). -/
  prio : List Nat := [3, 6, 3, 3, 6, 3, 2, 5, 2, 2, 5, 2, 2, 5, 2, 1, 4, 1, 4, 7, 4]
  /-- FAB_PRIO, entry 7m + t (Table 11.4). -/
  fabPrio : List Nat := List.replicate 28 8 ++ List.replicate 7 8 ++ List.replicate 7 12 ++ List.replicate 7 10 ++
    List.replicate 7 6 ++ List.replicate 7 6 ++ List.replicate 7 12
  windows : List Window := List.replicate 16 {}
  portCfg : List PortCfg := List.replicate 16 {}
  routes : List Route := List.replicate 128 {}
  deriving DecidableEq, Repr, Inhabited

/-- The steps of a profile switch (§14.7). -/
inductive SwitchStep where
  | idle
  /-- Staged and checked; waits for the rinse start of R467. -/
  | waitRinse
  /-- Rinsing: every track is preempted, spills and parks run (R786). -/
  | rinsing
  /-- Nothing left but the window drain and the apply edge. -/
  | ready
  deriving DecidableEq, Repr, Inhabited

/-- A profile switch in progress, and what selects the next one (§14.6, §14.7). -/
structure Switch where
  step : SwitchStep := .idle
  /-- The requested profile number; 8 stands for the ROM profile of R778. -/
  number : Nat := 0
  staged : Profile := {}
  rinse : Bool := false
  /-- When the rinse began (R792), and the period in which the wait for it began (R467). -/
  rinseAt : Nat := 0
  waitPeriod : Nat := 0
  /-- Contexts the rinse has yet to spill, by slot order, and those it has spilled with their former slots (R788, R799). -/
  toSpill : List Nat := []
  spilled : List (Nat × Nat) := []
  /-- Quarters whose return test ran, with its findings (R791, R909). -/
  returned : List (Nat × List Finding) := []
  /-- The queued switch request (R779). -/
  queued : Option Nat := none
  /-- The value under debounce, since when, the last sample, and the value last taken (R774). -/
  pselValue : Nat := 0
  pselSince : Option Nat := none
  pselAt : Nat := 0
  pselTaken : Option Nat := none
  /-- When the first value was taken: the wait for it is in no limit (Table 15.2). -/
  pselFirst : Nat := 0
  deriving DecidableEq, Repr, Inhabited

/-- The latched straps (Table 14.1). -/
structure Straps where
  boot : Nat := 0
  remapEn : Bool := false
  sealLocal : Bool := false
  pselLink : Bool := false
  testmode : Bool := false
  deriving DecidableEq, Repr, Inhabited

/-- The level pins: measured mV and decided levels, IDH, IDL, SYS, PWR (R749, R750). -/
structure Levels where
  mv : List Nat := [0, 0, 0, 0]
  level : List Nat := [0, 0, 0, 0]
  measured : Bool := false
  deriving DecidableEq, Repr, Inhabited

/-- The fuses (Table 11.7): key hash, minimum security version, stepping and the spare state they record. -/
structure Fuses where
  keyHash : Nat := 0
  minIsvn : Nat := 0
  /-- The spare state (R840): columns (quarter, column) and banks (slice, bank) that failed at manufacture. -/
  columns : List (Nat × Nat) := []
  banks : List (Nat × Nat) := []
  deriving DecidableEq, Repr, Inhabited


/-! ### Reset, bring-up and routine stores (chapters 07, 15) -/

/-- Bring-up: the pins PWRGOOD and RESET_N, the phase in progress and what it has found (§15.2 to §15.9). -/
structure Boot where
  pwrgood : Bool := true
  resetN : Bool := false
  /-- PWRGOOD has risen since the previous release, or there has been none (R816). -/
  powerOn : Bool := true
  /-- The phase of Table 15.2 in progress, 0x0 to 0xC; 0xE thermal shutdown, 0xF fatal; 0x10 is the bring-up apply. -/
  phase : Nat := 0
  /-- HBM is to be initialised in this bring-up (R845, R847). -/
  needInit : Bool := true
  /-- When the phase began, and the time that each finished phase took, ns (R860). -/
  phaseAt : Nat := 0
  times : List (Nat × Nat) := []
  /-- STAT[3:0] as shown, since when, and a value held back for its microsecond (R987). -/
  stat : Nat := 0
  statSince : Nat := 0
  statNext : Option Nat := none
  /-- The fatal code in the bring-up status instrument (R861). -/
  fatal : Option Nat := none
  /-- Outcomes under STAT 0x1: the straps are latched, the TRNG start-up test passed. -/
  latched : Bool := false
  trngOk : Bool := false
  /-- The IOCLK PLL and the core PLL are locked (R822, R919). -/
  ioLock : Bool := false
  coreLock : Bool := false
  /-- The read mode that SFDP gave: 0 command 0x03 at 25 MHz, 1 a 1-1-4 read, 2 a 1-4-4 read (R760). -/
  sfdp : Option Nat := none
  /-- The SPI capture point, in steps of 0.5 ns after the rising edge of SPI_CLK (R985). -/
  capture : Option Nat := none
  /-- The last flash command used one data line: SPI_IO[2] and SPI_IO[3] were driven high throughout (R971). -/
  spiHigh : Bool := false
  /-- The hold instrument is set (R825). -/
  holding : Bool := false
  /-- When the wait for it ended, which no limit counts (Table 15.2). -/
  holdEnd : Nat := 0
  /-- Copies read so far, with the failing order of Table 14.9, 0 for none (R766, R767). -/
  copies : List Nat := []
  /-- The copy that passed: 0 primary, 1 fallback. -/
  copyUsed : Option Nat := none
  /-- `pdef` of the verified copy (Table 14.7). -/
  pdef : Nat := 0
  remapped : Bool := false
  /-- BIST findings of this bring-up, in order (R841). -/
  findings : List Finding := []
  /-- The bring-up apply has happened, and the check that refused the selected profile. -/
  applied : Bool := false
  refused : Nat := 0
  trained : Bool := false
  initialised : Bool := false
  /-- Every stack completed self-refresh entry after the last assertion (R819, R847). -/
  selfRefreshDone : Bool := false
  reported : Bool := false
  deriving DecidableEq, Repr, Inhabited

/-- The routine stores: micro-RAM words of the section read last (Table 14.6), and words marked bad (Table 7.7). -/
structure Stores where
  /-- The micro-RAM section, 16 bytes a word; words beyond the list's end hold no content. -/
  micro : List Byte := []
  /-- Words that no copy gives, by their micro-addresses before the remap: micro-ROM word w at w, micro-RAM word w at 0x10000 + w
  (Table 7.1). -/
  bad : List Nat := []
  /-- The end of the last millisecond of scrubbing (R916). -/
  scrubAt : Nat := 0
  deriving DecidableEq, Repr, Inhabited

/-! ### Power, clocks and temperature (chapter 17) -/

/-- Clocks, the VID interface, the energy account and the IMON backstop.
Energies are in units of 0.1 nJ / 340^2, so that the factor (V / 0.85 V)^2 is exact: V is 200 + code, in 2.5 mV. -/
structure Power where
  /-- CCLK in force, MHz; during a relock 800 (R793, R918). -/
  cclk : Nat := 800
  relocking : Bool := false
  /-- VID[7:0], the code that the regulator took last, strobes sent, and when the last was sent. -/
  vid : Nat := 0
  taken : Nat := 0
  strobes : Nat := 0
  strobeAt : Option Nat := none
  /-- The higher voltage code in force during a relock and until R933's code (R923). -/
  vCode : Nat := 0x78
  /-- A lower code to send and when it is due (R933). -/
  lower : Option (Nat × Nat) := none
  /-- A code whose voltage has not been reached yet: the previous code and when the code was sent (R932, R934). -/
  rising : Option (Nat × Nat) := none
  account : Int := 0
  /-- Energy of the events of the interval in progress (R942), and the energy of its steps. -/
  eint : Nat := 0
  esteps : Nat := 0
  /-- The static band in force, W (R944). -/
  band : Nat := 40
  /-- P_therm in units of 1/20 W (R953). -/
  ptherm : Nat := 0
  /-- The pointer of R947. -/
  ptr : Nat := 0
  /-- The last eight samples, newest first, in 0.5 A (R937). -/
  samples : List Nat := []
  trip : Bool := false
  /-- Since when the mean has been at or below I_trip while the trip holds (R938). -/
  fallAt : Option Nat := none
  /-- Of the HEALTH period: trips begun, largest mean in 1/8 of 0.5 A, I_trip and the timebase at the first, VID code then. -/
  trips : Nat := 0
  maxMean : Nat := 0
  firstTrip : Option (Nat × Nat) := none
  /-- Of the HEALTH period: idle steps, model energy, its intervals, the last 100 intervals' energies, and the peak (R948, R949). -/
  idleSteps : Nat := 0
  energy : Nat := 0
  intervals : Nat := 0
  window : List Nat := []
  peak : Nat := 0
  deriving DecidableEq, Repr, Inhabited

/-- The temperature sensors and the thresholds of Table 17.7.  Readings are in 1/16 °C. -/
structure Thermal where
  /-- 16 quarter sensors (4 q + i), 8 TRF sensors (2 s + i), 4 IO sensors. -/
  readings : List Int := List.replicate 28 0
  failed : List Bool := List.replicate 28 false
  hbmFailed : List Bool := List.replicate 4 false
  /-- THERM_N is asserted. -/
  thermN : Bool := false
  hold : Bool := false
  shutdown : Bool := false
  /-- When the stacks' temperatures were last read, the static band last evaluated and P_therm last updated (R944, R953, Table 17.6). -/
  stacksAt : Nat := 0
  bandAt : Nat := 0
  ceilingAt : Nat := 0
  deriving DecidableEq, Repr, Inhabited

/-! ### The device event ring, HEALTH and the instruments (chapters 12, 16) -/

/-- The device event ring (R648, R649, R873). -/
structure Ring where
  valid : Bool := false
  spa : Nat := 0
  rsz : Nat := 0
  count : Nat := 0
  lastRecord : Option Nat := none
  deriving DecidableEq, Repr, Inhabited

/-- A counter of HEALTH pages 2 to 22 (Table 16.10). -/
structure Health where
  /-- Counters by page, offset: key `64 * page + offset` ↦ value (R913). -/
  counts : List (Nat × Nat) := []
  /-- Violation counts by `65536 * link + code` (R914). -/
  violations : List (Nat × Nat) := []
  seq : Nat := 0
  /-- When the next HEALTH event is due, and the period that the one after it takes (R800, R912). -/
  dueAt : Option Nat := none
  startAt : Nat := 0
  deriving DecidableEq, Repr, Inhabited

/-- The instruments of the IEEE 1687 network that operate on the device: BIST (R910, R911). -/
structure Debug where
  /-- The last BIST request was refused, with its reason (R910). -/
  refusedBist : Option Nat := none
  findings : List Finding := []
  /-- The line that the last debug transfer moved: slice, line and content; and when it was moved (R172, R175). -/
  line : Option (Nat × Nat × Tile) := none
  lineAt : Option Nat := none
  deriving DecidableEq, Repr, Inhabited

/-- Counters that index the free values of Config: the model's own, not the spec's. -/
structure Free where
  salts : Nat := 0
  seals : Nat := 0
  races : Nat := 0
  picks : Nat := 0
  repairs : Nat := 0
  deriving DecidableEq, Repr, Inhabited

/-- The whole device, and the queue of commands that wait. -/
structure State where
  /-- Commands waiting, first in, first out. -/
  pending : List Instr := []
  /-- The device's own time since the last release of RESET_N, ns. -/
  now : Nat := 0
  /-- What TIME has added to the timebase, modulo 2^64 (R651, R652). -/
  tbOffset : Nat := 0
  slices : List Slice := List.replicate 4 {}
  /-- The 16 slice ports: port `4 * s + p`. -/
  ports : List Port := List.replicate 16 {}
  refresh : Refresh := {}
  quarters : List Quarter := List.replicate 4 {}
  /-- Attach entries by context number, rising; a number not listed is DETACHED (R349, R350). -/
  entries : List (Nat × Entry) := []
  /-- Internal routines waiting, in order, with the quarter they are queued for. -/
  internal : List Internal := []
  /-- Restore candidates are numbered in the order in which they became candidates (R376). -/
  candidates : Nat := 0
  fabric : Fabric := {}
  hbm : Hbm := {}
  links : Links := {}
  straps : Straps := {}
  levels : Levels := {}
  fuses : Fuses := {}
  boot : Boot := {}
  stores : Stores := {}
  /-- The profile in force, its number, whether it is the ROM profile, and the profile epoch (R798). -/
  profile : Profile := {}
  profNum : Nat := 0
  profRom : Bool := true
  pepoch : Nat := 0
  /-- The on-die profile store: records by number (R768). -/
  profStore : List (Nat × List Byte) := []
  switch : Switch := {}
  /-- The frame period in progress and the instant of own time at which it began (R429). -/
  period : Nat := 0
  periodAt : Nat := 0
  /-- A FRAME_HZ change that waits for a common boundary (R469): the old value. -/
  oldHz : Option Nat := none
  sealKey : Option Seal := none
  /-- A SEAL has been accepted, or a seed drawn, since the last reset (R399). -/
  sealUsed : Bool := false
  ring : Ring := {}
  health : Health := {}
  power : Power := {}
  thermal : Thermal := {}
  instruments : Debug := {}
  free : Free := {}
  deriving DecidableEq, Repr, Inhabited

/-- The machine right after reset: PWRGOOD high, RESET_N asserted, STAT 0x0, both links DOWN, no seal, every context
DETACHED, HBM in no defined content, the queue of commands empty (R350, R815 to R817, R862). -/
def State.reset : State := {}

end Sys2Proof.Machine
end

