-- ==== Sys2Proof/Machine/Memory.lean ====
section
/-! DEFINITION. Machine/Memory.lean: the contents of the local HBM as cells in one canonical form, and the accesses of the
HBM controller with its 8-byte ECC words (R514 to R529, R570 to R575).  An unlisted byte reads 0 (R845, log entry 2). -/
namespace Sys2Proof.Machine

/-- The byte at a device offset. -/
def Memory.read : List Host.Cell → Nat → Byte
  | [], _ => 0
  | (k, v) :: rest, a => if k = a then v else Memory.read rest a

/-- Write one byte.  Writing 0 removes the cell, so that equal memories are equal lists. -/
def Memory.write : List Host.Cell → Nat → Byte → List Host.Cell
  | [], a, b => if b = 0 then [] else [(a, b)]
  | (k, v) :: rest, a, b =>
    if a < k then (if b = 0 then (k, v) :: rest else (a, b) :: (k, v) :: rest)
    else if a = k then (if b = 0 then rest else (a, b) :: rest)
    else (k, v) :: Memory.write rest a b

/-- The canonical form above a bound: addresses strictly rising, and no cell holds 0. -/
def Memory.wfFrom : Nat → List Host.Cell → Bool
  | _, [] => true
  | lo, (k, v) :: rest => decide (lo ≤ k) && v != 0 && Memory.wfFrom (k + 1) rest

/-- The canonical form of memory. -/
def Memory.wf (m : List Host.Cell) : Bool := Memory.wfFrom 0 m

/-- Bytes `a .. a+n-1`. -/
def Memory.readN (m : List Host.Cell) (a n : Nat) : List Byte := (List.range n).map (fun i => Memory.read m (a + i))

/-- Write bytes from `a` upward; a byte whose enable is false is left alone, and an absent enable is true (R536). -/
def Memory.writeN (m : List Host.Cell) : Nat → List Byte → List Bool → List Host.Cell
  | _, [], _ => m
  | a, b :: bs, [] => Memory.writeN (Memory.write m a b) (a + 1) bs []
  | a, b :: bs, e :: es => Memory.writeN (if e then Memory.write m a b else m) (a + 1) bs es

/-- True of byte `i` of a write. -/
def enabledAt (enables : List Bool) (i : Nat) : Bool := enables.getD i true

/-- The 8-byte words, by offset, that a write of `n` bytes at `a` touches. -/
def wordsOf (a n : Nat) : List Nat := (List.range ((a % 8 + n + 7) / 8)).map (fun i => a / 8 * 8 + 8 * i)

/-- True when a write covers every byte of the word at `w` (R574). -/
def coversWord (a n : Nat) (enables : List Bool) (w : Nat) : Bool :=
  (List.range 8).all (fun i => decide (a ≤ w + i) && decide (w + i < a + n) && enabledAt enables (w + i - a))

/-- The words of a write that an enabled byte touches. -/
def touchedWords (a n : Nat) (enables : List Bool) : List Nat :=
  (wordsOf a n).filter (fun w => (List.range 8).any (fun i => decide (a ≤ w + i) && decide (w + i < a + n) && enabledAt enables (w + i - a)))

/-- R574: the words that a write covers whole, and those that it covers in part, each a read-modify-write. -/
def wholeWords (a n : Nat) (enables : List Bool) : List Nat := (wordsOf a n).filter (coversWord a n enables)
def partWords (a n : Nat) (enables : List Bool) : List Nat := (touchedWords a n enables).filter (fun w => !coversWord a n enables w)

/-- A member added to a rising list. -/
def insertRising (x : Nat) : List Nat → List Nat
  | [] => [x]
  | y :: ys => if x < y then x :: y :: ys else if x = y then y :: ys else y :: insertRising x ys

/-- R566, R571, R574, R575: a write takes effect.  A word that it covers whole becomes good; any other touched word keeps its standing,
and becomes uncorrectable where the read of its read-modify-write finds it so (`found`).  `poison` names the 64-byte chunks that arrived
with an uncorrectable path error (Table 16.1): their words are written with the uncorrectable pattern.  A single-bit error that a touched
word held is written back corrected. -/
def Hbm.write (h : Hbm) (a : Nat) (data : List Byte) (enables : List Bool) (poison found : List Nat) : Hbm :=
  let words := touchedWords a data.length enables
  let good := wholeWords a data.length enables
  let bad := words.filter (fun w => poison.contains (w / 64 * 64) || (found.contains w && !good.contains w))
  { h with
    mem := Memory.writeN h.mem a data enables
    badWords := bad.foldl (fun l w => insertRising w l) (h.badWords.filter (fun w => !good.contains w))
    ceWords := h.ceWords.filter (fun w => !words.contains w) }

/-- R572: the 64-byte chunks of a read that hold an uncorrectable word. -/
def Hbm.badChunks (h : Hbm) (a n : Nat) : List Nat :=
  ((List.range ((a % 64 + n + 63) / 64)).map (fun i => a / 64 * 64 + 64 * i)).filter
    (fun c => h.badWords.any (fun w => decide (c ≤ w) && decide (w < c + 64)))

/-- The bytes of a read. -/
def Hbm.read (h : Hbm) (a n : Nat) : List Byte := Memory.readN h.mem a n

/-- R526 to R529, R571: an atomic on the aligned 8-byte word at `a`: the memory after, and the old value or none for POISON. -/
def Hbm.atomic (h : Hbm) (a : Nat) (k : TxnKind) : Hbm × Option Nat :=
  if h.badWords.contains a then (h, none) else
  let old := leNat (h.read a 8)
  let put := fun (v : Nat) => { h with mem := Memory.writeN h.mem a (natLe 8 v) [], ceWords := h.ceWords.filter (· != a) }
  match k with
  | .fetchAdd x => (put ((old + x) % 2 ^ 64), some old)
  | .compareSwap c w => (if old = c then put w else h, some old)
  | _ => (h, some old)

/-! ### The hash (§11.7) -/

/-- R561: the pseudo channel index of a device offset. -/
def pseudoChannel (o : Nat) : Nat :=
  let u := o / 256
  Nat.xor (Nat.xor (Nat.xor (Nat.xor (bitsAt u 0 7) (bitsAt u 7 7)) (bitsAt u 14 7)) (bitsAt u 21 7)) (bitsAt u 28 1)

/-- R562: the stack of a device offset. -/
def stackOf (o : Nat) : Nat := bitsAt (pseudoChannel o) 5 2

/-- R562, R578: the device-wide channel, 16 × stack + channel, of a pseudo channel: of its two pseudo channels `pc[0]` is one. -/
def channelOf (pc : Nat) : Nat := pc / 2

/-- R562: the local unit index within its pseudo channel. -/
def localUnit (o : Nat) : Nat := o / 256 / 128

/-- R563: where a device offset lies: pseudo channel, bank (16 × stack ID + bank), row, and quarter of the row. -/
def dramPlace (o : Nat) : Nat × Nat × Nat × Nat :=
  let a := localUnit o
  (pseudoChannel o, 16 * bitsAt a 20 2 + Nat.xor (bitsAt a 2 4) (bitsAt a 6 4), bitsAt a 6 14, bitsAt a 0 2)

/-- The number under which a bank of a pseudo channel is listed. -/
def bankKey (pc bank : Nat) : Nat := 48 * pc + bank

/-! ### The pieces of the pseudo channels (R564, R568) -/

/-- R564: the pieces of a burst of `n` bytes at offset `a`, one for each 256-byte unit. -/
def dramPieces (txn a n : Nat) : List DramPiece :=
  (List.range ((a % 256 + n + 255) / 256)).map (fun i =>
    let d := dramPlace (a / 256 * 256 + 256 * i)
    { txn := txn, pc := d.1, bank := d.2.1, row := d.2.2.1 })

/-- The row of a piece is open in its bank. -/
def Hbm.rowOpen (h : Hbm) (p : DramPiece) : Bool := assocGet h.openRows (bankKey p.pc p.bank) == some p.row

/-- A piece is served: it leaves its queue, and its row is the open one of its bank. -/
def Hbm.servePiece (h : Hbm) (p : DramPiece) : Hbm :=
  { h with pieces := h.pieces.erase p, openRows := assocPut h.openRows (bankKey p.pc p.bank) p.row }

/-- The older pieces of a pseudo channel that a piece passes are each passed once more (R568). -/
def Hbm.pass (h : Hbm) (older : List DramPiece) : Hbm :=
  { h with pieces := h.pieces.map (fun x => if older.contains x then { x with passed := x.passed + 1 } else x) }

/-- Which piece of pseudo channel `pc` is served next on behalf of transaction `txn`, and the older ones that it passes: its own oldest,
where every older one may be passed, as to an open row when none of them has been passed four times (R568), or when the older ones wait
for banks under refresh (`busy`, R577); else the oldest. -/
def Hbm.nextPiece (h : Hbm) (busy : DramPiece → Bool) (txn pc : Nat) : Option (DramPiece × List DramPiece) :=
  let q := h.pieces.filter (fun p => p.pc == pc)
  match q.find? (fun p => p.txn == txn) with
  | none => none
  | some p =>
    let older := (q.takeWhile (fun x => x.txn != txn)).filter (fun x => !busy x || busy p)
    if older.isEmpty then some (p, [])
    else if h.rowOpen p && older.all (fun x => decide (x.passed < 4)) then some (p, older)
    else older.head?.map (fun o => (o, []))

end Sys2Proof.Machine
end

