-- ==== Sys2Proof/Machine/Ops.lean ====
section
/-! DEFINITION. Machine/Ops.lean: the named operations over the state that every family uses: access to its parts, time,
HEALTH counters, the classification of addresses, memory fabric transactions, and the records that the device writes. -/
namespace Sys2Proof.Machine

/-- What a command answers. -/
abbrev Out := Host.Outcome State Fault Refusal

/-! ### Access to the parts of the state -/

/-- Quarter `q`. -/
def State.quarter (s : State) (q : Nat) : Quarter := s.quarters.getD q {}

/-- Quarter `q` changed. -/
def State.modQuarter (s : State) (q : Nat) (f : Quarter → Quarter) : State := { s with quarters := modAt s.quarters q f }

/-- Slice `i`. -/
def State.slice (s : State) (i : Nat) : Slice := s.slices.getD i {}

/-- Slice `i` changed. -/
def State.modSlice (s : State) (i : Nat) (f : Slice → Slice) : State := { s with slices := modAt s.slices i f }

/-- Port SP`p` of slice `i`. -/
def State.port (s : State) (i p : Nat) : Port := s.ports.getD (4 * i + p) {}

/-- Port SP`p` of slice `i` changed. -/
def State.modPort (s : State) (i p : Nat) (f : Port → Port) : State := { s with ports := modAt s.ports (4 * i + p) f }

/-- The attach entry of context number `c`; a number that is not listed is DETACHED. -/
def State.entry (s : State) (c : Nat) : Entry := (assocGet s.entries c).getD {}

/-- The attach entry of `c` written. -/
def State.putEntry (s : State) (c : Nat) (e : Entry) : State := { s with entries := assocPut s.entries c e }

/-- The attach entry of an attached context changed; no entry is made for another. -/
def State.modEntry (s : State) (c : Nat) (f : Entry → Entry) : State :=
  match assocGet s.entries c with
  | some e => s.putEntry c (f e)
  | none => s

/-- The attach entry of `c` freed (R367). -/
def State.dropEntry (s : State) (c : Nat) : State :=
  { s with entries := assocDel s.entries c
           quarters := s.quarters.map (fun u => { u with planeWriters := assocDel u.planeWriters c })
           fabric := { s.fabric with txns := s.fabric.txns.map (fun t => if t.owner = .aborted c then { t with owner := .device } else t) } }

/-- A context has written a plane of quarter `q` (R885). -/
def State.notePlaneWriter (s : State) (q c : Nat) : State :=
  s.modQuarter q (fun u => { u with planeWriters := assocPut u.planeWriters c s.now })

/-- Fabric port `n` of the peer fabric. -/
def State.fport (s : State) (n : Nat) : FabricPort := s.links.ports.getD n {}

/-- Fabric port `n` changed. -/
def State.modFport (s : State) (n : Nat) (f : FabricPort → FabricPort) : State :=
  { s with links := { s.links with ports := modAt s.links.ports n f } }

/-- The Lykel layer of a link: 0 the host link, 1 + n port FPn. -/
def State.lykel (s : State) (link : Nat) : Lykel := if link = 0 then s.links.host.lk else (s.fport (link - 1)).lk

/-- The Lykel layer of a link changed. -/
def State.modLykel (s : State) (link : Nat) (f : Lykel → Lykel) : State :=
  if link = 0 then { s with links := { s.links with host := { s.links.host with lk := f s.links.host.lk } } }
  else s.modFport (link - 1) (fun p => { p with lk := f p.lk })

/-- The host link's own state changed. -/
def State.modHost (s : State) (f : HostLink → HostLink) : State :=
  { s with links := { s.links with host := f s.links.host } }

/-- The memory fabric changed. -/
def State.modFabric (s : State) (f : Fabric → Fabric) : State := { s with fabric := f s.fabric }

/-! ### Identity, time and limits -/

/-- R753: the device ID. -/
def State.devId (s : State) : Nat := 16 * s.levels.level.getD 0 0 + s.levels.level.getD 1 0

/-- Table 5.1: the handle of context number `c`. -/
def State.handle (s : State) (c : Nat) : Nat := s.devId * 512 + c

/-- R651: the device timebase: 10 for each REFCLK edge since the release, moved by TIME. -/
def State.timebase (s : State) : Nat := (s.now / 10 * 10 + s.tbOffset) % 2 ^ 64

/-- Time moves on to an instant, never back. -/
def State.advanceTo (s : State) (t : Nat) : State := { s with now := max s.now t }

/-- The time that a number of cclk takes at the CCLK in force, ns, rounded up. -/
def State.cclkNs (s : State) (n : Nat) : Nat := (n * 1000 + s.power.cclk - 1) / s.power.cclk

/-- Table 14.4: N_max by LVL_SYS. -/
def nMaxTable : List Nat := [1, 2, 4, 6, 8, 12, 16, 17, 24, 32, 48, 64, 80, 96, 112, 128]

/-- Table 14.5: P_lvl in W by LVL_PWR. -/
def pLvlTable : List Nat := [120, 135, 150, 160, 170, 180, 190, 200, 215, 230, 245, 260, 280, 300, 320, 120]

/-- R755: the system size. -/
def State.nMax (s : State) : Nat := nMaxTable.getD (s.levels.level.getD 2 0) 1

/-- R758: the power cap in force, W. -/
def State.capW (s : State) : Nat := min s.profile.pwrCapW (pLvlTable.getD (s.levels.level.getD 3 0) 120)

/-- A quarter is in service: QUARTER_MASK names it and it has not been removed (§8.4). -/
def State.inService (s : State) (q : Nat) : Bool := bitAt s.profile.quarterMask q && !(s.quarter q).removed

/-- The quarters in service, ascending. -/
def State.quartersUp (s : State) : List Nat := (List.range 4).filter s.inService

/-- The mask of the quarters in service. -/
def State.quartersMask (s : State) : Nat := bitsMask 4 s.quartersUp

/-- The device is ready: STAT 0xB or 0xC has been reached (R857). -/
def State.ready (s : State) : Bool := s.boot.phase == 0xB

/-- The device runs: out of reset, with no fatal code and no thermal shutdown. -/
def State.running (s : State) : Bool := s.boot.resetN && s.boot.pwrgood && s.boot.phase != 0xE && s.boot.phase != 0xF

/-! ### HEALTH counters (R913) -/

/-- Key of the counter of a HEALTH page at an offset. -/
def healthKey (page off : Nat) : Nat := 64 * page + off

/-- A HEALTH counter. -/
def State.healthOf (s : State) (page off : Nat) : Nat := (assocGet s.health.counts (healthKey page off)).getD 0

/-- R913: a counter of `w` bytes counts `n` more and stops at its largest value. -/
def State.bump (s : State) (page off w n : Nat) : State :=
  { s with health := { s.health with
      counts := assocPut s.health.counts (healthKey page off) (min (s.healthOf page off + n) (2 ^ (8 * w) - 1)) } }

/-- RECORD_LOST (R484, R649). -/
def State.recordLost (s : State) (n : Nat) : State := s.bump 2 44 4 n

/-! ### Addresses (Tables 10.1 to 10.4) -/

/-- What a system physical address is to this device. -/
inductive Place where
  | backed
  | unbacked
  | mem
  | notify
  | void
  deriving DecidableEq, Repr, Inhabited

/-- R476, R477: the class of a host region address: the lowest-numbered enabled window that covers it. -/
def windowClass (ws : List Window) (spa : Nat) : Place :=
  match ws.find? (fun w => w.en && decide (w.first ≤ bitsAt spa 12 39) && decide (bitsAt spa 12 39 ≤ w.last)) with
  | some w => if w.wcls = 0 then .mem else if w.wcls = 1 then .notify else .void
  | none => .void

/-- R474, R476 to R479: the class of an address, under the windows in force. -/
def State.place (s : State) (spa : Nat) : Place :=
  if bitAt spa 51 then windowClass s.profile.windows spa
  else if bitsAt spa 0 44 < Config.backedEnd then .backed else .unbacked

/-- Table 10.1: the device that an address names. -/
def spaDev (spa : Nat) : Nat := bitsAt spa 44 7

/-- Table 10.1: the offset or host address. -/
def spaOff (spa : Nat) : Nat := bitsAt spa 0 44

/-- R532: the fabric target that serves an address: 0 to 3 the stacks, 4 HLO, 5 FPO. -/
def State.targetOf (s : State) (spa : Nat) : Nat :=
  if spaDev spa = s.devId then (if bitAt spa 51 then 4 else stackOf (spaOff spa)) else 5

/-- Table 10.3: an ordinary access (read, write, record) is performed in backed device memory and in MEM. -/
def Place.plain : Place → Bool
  | .backed => true
  | .mem => true
  | _ => false

/-- R794, R795: an address in a window range that the switch in progress changes. -/
def State.inSwitchRange (s : State) (spa : Nat) : Bool :=
  let covers := fun (w : Window) => w.en && bitAt spa 51 && decide (w.first ≤ bitsAt spa 12 39) && decide (bitsAt spa 12 39 ≤ w.last)
  s.switch.step != .idle &&
    (List.range 16).any (fun i =>
      let a := s.profile.windows.getD i {}
      let b := s.switch.staged.windows.getD i {}
      decide (a ≠ b) && (covers a || covers b))

/-! ### Fabric transactions -/

/-- R534, R543, R544: the 8-bit ID of a transaction: one for each ordered stream, so that its requests take effect in order at a target;
else the low bits of the transaction's number (DESIGN CHOICE, log entry 60). -/
def Txn.busId (t : Txn) (n : Nat) : Nat := match t.ord with | some k => k % 256 | none => n % 256

/-- R534: the path of a port with two that a transaction uses. -/
def Txn.path (t : Txn) : Nat := t.bus % 2

/-- Post a transaction; its identity is the next one. -/
def State.post (s : State) (t : Txn) : State :=
  s.modFabric (fun f => { f with txns := f.txns ++ [{ t with id := f.nextId, bus := t.busId f.nextId }], nextId := f.nextId + 1 })

/-- R535: the first byte of a transaction's burst. -/
def Txn.burstSpa (t : Txn) : Nat := t.spa / 64 * 64

/-- R535: the bytes of a transaction's burst, a multiple of 64. -/
def Txn.burstLen (t : Txn) : Nat := (t.spa % 64 + t.len + 63) / 64 * 64

/-- R536: the byte enables of a write's burst. -/
def Txn.burstEnables (t : Txn) : List Bool :=
  (List.range t.burstLen).map (fun i => decide (t.spa % 64 ≤ i) && decide (i < t.spa % 64 + t.len) && enabledAt t.enables (i - t.spa % 64))

/-- Post several transactions in order. -/
def State.postAll (s : State) (ts : List Txn) : State := ts.foldl State.post s

/-- True while a transaction has not been acknowledged. -/
def State.inFlight (s : State) (id : Nat) : Bool := s.fabric.txns.any (fun t => t.id == id)

/-- Masters of Table 11.1. -/
def masterSre : Nat := 4
def masterPwk : Nat := 5
def masterUsq : Nat := 6
def masterHli : Nat := 7
def masterFpi : Nat := 8
def masterEvw : Nat := 9

/-- True of a transaction that writes memory. -/
def Txn.isWrite (t : Txn) : Bool := t.kind == .write

/-- True while a write of a context's operations is not yet visible (R518). -/
def State.writesPending (s : State) (c : Nat) : Bool :=
  s.fabric.txns.any (fun t => t.isWrite && (t.owner == .op c))

/-- True while a context's operations have any access in flight (R212). -/
def State.accessesPending (s : State) (c : Nat) : Bool :=
  s.fabric.txns.any (fun t => t.owner == .op c || t.owner == .aborted c) || s.fabric.walks.any (fun w => w.ctx == c)

/-- R481, R1033, Table 10.3: a record write to an address goes to the memory fabric: its class performs it, or a switch holds it back and it
is classified after the apply edge. -/
def State.recordGoes (s : State) (spa : Nat) : Bool := (s.place spa).plain || s.inSwitchRange spa

/-- R483, R484: a record write: posted where Table 10.3 performs it, dropped and counted elsewhere. -/
def State.writeRecord (s : State) (master : Nat) (owner : TxnOwner) (spa : Nat) (bytes : List Byte) (after : List Nat) : State :=
  if s.recordGoes spa then
    s.post { id := 0, master := master, target := s.targetOf spa, owner := owner, kind := .write, spa := spa,
             len := bytes.length, data := bytes, after := after }
  else s.recordLost 1

/-! ### Event records (§16.3) -/

/-- R872: an event record: the header of Table 16.3 and the payload, 64 bytes. -/
def State.eventBytes (s : State) (code : Nat) (handle : Option Nat) (part parts rcnt : Nat) (payload : List Byte) : List Byte :=
  natLe 2 code ++ [BitVec.ofNat 8 (Code.severity code + (if handle.isSome then 8 else 0)), BitVec.ofNat 8 part] ++
  natLe 2 (handle.getD 0) ++ [BitVec.ofNat 8 s.devId, BitVec.ofNat 8 parts] ++ natLe 8 s.timebase ++
  natLe 4 (rcnt % 2 ^ 32) ++ natLe 4 s.pepoch ++ bytesAt payload 0 40

/-- R648, R649, R523: one record of the device ring. -/
def State.devicePart (s : State) (code : Nat) (handle : Option Nat) (parts : Nat) (p : Nat × List Byte) : State :=
  if !s.ring.valid then s.recordLost 1 else
  let spa := s.ring.spa + 64 * (s.ring.count % 2 ^ (s.ring.rsz + 6))
  if s.recordGoes spa then
    let bytes := s.eventBytes code handle p.1 parts s.ring.count p.2
    let id := s.fabric.nextId
    let s1 := s.writeRecord masterEvw .device spa bytes s.ring.lastRecord.toList
    { s1 with ring := { s1.ring with count := s1.ring.count + 1, lastRecord := some id } }
  else s.recordLost 1

/-- R874: the records of a multi-record event, in ascending part. -/
def State.deviceEventParts (s : State) (code : Nat) (handle : Option Nat) (payloads : List (List Byte)) : State :=
  payloads.zipIdx.foldl (fun s p => s.devicePart code handle payloads.length (p.2, p.1)) s

/-- An event of one record in the device ring. -/
def State.deviceEvent (s : State) (code : Nat) (handle : Option Nat) (payload : List Byte) : State :=
  s.deviceEventParts code handle [payload]

/-- §8.2, R523: an event of one record in a context's ring. -/
def State.contextEvent (s : State) (c code : Nat) (payload : List Byte) : State :=
  let e := s.entry c
  let spa := e.desc.ering + 64 * (e.ringCount % 2 ^ (e.desc.ersz + 6))
  if s.recordGoes spa then
    let bytes := s.eventBytes code (some (s.handle c)) 0 1 e.ringCount payload
    let id := s.fabric.nextId
    let s1 := s.writeRecord masterEvw (.record c) spa bytes e.lastRecord.toList
    s1.modEntry c (fun e => { e with ringCount := e.ringCount + 1, lastRecord := some id })
  else s.recordLost 1

/-! ### Responses and progress words (§5.5) -/

/-- Fields of an operation packet's header (Table 5.1). -/
def opcOf (pkt : List Byte) : Nat := byteAt pkt 0
def rspOf (pkt : List Byte) : Bool := bitAt (byteAt pkt 1) 0
def barOf (pkt : List Byte) : Bool := bitAt (byteAt pkt 1) 1
def ctxOf (pkt : List Byte) : Nat := natAt pkt 2 2
def seqOf (pkt : List Byte) : Nat := natAt pkt 4 2
def frameOf (pkt : List Byte) : Nat := natAt pkt 6 2

/-- Table 5.3: kinds of response. -/
def respDone : Nat := 1
def respNak : Nat := 2
def respFault : Nat := 3

/-- R215: the 32 bytes of a response. -/
def State.responseBytes (s : State) (pkt : List Byte) (kind code count pepoch : Nat) : List Byte :=
  [BitVec.ofNat 8 (opcOf pkt), BitVec.ofNat 8 kind] ++ natLe 2 (ctxOf pkt) ++ natLe 2 (seqOf pkt) ++ natLe 2 (frameOf pkt) ++
  natLe 2 code ++ natLe 2 0 ++ natLe 4 count ++ natLe 8 s.timebase ++ natLe 4 pepoch ++ natLe 4 0

/-- R214: the slot of the response to a packet. -/
def State.responseSpa (s : State) (c : Nat) (pkt : List Byte) : Nat := (s.entry c).desc.ppage + 64 + 32 * (seqOf pkt % 126)

/-- R215: `time` of a response is the timebase when it is written, which its grant stamps; any other write goes as it is. -/
def State.stamped (s : State) (t : Txn) : Txn :=
  if t.isWrite && t.master == masterUsq && t.len == 32 then { t with data := t.data.take 16 ++ natLe 8 s.timebase ++ t.data.drop 24 } else t

/-- R214, R218, R219: a response, written after the context's last report and the given records. -/
def State.respond (s : State) (c : Nat) (pkt : List Byte) (kind code count pepoch : Nat) (after : List Nat) : State :=
  let e := s.entry c
  let spa := s.responseSpa c pkt
  let id := s.fabric.nextId
  let s1 := s.writeRecord masterUsq (.record c) spa (s.responseBytes pkt kind code count pepoch) (e.lastReport.toList ++ after)
  if s1.fabric.nextId = id then s1 else s1.modEntry c (fun e => { e with lastReport := some id })

/-- R220: the 8 bytes of the progress word. -/
def Entry.progressBytes (e : Entry) : List Byte := natLe 2 e.done ++ natLe 2 e.frm ++ natLe 2 e.naks ++ natLe 2 (b2n e.flt)

/-- R221, R222: the progress word, visible no earlier than the context's last report. -/
def State.writeProgress (s : State) (c : Nat) (after : List Nat) : State :=
  let e := s.entry c
  let id := s.fabric.nextId
  let s1 := s.writeRecord masterUsq (.record c) e.desc.ppage e.progressBytes (e.lastReport.toList ++ after)
  if s1.fabric.nextId = id then s1 else s1.modEntry c (fun e => { e with lastReport := some id })

/-- R200, R207, R219: a NAK drawn at arrival: a response at once, which waits for no other report, and a progress word, and nothing else. -/
def State.nakArrival (s : State) (c : Nat) (pkt : List Byte) (code : Nat) : State :=
  let s1 := s.modEntry c (fun e => { e with naks := (e.naks + 1) % 65536 })
  (s1.writeRecord masterUsq (.record c) (s1.responseSpa c pkt) (s1.responseBytes pkt respNak code 0 0) []).writeProgress c []

/-- The first operation of a context leaves its queue, and `done` follows (Table 5.5). -/
def State.popOp (s : State) (c : Nat) : State :=
  s.modEntry c (fun e => match e.queue with
    | [] => e
    | op :: rest => { e with queue := rest, done := seqOf op.pkt })

/-- A NAK drawn at issue: the first operation is refused without effect (R204, R207, R221). -/
def State.nakIssue (s : State) (c code : Nat) : State :=
  match (s.entry c).queue with
  | [] => s
  | op :: _ =>
    let s1 := (s.popOp c).modEntry c (fun e => { e with naks := (e.naks + 1) % 65536 })
    (s1.respond c op.pkt respNak code 0 (if op.issued then op.pepoch else s.pepoch) []).writeProgress c []

/-! ### STAT (R987) -/

/-- STAT shows a value, at once or at the end of the microsecond of the value before it. -/
def State.showStat (s : State) (v : Nat) : State :=
  if v = s.boot.stat then { s with boot := { s.boot with statNext := none } }
  else if s.now < s.boot.statSince + 1000 then { s with boot := { s.boot with statNext := some v } }
  else { s with boot := { s.boot with stat := v, statSince := s.now, statNext := none } }

/-! ### VID (§17.3) -/

/-- R926 to R929: a code is driven and strobed, at least 10 µs after the strobe before it. -/
def State.sendVid (s : State) (code : Nat) : State :=
  { s with power := { s.power with
      vid := code, taken := code, strobes := s.power.strobes + 1
      strobeAt := some (match s.power.strobeAt with | some t => max s.now (t + 10000) | none => s.now) } }

/-- R928, R964: the strobe of a thermal shutdown waits for nothing. -/
def State.sendVidNow (s : State) (code : Nat) : State :=
  { s with power := { s.power with vid := code, taken := code, strobes := s.power.strobes + 1, strobeAt := some s.now } }

/-- Table 17.2: the VID code of a CCLK step. -/
def vidOf (mhz : Nat) : Nat :=
  if mhz = 1600 then 0x8C else if mhz = 1400 then 0x78 else if mhz = 1200 then 0x64 else if mhz = 1000 then 0x5A else 0x50

/-! ### Energy (§17.5) -/

/-- The units of one 0.1 nJ (see `Power`). -/
def energyUnit : Nat := 340 * 340

/-- A core-scaled energy of `n` times 0.1 nJ at the voltage in force (R923, R941). -/
def State.coreEnergy (s : State) (n : Nat) : Nat := n * (200 + s.power.vCode) * (200 + s.power.vCode)

/-- R942: an event of Table 17.4 other than an array step, charged at the end of the interval. -/
def State.chargeCore (s : State) (n : Nat) : State :=
  { s with power := { s.power with eint := s.power.eint + s.coreEnergy n } }

/-- R942: an event whose energy is not core-scaled. -/
def State.chargeFixed (s : State) (n : Nat) : State :=
  { s with power := { s.power with eint := s.power.eint + n * energyUnit } }

/-- R951: P_eff in units of 1/20 W. -/
def State.pEff (s : State) : Nat := min (20 * s.capW) s.power.ptherm

end Sys2Proof.Machine
end

