-- ==== Sys2Proof/Machine/Flags.lean ====
section
/-! DEFINITION. Machine/Flags.lean: the flags of a tile's metadata word at commit (R88, R89, Table 3.3), the bytes of the
word (Table 3.2), the live flags of a plane (§3.4), and the flags that a read of a line sees (R90 to R92, R144). -/
namespace Sys2Proof.Machine

/-- Table 3.3: the word after a value write of `rows` to tile `n` whose previous word was `old`. -/
def metaValue (old : Meta) (n : Nat) (rows : Tile) : Meta :=
  { live := true
    zero := rows.all (fun r => r.scale == 0)
    zsrc := false
    poison := rows.any (fun r => r.scale == 0xFF || r.elems.any (· == 0x80))
    ver := (old.ver + 1) % 16
    tile := n }

/-- Table 3.3: the word after a structural write: ZRT, a structural copy, a residency bit 0 (R89). -/
def metaStructural (old : Meta) (n : Nat) : Meta :=
  { live := true, zero := true, zsrc := true, poison := false, ver := (old.ver + 1) % 16, tile := n }

/-- Table 3.3: the word after RLS (R254). -/
def metaRelease (old : Meta) (n : Nat) : Meta :=
  { live := false, zero := true, zsrc := true, poison := false, ver := (old.ver + 1) % 16, tile := n }

/-- Table 3.2, R87: the word verbatim, with its reserved bits 0. -/
def Meta.bytes (m : Meta) : List Byte :=
  [BitVec.ofNat 8 (b2n m.live + 2 * b2n m.zero + 4 * b2n m.zsrc + 8 * b2n m.poison + 16 * (m.ver % 16)),
   BitVec.ofNat 8 m.tile, 0, 0]

/-- The word that 4 bytes spell (R424 installs a restored word as it was spilled). -/
def Meta.ofBytes (bs : List Byte) : Meta :=
  let x := byteAt bs 0
  { live := bitAt x 0, zero := bitAt x 1, zsrc := bitAt x 2, poison := bitAt x 3, ver := bitsAt x 4 4, tile := byteAt bs 1 }

/-- R144: the flags of a lost line whose own word has `zsrc` 0. -/
def Meta.lostFlags (m : Meta) : Meta := { m with zero := false, zsrc := false, poison := true }

/-- The invariants that Tables 3.2 and 3.3 imply (§3.2). -/
def Meta.consistent (m : Meta) : Bool :=
  (!m.zsrc || m.zero) && (!m.zero || !m.poison) && (m.live || (m.zero && m.zsrc && !m.poison))

/-- The sub-blocks that an output block of `mt` by `nt` tiles covers: sub-block 8 a + c for a below `mt`, c below `nt` (R103). -/
def blockSubs (mt nt : Nat) : List Nat := ((List.range mt).map (fun a => (List.range nt).map (fun c => 8 * a + c))).flatten

/-- R102, R103: the live flags with the sub-blocks of a list set. -/
def liveWith (live : Nat) (subs : List Nat) : Nat := subs.foldl (fun m n => maskSet m n true) live

end Sys2Proof.Machine
end

