-- ==== Sys2Proof/Machine/Trf.lean ====
section
/-! DEFINITION. Machine/Trf.lean: tile lines in the slices: placement, reading, writing, allocation and release of lines
(§3.1 to §3.3, §3.6), pegs (§3.5) and the elements and packed streams of planes (§3.4). -/
namespace Sys2Proof.Machine

/-! ### Lines -/

/-- The physical bank that serves a line, and the key of the line's payload (R150). -/
def Slice.bankOf (sl : Slice) (line : Nat) : Nat := sl.serves.getD (line % 32) (line % 32)

/-- A physical bank's repair state changed. -/
def Slice.modBank (sl : Slice) (b : Nat) (f : Bank → Bank) : Slice := { sl with banks := modAt sl.banks b f }

/-- The key of a line's payload in the bank that serves it. -/
def Slice.payKey (sl : Slice) (line : Nat) : Nat := 256 * sl.bankOf line + line / 32

/-- The line's metadata word as stored. -/
def Slice.word (sl : Slice) (line : Nat) : Meta := (assocGet sl.words line).getD {}

/-- The flags that a read of the line sees (R91, R144). -/
def Slice.flags (sl : Slice) (line : Nat) : Meta :=
  let m := sl.word line
  if sl.lost.contains line && !m.zsrc then m.lostFlags else m

/-- The payload of a line as a read delivers it: zeros for a structural zero or a tile that is not LIVE (R90, R91), poison
for a lost line (R144). -/
def Slice.readLine (sl : Slice) (line : Nat) : Tile :=
  let m := sl.word line
  if m.zsrc then Tile.zero
  else if sl.lost.contains line then Tile.poisoned
  else (assocGet sl.payload (sl.payKey line)).getD Tile.zero

/-- R148: a line's payload is written, and mirrored into the target of a handover of its bank. -/
def Slice.writePayload (sl : Slice) (line : Nat) (t : Tile) : Slice :=
  let p1 := assocPut sl.payload (sl.payKey line) t
  let p2 := match sl.handover with
    | some h => if h.bank = line % 32 then assocPut p1 (256 * h.target + line / 32) t else p1
    | none => p1
  { sl with payload := p2, lost := sl.lost.filter (· != line) }

/-- A line's metadata word is written; the loss mark goes with the value that it replaces. -/
def Slice.writeWord (sl : Slice) (line : Nat) (m : Meta) : Slice := { sl with words := assocPut sl.words line m }

/-- The line that serves an owner, if any. -/
def Slice.lineOf (sl : Slice) (o : LineOwner) : Option Nat := (sl.lines.find? (fun p => p.2.owner = o)).map (·.1)

/-- True of a line that exists in the slice and is in no use. -/
def Slice.isFree (sl : Slice) (line : Nat) : Bool := !sl.gone.contains (line % 32) && (assocGet sl.lines line).isNone

/-- R98, R99, R1027: the lowest free line of the port's bank group, else the lowest free line of the slice. -/
def Slice.pick (sl : Slice) (port : Nat) : Option Nat :=
  match (List.range Config.sliceLines).find? (fun l => l % 4 == port && sl.isFree l) with
  | some l => some l
  | none => (List.range Config.sliceLines).find? sl.isFree

/-- R86: `tile` of a line's metadata word: the tile of a window line or of a line staged for one, else 0. -/
def LineOwner.tileField : LineOwner → Nat
  | .window _ n => n
  | .staged _ n => n
  | .restoring _ n => n
  | .streamed _ _ _ => 0
  | .parked _ _ _ _ => 0
  | .unread _ _ _ _ => 0

/-- `tile` of a line's metadata word follows its use. -/
def Slice.setTile (sl : Slice) (line n : Nat) : Slice := { sl with words := assocPut sl.words line { sl.word line with tile := n } }

/-- A free line is put to use. -/
def Slice.use (sl : Slice) (line : Nat) (o : LineOwner) (c : Charge) : Slice :=
  ({ sl with lines := assocPut sl.lines line { owner := o, charge := c } }).setTile line o.tileField

/-- R122, R128: `n` lines are freed into the shared part.  What evacuated banks are still owed comes first and the park reserve second:
DESIGN CHOICE (log entry 67), since R128 names the reserve and is silent on such a debt. -/
def Slice.freeShared (sl : Slice) (n : Nat) : Slice :=
  let owed := min n sl.owed
  let res := min (n - owed) (Config.parkReserve - sl.reserveFree)
  { sl with owed := sl.owed - owed, reserveFree := sl.reserveFree + res, sharedFree := sl.sharedFree + (n - owed - res) }

/-- `n` lines leave the shared part; what it cannot give now it owes. -/
def Slice.takeShared (sl : Slice) (n : Nat) : Slice :=
  { sl with sharedFree := sl.sharedFree - n, owed := sl.owed + (n - sl.sharedFree) }

/-- R111, R122: a charge is given back. -/
def Slice.refund (sl : Slice) (c : Charge) : Slice :=
  match c with
  | .window => sl
  | .floor k => match assocGet sl.floorFree k with
    | some n => { sl with floorFree := assocPut sl.floorFree k (n + 1) }
    | none => sl
  | .shared => sl.freeShared 1
  | .reserve => if sl.reserveFree < Config.parkReserve then { sl with reserveFree := sl.reserveFree + 1 } else sl.freeShared 1

/-- A line in use is released and its charge refunded. -/
def Slice.release (sl : Slice) (line : Nat) : Slice :=
  match assocGet sl.lines line with
  | some u => (({ sl with lines := assocDel sl.lines line }).setTile line 0).refund u.charge
  | none => sl

/-- Every line whose owner satisfies a test is released. -/
def Slice.releaseWhere (sl : Slice) (p : LineOwner → Bool) : Slice :=
  (sl.lines.filter (fun x => p x.2.owner)).foldl (fun sl x => sl.release x.1) sl

/-- R125, R183: a use by slot `k` takes a floor line if its floor has one; none when it must wait for the shared part. -/
def Slice.takeFloor (sl : Slice) (k port : Nat) (o : LineOwner) : Option Slice :=
  match assocGet sl.floorFree k, sl.pick port with
  | some (n + 1), some l => some (({ sl with floorFree := assocPut sl.floorFree k n }).use l o (.floor k))
  | _, _ => none

/-- R184: a use receives a shared line. -/
def Slice.takeSharedLine (sl : Slice) (port : Nat) (o : LineOwner) : Option Slice :=
  if sl.sharedFree = 0 then none else
  (sl.pick port).map (fun l => ({ sl with sharedFree := sl.sharedFree - 1 }).use l o .shared)

/-- R126: a park takes a reserve line. -/
def Slice.takeReserve (sl : Slice) (port : Nat) (o : LineOwner) : Option Slice :=
  if sl.reserveFree = 0 then none else
  (sl.pick port).map (fun l => ({ sl with reserveFree := sl.reserveFree - 1 }).use l o .reserve)

/-- R137: a new sweep origin: the banks start their sweeps from it; one that has rows of the sweep before to do has still to finish that. -/
def State.newSweep (s : State) (t : Nat) : State :=
  { s with
    refresh := { s.refresh with origin := t }
    slices := s.slices.map (fun sl => { sl with banks := sl.banks.map (fun b => { b with refSweep := if b.refRow = 0 then 1 else 0 }) }) }

/-! ### Tiles of a context (§3.3) -/

/-- True of an isolated context. -/
def Entry.isolated (e : Entry) : Bool := e.desc.cls == 2

/-- True of a context of class DL. -/
def Entry.deadlined (e : Entry) : Bool := e.desc.cls == 1

/-- The slice of an isolated context: that of its quarter, or the old one until ISMOVE commits (R96, R393). -/
def Entry.isoSlice (e : Entry) : Nat := (e.moving.orElse (fun _ => e.quarter)).getD 0

/-- R95, R96: the slice of tile `n`. -/
def Entry.sliceOf (e : Entry) (n : Nat) : Nat := if e.isolated then e.isoSlice else (n + e.slot.getD 0) % 4

/-- R98, R99: the preferred port of tile `n`. -/
def Entry.portOf (e : Entry) (n : Nat) : Nat := if e.isolated then n % 4 else n / 4 % 4

/-- Table 3.5: the slice of a streamed line of column position `n`. -/
def Entry.streamSlice (e : Entry) (n : Nat) : Nat := if e.isolated then e.isoSlice else (n + e.slot.getD 0) % 4

/-- R108: the slice of the parked lines of sub-block `n`. -/
def Entry.parkSlice (e : Entry) (n : Nat) : Nat := if e.isolated then e.isoSlice else n % 4

/-- The slice and the line of a tile's window line (R96a). -/
def State.tileLine (s : State) (c n : Nat) : Option (Nat × Nat) :=
  let e := s.entry c
  match e.slot with
  | none => none
  | some k => ((s.slice (e.sliceOf n)).lineOf (.window k n)).map (fun l => (e.sliceOf n, l))

/-- The flags of tile `n` of a context. -/
def State.tileFlags (s : State) (c n : Nat) : Meta :=
  match s.tileLine c n with
  | some (i, l) => (s.slice i).flags l
  | none => {}

/-- The stored metadata word of tile `n` of a context. -/
def State.tileWord (s : State) (c n : Nat) : Meta :=
  match s.tileLine c n with
  | some (i, l) => (s.slice i).word l
  | none => {}

/-- R90 to R92: a read of tile `n` of a context. -/
def State.readTile (s : State) (c n : Nat) : Tile :=
  match s.tileLine c n with
  | some (i, l) => (s.slice i).readLine l
  | none => Tile.zero

/-! ### Pegs (§3.5) -/

/-- The pegs of a quarter that satisfy a test are invalidated. -/
def Quarter.dropPegs (q : Quarter) (p : Peg → Bool) : Quarter :=
  let f := fun (g : Peg) => if p g then { g with valid := false } else g
  { q with pegsA := q.pegsA.map f, pegsB := q.pegsB.map f }

/-- R119: every peg that names tile `n` of slot `k` is invalidated. -/
def State.dropTilePegs (s : State) (k n : Nat) : State :=
  { s with quarters := s.quarters.map (fun q => q.dropPegs (fun g => g.slot == k && g.tile == n)) }

/-- R120: every peg that names slot `k` is invalidated. -/
def State.dropSlotPegs (s : State) (k : Nat) : State :=
  { s with quarters := s.quarters.map (fun q => q.dropPegs (fun g => g.slot == k)) }

/-- R114: a fetch of tile `n` hits a peg. -/
def Peg.hits (g : Peg) (k n ver : Nat) : Bool := g.valid && g.slot == k && g.tile == n && g.ver == ver

/-- Peg `i` of a quarter, A-pegs 0-7 then B-pegs 8-15. -/
def Quarter.peg (q : Quarter) (i : Nat) : Peg := if i < 8 then q.pegsA.getD i {} else q.pegsB.getD (i - 8) {}

/-- Peg `i` written. -/
def Quarter.setPeg (q : Quarter) (i : Nat) (g : Peg) : Quarter :=
  if i < 8 then { q with pegsA := setAt q.pegsA i g } else { q with pegsB := setAt q.pegsB (i - 8) g }

/-! ### Planes (§3.4) -/

/-- A sub-block of zeros. -/
def zeroBlock : List Af := List.replicate 1024 Af.zero

/-- Physical plane `p` of a quarter. -/
def Quarter.plane (q : Quarter) (p : Nat) : PhysPlane := q.planes.getD p {}

/-- Physical plane `p` of quarter `q` changed. -/
def State.modPlane (s : State) (q p : Nat) (f : PhysPlane → PhysPlane) : State :=
  s.modQuarter q (fun u => { u with planes := modAt u.planes p f })

/-- The elements of sub-block `n`. -/
def PhysPlane.block (p : PhysPlane) (n : Nat) : List Af := (assocGet p.blocks n).getD zeroBlock

/-- Element (i, j) lies in sub-block 8 (i / 32) + j / 32 at 32 (i mod 32) + j mod 32. -/
def subOf (i j : Nat) : Nat := 8 * (i / 32) + j / 32

/-- Position of element (i, j) in its sub-block (Table 3.4). -/
def posOf (i j : Nat) : Nat := 32 * (i % 32) + j % 32

/-- Element (i, j) of a plane, +0 where the sub-block's live flag is clear (R51). -/
def PhysPlane.elem (p : PhysPlane) (live i j : Nat) : Af :=
  if bitAt live (subOf i j) then (p.block (subOf i j)).getD (posOf i j) Af.zero else Af.zero

/-- Sub-block `n` written. -/
def PhysPlane.setBlock (p : PhysPlane) (n : Nat) (b : List Af) : PhysPlane := { p with blocks := assocPut p.blocks n b }

/-- R104: the checkpoint copy is taken. -/
def PhysPlane.take (p : PhysPlane) (live : Nat) : PhysPlane := { p with ckpt := p.blocks, ckptLive := live }

/-- R105: the plane is restored from its checkpoint copy. -/
def PhysPlane.restore (p : PhysPlane) : PhysPlane := { p with blocks := p.ckpt }

/-- Architectural plane `pl` of a context. -/
def Entry.plane (e : Entry) (pl : Nat) : ArchPlane := e.planes.getD pl {}

/-- Architectural plane `pl` of a context changed. -/
def Entry.modPlane (e : Entry) (pl : Nat) (f : ArchPlane → ArchPlane) : Entry := { e with planes := modAt e.planes pl f }

/-- Table 3.4: the 6,528-byte packed stream of a sub-block. -/
def packSub (b : List Af) : List Byte :=
  natLe 6528 ((b.zipIdx).foldl (fun acc p => acc + (p.1.word.toNat + (if p.1.poison then 2 ^ 50 else 0)) * 2 ^ (51 * p.2)) 0)

/-- R47, R110: the elements that a packed stream spells, each in its normal form. -/
def unpackSub (bs : List Byte) : List Af :=
  let x := leNat bs
  (List.range 1024).map (fun e =>
    let v := bitsAt x (51 * e) 51
    Af.normal ⟨BitVec.ofNat 50 (v % 2 ^ 50), bitAt v 50⟩)

/-- R107: the seven lines of a parked sub-block, as 1,056-byte NAT blocks. -/
def parkLines (b : List Af) : List Tile :=
  (List.range 7).map (fun q => Tile.ofNat (bytesAt (packSub b) (1056 * q) 1056))

/-- Table 3.10: the elements whose 51 stream bits overlap parked line `q`. -/
def overlapping (q : Nat) : List Nat :=
  (List.range 1024).filter (fun e => decide (51 * e < 8448 * (q + 1)) && decide (8448 * q < 51 * e + 51))

/-- R110, R144: the sub-block that seven parked lines spell; the elements that overlap a lost line become poison. -/
def unparkLines (ls : List Tile) (lost : List Nat) : List Af :=
  let bs := ((ls.map Tile.toNat).flatten).take 6528
  let bad := (lost.map overlapping).flatten
  (unpackSub bs).zipIdx.map (fun p => if bad.contains p.2 then Af.bad else p.1)

end Sys2Proof.Machine
end

