-- ==== Sys2Proof/Machine/Operands.lean ====
section
/-! DEFINITION. Machine/Operands.lean: the operand forms of operation packets: the tensor view (§5.7), plane geometry (§6.2), the
fields of every operation, their content checks (Tables 5.2, 5.8, 6.11), and the bytes that a view touches. -/
namespace Sys2Proof.Machine

/-! ### Opcodes (Table 5.13) -/

/-- R197: an opcode that Table 5.13 holds. -/
def opcKnown (o : Nat) : Bool :=
  [0x00, 0x01, 0x02, 0x03, 0x05, 0x06, 0x07, 0x10, 0x11, 0x12, 0x13, 0x14, 0x20, 0x21, 0x22, 0x23, 0x24, 0x25, 0x30, 0x31, 0x32,
   0x33, 0x34, 0x35, 0x36, 0x37, 0x38, 0x39, 0x3A, 0x40, 0x41].contains o

/-- True of a vector operation, SMX or NRM. -/
def opcVector (o : Nat) : Bool := (decide (0x30 ≤ o) && decide (o ≤ 0x3A)) || o == 0x40 || o == 0x41

/-- Tracks of a quarter (§7.1). -/
def trackMatrix : Nat := 0
def trackVector : Nat := 1
def trackData : Nat := 2
def trackControl : Nat := 3

/-- Table 7.3: the tracks of an operation. -/
def opcTracks (o : Nat) : List Nat :=
  if o = 0x03 ∨ o = 0x10 ∨ o = 0x11 ∨ o = 0x12 then [trackData]
  else if o = 0x21 ∨ o = 0x25 then [trackMatrix]
  else if o = 0x22 then [trackMatrix, trackData]
  else if o = 0x23 ∨ opcVector o then [trackVector]
  else [trackControl]

/-- True when bytes `off .. off+len-1` of a packet are 0. -/
def zeroAt (p : List Byte) (off len : Nat) : Bool := (bytesAt p off len).all (· == 0)

/-! ### The tensor view -/

/-- A tensor view: Table 5.7, and Table 6.3 for MMS, with the block's size in tiles. -/
structure View where
  va : Nat
  rmap : Nat
  rows : Nat
  cols : Nat
  pitch : Nat
  r0 : Nat
  c0 : Nat
  bm : Nat
  bn : Nat
  /-- 0 NAT, 1 F16, 2 F32, 3 I8. -/
  fmt : Nat
  trn : Bool
  rgp : Bool
  rmen : Bool
  /-- The byte of the I8 exponent. -/
  xexp : Nat
  deriving DecidableEq, Repr, Inhabited

/-- Offsets 8-47 of a view, and the byte of its options. -/
def viewOf (p : List Byte) (bm bn opt xexp : Nat) : View :=
  { va := natAt p 8 6, rmap := natAt p 16 6, rows := natAt p 24 4, cols := natAt p 28 4, pitch := natAt p 32 6, r0 := natAt p 40 4
    c0 := natAt p 44 4, bm := bm, bn := bn, fmt := bitsAt opt 0 2, trn := bitAt opt 2, rgp := bitAt opt 3, rmen := bitAt opt 4
    xexp := xexp }

/-- The view of an LDT or an STT. -/
def moveView (p : List Byte) : View :=
  viewOf p (bitsAt (byteAt p 49) 0 4 + 1) (bitsAt (byteAt p 49) 4 4 + 1) (byteAt p 50) (byteAt p 51)

/-- The view of an MMS: NT tile rows and KT tile columns (R282). -/
def mmsView (p : List Byte) : View :=
  viewOf p (bitsAt (byteAt p 54) 3 3 + 1) (natAt p 56 2 + 1) (byteAt p 51) (byteAt p 52)

/-- Bytes of an element: F16 2, F32 4, I8 1. -/
def View.elem (v : View) : Nat := if v.fmt = 1 then 2 else if v.fmt = 2 then 4 else 1

/-- The I8 exponent. -/
def View.x (v : View) : Int := signedOf 8 v.xexp

/-- Table 5.8, orders 1 and 2. -/
def View.reserved (v : View) : Bool :=
  (v.fmt != 3 && v.xexp != 0) || v.xexp == 0x80 || v.xexp == 0x81 || (v.rgp && (v.fmt != 0 || !v.trn))

/-- Blocks in a row of the tensor. -/
def View.blockCols (v : View) : Nat := (v.cols + 31) / 32

/-- One past the highest byte address that the tensor reaches. -/
def View.extentEnd (v : View) : Nat :=
  if v.fmt = 0 then v.va + ((v.rows + 31) / 32 - 1) * v.pitch + (v.blockCols - 1) * 1056 + 1056
  else v.va + (v.rows - 1) * v.pitch + (v.cols - 1) * v.elem + v.elem

/-- The bytes of one row, or of one row of blocks. -/
def View.rowBytes (v : View) : Nat := if v.fmt = 0 then v.blockCols * 1056 else v.cols * v.elem

/-- Table 5.8, orders 3 to 8; order 7 for a store only. -/
def View.check (v : View) (store : Bool) : Option Nat :=
  let lim := 2 ^ 24
  let al := if v.fmt = 0 then 32 else if v.fmt = 3 then 1 else v.elem
  if v.rows = 0 ∨ lim < v.rows ∨ v.cols = 0 ∨ lim < v.cols ∨ v.rows ≤ v.r0 ∨ v.cols ≤ v.c0 then some Code.viewBad
  else if v.fmt = 0 ∧ (v.rows % 32 ≠ 0 ∨ v.cols % 32 ≠ 0 ∨ v.r0 % 32 ≠ 0 ∨ v.c0 % 32 ≠ 0) then some Code.viewBad
  else if v.va % al ≠ 0 ∨ v.pitch % al ≠ 0 then some Code.viewAlign
  else if 2 ^ 48 < v.extentEnd then some Code.viewBad
  else if store ∧ v.pitch < v.rowBytes then some Code.viewBad
  else if v.fmt = 0 ∧ v.trn ∧ !v.rgp then some Code.regroupRequired
  else none

/-- R232, R233: the tensor position of element (r, k) of block tile (i, j). -/
def View.pos (v : View) (i j r k : Nat) : Nat × Nat :=
  if v.trn then (v.r0 + 32 * j + k, v.c0 + 32 * i + r) else (v.r0 + 32 * i + r, v.c0 + 32 * j + k)

/-- A position lies in the tensor. -/
def View.inside (v : View) (y z : Nat) : Bool := decide (y < v.rows) && decide (z < v.cols)

/-- The first tensor row and column of block tile (i, j). -/
def View.corner (v : View) (i j : Nat) : Nat × Nat := v.pos i j 0 0

/-- R234, R235: the address of a tensor position; for NAT that of its element byte. -/
def View.addr (v : View) (y z : Nat) : Nat :=
  if v.fmt = 0 then v.va + y / 32 * v.pitch + z / 32 * 1056 + y % 32 * 32 + z % 32 else v.va + y * v.pitch + z * v.elem

/-- The index of block (I, J) in the residency map (§5.8). -/
def View.mapIndex (v : View) (bi bj : Nat) : Nat := bi * v.blockCols + bj

/-- The indices from `lo` up to the lesser of `lo + 31` and `n - 1`, divided by 32. -/
def blocksAcross (lo n : Nat) : List Nat :=
  if n ≤ lo then [] else
  let a := lo / 32
  let b := min (lo + 31) (n - 1) / 32
  if a = b then [a] else [a, b]

/-- The blocks that hold an in-tensor element of block tile (i, j). -/
def View.tileBlocks (v : View) (i j : Nat) : List (Nat × Nat) :=
  let c := v.corner i j
  ((blocksAcross c.1 v.rows).map (fun a => (blocksAcross c.2 v.cols).map (fun b => (a, b)))).flatten

/-- The map bytes, by address, that a list of block tiles needs (R238). -/
def View.mapBytes (v : View) (tiles : List (Nat × Nat)) : List Nat :=
  (((tiles.map (fun t => v.tileBlocks t.1 t.2)).flatten).map (fun b => v.rmap + v.mapIndex b.1 b.2 / 8)).foldl addOnce []

/-- The bytes that block tile (i, j) occupies in memory, as (address, length), for the blocks that a test names, each row of the
tensor by itself. -/
def View.tileBytes (v : View) (resident : Nat → Nat → Bool) (i j : Nat) : List (Nat × Nat) :=
  let c := v.corner i j
  let blocks := (v.tileBlocks i j).filter (fun b => resident b.1 b.2)
  if v.fmt = 0 then blocks.map (fun b => (v.va + b.1 * v.pitch + b.2 * 1056, 1056))
  else
    ((List.range (min 32 (v.rows - c.1))).map (fun d =>
      let y := c.1 + d
      (blocks.filter (fun b => b.1 == y / 32)).map (fun b =>
        let lo := max c.2 (32 * b.2)
        let hi := min (min (c.2 + 32) v.cols) (32 * b.2 + 32)
        (v.addr y lo, (hi - lo) * v.elem)))).flatten

/-- R240: every in-tensor element of the tile lies in blocks whose bits are 0, and it has one. -/
def View.structural (v : View) (resident : Nat → Nat → Bool) (i j : Nat) : Bool :=
  !(v.tileBlocks i j).isEmpty && (v.tileBlocks i j).all (fun b => !resident b.1 b.2)

/-! ### Forming tiles from memory (R70 to R75, R237 to R242) -/

/-- Bytes that a read has returned for virtual addresses: first address, SPA, data and poisoned chunks. -/
structure Piece where
  va : Nat
  spa : Nat
  data : List Byte
  bad : List Nat
  deriving DecidableEq, Repr, Inhabited

/-- `n` bytes at an address, and whether a chunk that they lie in is poisoned. -/
def piecesAt (ps : List Piece) (a n : Nat) : List Byte × Bool :=
  match ps.find? (fun p => decide (p.va ≤ a) && decide (a < p.va + p.data.length)) with
  | some p => (bytesAt p.data (a - p.va) n, p.bad.contains ((p.spa + (a - p.va)) / 64 * 64))
  | none => (List.replicate n 0, false)

/-- The value of one loaded F16 or F32 element (R71). -/
def loadedVal (fmt : Nat) (bs : List Byte) (bad : Bool) : Val :=
  if bad then .poison else if fmt = 1 then ieeeVal 5 10 (leNat bs) else ieeeVal 8 23 (leNat bs)

/-- R74, R242: a NAT block as it was read, its rows canonical. DESIGN CHOICE (log entry 78): an element byte in a
poisoned chunk of a row whose own scale byte is good and 0. R242 makes the element poison, R37 and R39 make a row of
scale 0 a zero row whatever its bytes are; the model keeps the zero row. -/
def natTile (ps : List Piece) (base : Nat) : Tile :=
  (List.range 32).map (fun r =>
    let sc := piecesAt ps (base + 1024 + r) 1
    if sc.2 then Row.poisoned else
    (⟨sc.1.getD 0 0, (List.range 32).map (fun k =>
      let e := piecesAt ps (base + 32 * r + k) 1
      if e.2 then 0x80 else e.1.getD 0 0)⟩ : Row).canonical)

/-- R70 to R75, R237, R239, R281: block tile (i, j) formed from the bytes that were read. -/
def View.formTile (v : View) (resident : Nat → Nat → Bool) (ps : List Piece) (i j : Nat) : Tile :=
  if v.fmt = 0 then
    let c := v.corner i j
    if v.inside c.1 c.2 && resident (c.1 / 32) (c.2 / 32) then
      let t := natTile ps (v.va + c.1 / 32 * v.pitch + c.2 / 32 * 1056)
      if v.trn then t.regroup else t
    else Tile.zero
  else
    let at_ := fun (r k : Nat) =>
      let p := v.pos i j r k
      if v.inside p.1 p.2 && resident (p.1 / 32) (p.2 / 32) then some (piecesAt ps (v.addr p.1 p.2) v.elem) else none
    (List.range 32).map (fun r =>
      if v.fmt = 3 then
        rowOfI8 v.x ((List.range 32).map (fun k => match at_ r k with
          | some x => if x.2 then 0x80 else x.1.getD 0 0
          | none => 0))
      else
        quantRow QMode.load 0 ((List.range 32).map (fun k => match at_ r k with
          | some x => loadedVal v.fmt x.1 x.2
          | none => .real Dy.zero)))

/-! ### Storing tiles (R244 to R248) -/

/-- The bytes that one element stores (R76 to R80). -/
def View.storeElem (v : View) (x : Val) : List Byte :=
  if v.fmt = 1 then storeF16 x else if v.fmt = 2 then storeF32 x else [storeI8 v.x x]

/-- R244, R246: the writes of block tile (i, j) holding `t`: address and bytes, ascending. -/
def View.tileWrites (v : View) (t : Tile) (i j : Nat) : List (Nat × List Byte) :=
  let c := v.corner i j
  if v.fmt = 0 then
    if v.inside c.1 c.2 then [(v.va + c.1 / 32 * v.pitch + c.2 / 32 * 1056, (if v.trn then t.regroup else t).toNat)] else []
  else
    let vals := t.map Row.vals
    let el := fun (r k : Nat) => (vals.getD r []).getD k (.real Dy.zero)
    (List.range (min 32 (v.rows - c.1))).map (fun d =>
      (v.addr (c.1 + d) c.2,
       ((List.range (min 32 (v.cols - c.2))).map (fun w => v.storeElem (if v.trn then el w d else el d w))).flatten))
    |>.filter (fun w => !w.2.isEmpty)

/-- The address ranges that an STT writes for a list of block tiles. -/
def View.storeRanges (v : View) (i j : Nat) : List (Nat × Nat) := v.tileBytes (fun _ _ => true) i j

/-! ### Plane geometry (Table 6.1) -/

/-- Table 6.1: an output block of a plane. -/
structure Geom where
  mt : Nat
  nt : Nat
  pl : Nat
  prow : Nat
  pcol : Nat
  deriving DecidableEq, Repr, Inhabited

/-- The geometry that two bytes spell. -/
def geomAt (p : List Byte) (off : Nat) : Geom :=
  let a := byteAt p off
  let b := byteAt p (off + 1)
  { mt := bitsAt a 0 3 + 1, nt := bitsAt a 3 3 + 1, pl := bitsAt a 6 1, prow := bitsAt b 0 3, pcol := bitsAt b 3 3 }

/-- R271. -/
def Geom.bad (g : Geom) : Bool := decide (8 < g.prow + g.mt) || decide (8 < g.pcol + g.nt)

/-- The sub-block of block position (m′, n′). -/
def Geom.sub (g : Geom) (m n : Nat) : Nat := 8 * (g.prow + m) + g.pcol + n

/-- The sub-blocks of the block, in ascending (m′, n′). -/
def Geom.subs (g : Geom) : List Nat :=
  ((List.range g.mt).map (fun m => (List.range g.nt).map (fun n => g.sub m n))).flatten

/-- The geometry of an operation that has one. -/
def geomOf (p : List Byte) : Geom := if opcOf p = 0x21 ∨ opcOf p = 0x22 then geomAt p 54 else geomAt p 49

/-! ### MMA and MMS -/

/-- KT. -/
def ktOf (p : List Byte) : Nat := natAt p 56 2 + 1

/-- R273: the A tile of row position m′ and ordinal q. -/
def aTile (p : List Byte) (m q : Nat) : Nat := byteAt p 48 + m * byteAt p 49 + q * byteAt p 50

/-- R273: the B tile of column position n′ and ordinal q of MMA. -/
def bTile (p : List Byte) (n q : Nat) : Nat := byteAt p 51 + n * byteAt p 52 + q * byteAt p 53

/-! ### Vector operations (Table 6.6) -/

/-- BM of a vector operation. -/
def vecBm (p : List Byte) : Nat := bitsAt (byteAt p 51) 0 4 + 1
/-- BN of a vector operation. -/
def vecBn (p : List Byte) : Nat := bitsAt (byteAt p 51) 4 4 + 1
/-- `bsrc`. -/
def vecBsrc (p : List Byte) : Nat := bitsAt (byteAt p 52) 0 2
/-- `fn`. -/
def vecFn (p : List Byte) : Bool := bitAt (byteAt p 52) 2
/-- `cst`. -/
def vecCst (p : List Byte) : Af := ⟨BitVec.ofNat 50 (natAt p 12 8), false⟩
/-- `cst2`. -/
def vecCst2 (p : List Byte) : Af := ⟨BitVec.ofNat 50 (natAt p 20 8), false⟩
/-- NC (§6.10). -/
def vecNc (p : List Byte) : Nat := if natAt p 56 2 = 0 then 32 * vecBn p else natAt p 56 2

/-- The quantisation that an operation's fields ask for: `seed` at byte 8, the modes at byte `off`, `sf` after it. -/
def qmodeAt (p : List Byte) (off : Nat) : QMode :=
  let b := byteAt p off
  { relu := bitAt b 2, fixs := if bitAt b 0 then some (byteAt p (off + 1)) else none
    seed := if bitAt b 1 then some (natAt p 8 4) else none }

/-- R60, R293: the quantisation fields hold a reserved value or combination. -/
def quantReserved (p : List Byte) (off : Nat) : Bool :=
  let b := byteAt p off
  b / 8 != 0 || (!bitAt b 1 && natAt p 8 4 != 0) || (!bitAt b 0 && byteAt p (off + 1) != 0) ||
  (bitAt b 0 && (byteAt p (off + 1) == 0 || byteAt p (off + 1) == 255))

/-- R296: a constant that is a reserved value. -/
def cstReserved (x : Nat) : Bool :=
  bitsAt x 39 10 == 1023 || (bitsAt x 39 10 == 0 && (bitAt x 49 || bitsAt x 0 39 != 0)) || x / 2 ^ 50 != 0

/-- Table 6.7: the `bsrc` values that an operation takes. -/
def bsrcAllowed (o : Nat) : List Nat :=
  if o = 0x30 ∨ o = 0x32 ∨ o = 0x33 then [0, 1, 2, 3] else if o = 0x31 then [0, 2, 3] else [0]

/-- Table 6.7: the operation uses `xb`. -/
def usesXb (o bsrc : Nat) : Bool := (o == 0x30 || o == 0x32 || o == 0x33 || o == 0x31) && bsrc != 1

/-- Table 6.7: the operation uses `cst`. -/
def usesCst (o bsrc : Nat) : Bool :=
  ((o == 0x30 || o == 0x32 || o == 0x33) && bsrc == 1) || o == 0x34 || o == 0x35 || o == 0x40 || o == 0x41

/-- R295, R296, Table 6.7: a reserved field or value of a vector operation. -/
def vecReserved (p : List Byte) : Bool :=
  let o := opcOf p
  let b := vecBsrc p
  let quant := if o = 0x39 then !(zeroAt p 8 4 && byteAt p 53 == 0 && byteAt p 54 == 0) else quantReserved p 53
  let nc := natAt p 56 2
  let hasNc := o == 0x38 || o == 0x40 || o == 0x41
  quant || !(bsrcAllowed o).contains b || (!usesXb o b && byteAt p 49 != 0) ||
  (if usesCst o b then cstReserved (natAt p 12 8) else natAt p 12 8 != 0) ||
  (if o = 0x41 then cstReserved (natAt p 20 8) else natAt p 20 8 != 0) ||
  (!(o == 0x38 || o == 0x41) && vecFn p) || byteAt p 52 / 8 != 0 || byteAt p 55 != 0 ||
  (if hasNc then decide (32 * vecBn p < nc) else nc != 0) || !zeroAt p 28 20 || !zeroAt p 58 6

/-- The first tile and length of the source, second operand (length 0 for none) and destination ranges of a vector operation. -/
def vecRanges (p : List Byte) : List (Nat × Nat) :=
  let n := vecBm p * vecBn p
  let o := opcOf p
  let xb := if usesXb o (vecBsrc p) then
      (byteAt p 49, if vecBsrc p = 0 then n else if vecBsrc p = 2 then vecBn p else vecBm p) else (0, 0)
  [(byteAt p 48, n), xb, (byteAt p 50, if o = 0x38 then vecBm p else n)]

/-! ### Content checks (Table 5.2, orders 5 to 9) -/

/-- Two tile ranges share a tile. -/
def rangesMeet (a b : Nat × Nat) : Bool := decide (0 < a.2) && decide (0 < b.2) && decide (a.1 < b.1 + b.2) && decide (b.1 < a.1 + a.2)

/-- Order 6: a reserved field is non-zero, or a field holds a reserved value or combination. -/
def packetReserved (p : List Byte) : Bool :=
  let o := opcOf p
  byteAt p 1 / 4 != 0 ||
  (if o = 0x00 ∨ o = 0x02 ∨ o = 0x03 ∨ o = 0x05 ∨ o = 0x06 then !zeroAt p 8 56
   else if o = 0x07 then !zeroAt p 14 2 || !zeroAt p 24 40
   else if o = 0x10 then !zeroAt p 14 2 || !zeroAt p 22 2 || !zeroAt p 38 2 || byteAt p 50 / 32 != 0 || !zeroAt p 52 12 ||
     (moveView p).reserved
   else if o = 0x11 then !zeroAt p 14 2 || !zeroAt p 16 8 || !zeroAt p 38 2 || byteAt p 50 / 16 != 0 || !zeroAt p 52 12 ||
     (moveView p).reserved
   else if o = 0x12 then !zeroAt p 8 40 || !zeroAt p 51 13
   else if o = 0x13 ∨ o = 0x14 then !zeroAt p 8 40 || byteAt p 49 != 0 || !zeroAt p 51 13
   else if o = 0x20 ∨ o = 0x24 then !zeroAt p 8 40 || byteAt p 48 / 2 != 0 || !zeroAt p 49 15
   else if o = 0x21 then !zeroAt p 8 40 || bitAt (byteAt p 54) 7 || byteAt p 55 / 64 != 0 || !zeroAt p 58 6
   else if o = 0x22 then !zeroAt p 14 2 || !zeroAt p 22 2 || !zeroAt p 38 2 || byteAt p 51 / 32 != 0 || byteAt p 53 != 0 ||
     bitAt (byteAt p 54) 7 || byteAt p 55 / 64 != 0 || !zeroAt p 58 6 || (mmsView p).reserved
   else if o = 0x25 then !zeroAt p 8 40 || bitAt (byteAt p 49) 7 || byteAt p 50 / 64 != 0 || !zeroAt p 51 13
   else if o = 0x23 then !zeroAt p 12 36 || bitAt (byteAt p 49) 7 || byteAt p 50 / 64 != 0 || quantReserved p 51 || !zeroAt p 53 11
   else vecReserved p)

/-- The tile ranges that an operation names: first tile and length. -/
def opRanges (p : List Byte) : List (Nat × Nat) :=
  let o := opcOf p
  let g := geomOf p
  if o = 0x10 ∨ o = 0x11 then [(byteAt p 48, (moveView p).bm * (moveView p).bn)]
  else if o = 0x12 then [(byteAt p 48, byteAt p 50 + 1), (byteAt p 49, byteAt p 50 + 1)]
  else if o = 0x13 ∨ o = 0x14 then [(byteAt p 48, byteAt p 50 + 1)]
  else if o = 0x21 then [(0, aTile p (g.mt - 1) (ktOf p - 1) + 1), (0, bTile p (g.nt - 1) (ktOf p - 1) + 1)]
  else if o = 0x22 then [(0, aTile p (g.mt - 1) (ktOf p - 1) + 1)]
  else if o = 0x23 ∨ o = 0x25 then [(byteAt p 48, g.mt * g.nt)]
  else if opcVector o then vecRanges p
  else []

/-- Order 8, R93, R205: a range reaches tile `t` or beyond. -/
def tileRangeBad (t : Nat) (p : List Byte) : Bool := (opRanges p).any (fun r => decide (0 < r.2) && decide (t < r.1 + r.2))

/-- R299: a source range shares a tile with the destination range and is not identical to it. -/
def vecOverlap (p : List Byte) : Bool :=
  match vecRanges p with
  | [a, b, d] => (rangesMeet a d && a != d) || (rangesMeet b d && b != d)
  | _ => false

/-- Order 9: an operation's own checks, given whether the plane it names is OPEN (R229, Tables 5.8 and 6.11, R250). -/
def ownCheck (p : List Byte) (planeOpen : Nat → Bool) : Option Nat :=
  let o := opcOf p
  if o = 0x07 then (if natAt p 8 6 % 8 ≠ 0 then some Code.viewAlign else none)
  else if o = 0x10 then (moveView p).check false
  else if o = 0x11 then (moveView p).check true
  else if o = 0x12 then
    (if rangesMeet (byteAt p 48, byteAt p 50 + 1) (byteAt p 49, byteAt p 50 + 1) then some Code.tileOverlap else none)
  else if o = 0x21 ∨ o = 0x22 ∨ o = 0x23 ∨ o = 0x25 then
    if (geomOf p).bad then some Code.geomBad
    else match (if o = 0x22 then (mmsView p).check false else none) with
    | some c => some c
    | none => if planeOpen (geomOf p).pl then none else some Code.planeClosed
  else if opcVector o then (if vecOverlap p then some Code.tileOverlap else none)
  else none

/-- The ordinals of an operation: tiles, steps, tile rows, or 1 (R255, R256, R306 to R308). -/
def opOrdinals (p : List Byte) : Nat :=
  let o := opcOf p
  if o = 0x10 ∨ o = 0x11 then (moveView p).bm * (moveView p).bn
  else if o = 0x12 then byteAt p 50 + 1
  else if o = 0x21 ∨ o = 0x22 then ktOf p
  else if o = 0x23 ∨ o = 0x25 then (geomOf p).mt * (geomOf p).nt
  else if o = 0x38 ∨ o = 0x40 ∨ o = 0x41 then vecBm p
  else if opcVector o then vecBm p * vecBn p
  else 1

/-- R255, R306 to R308: the ordinals of the next segment of an operation at ordinal `ord`. -/
def segmentLen (p : List Byte) (segSteps ord : Nat) : Nat :=
  let o := opcOf p
  if o = 0x38 ∨ o = 0x40 ∨ o = 0x41 then 1 else min segSteps (opOrdinals p - ord)

end Sys2Proof.Machine
end

