-- ==== Sys2Proof/Machine/Image.lean ====
section
/-! DEFINITION. Machine/Image.lean: the spill image (§8.7, §8.8): its records and their places, the key, the nonces, and the bytes of
tile records, sub-block records and the header. -/
namespace Sys2Proof.Machine

/-! ### Records and their places -/

/-- A record of an image (R409). -/
inductive Rec where
  | tile (n : Nat)
  | sub (pl n : Nat)
  deriving DecidableEq, Repr, Inhabited

/-- R416: the units of a record. -/
def Rec.units : Rec → Nat
  | .tile _ => 1
  | .sub _ _ => 7

/-- The bytes of a record (R411, R412). -/
def Rec.len : Rec → Nat
  | .tile _ => 1104
  | .sub _ _ => 6560

/-- The records of an image, from its maps, in the order of R409. -/
def recsOf (tmap smap0 smap1 : Nat) : List Rec :=
  (maskBits 256 tmap).map Rec.tile ++ (maskBits 64 smap0).map (Rec.sub 0) ++ (maskBits 64 smap1).map (Rec.sub 1)

/-- R409: the offset of record `k` of an image with `nt` tile records. -/
def recOffset (nt k : Nat) : Nat := if k < nt then 128 + 1104 * k else 128 + 1104 * nt + 6560 * (k - nt)

/-- Tile records among a list of records. -/
def tileCount (rs : List Rec) : Nat := (rs.filter (fun r => match r with | .tile _ => true | .sub _ _ => false)).length

/-- R416: the records of a segment: those that fit in `units`, in order. -/
def takeUnits : Nat → List Rec → List Rec
  | _, [] => []
  | units, r :: rest => if r.units ≤ units then r :: takeUnits (units - r.units) rest else []

/-! ### What a context spills -/

/-- R415: the tiles of a context with `live` 1. -/
def State.liveTiles (s : State) (c : Nat) : List Nat := (List.range s.profile.tilesPerCtx).filter (fun n => (s.tileFlags c n).live)

/-- The sub-blocks of a plane that a spill writes. -/
def Entry.spillMap (e : Entry) (pl : Nat) : Nat := if (e.plane pl).isOpen then (e.plane pl).live else 0

/-- R415: the records of a spill of context `c`. -/
def State.spillRecs (s : State) (c : Nat) : List Rec :=
  recsOf (bitsMask 256 (s.liveTiles c)) ((s.entry c).spillMap 0) ((s.entry c).spillMap 1)

/-- The slice and line of line `q` of a parked sub-block, wherever it lies. -/
def State.parkedLine (s : State) (c pl n q : Nat) : Option (Nat × Nat) :=
  (List.range 4).findSome? (fun i => ((s.slice i).lineOf (.parked c pl n q)).map (fun l => (i, l)))

/-- R110, R144: the elements of a parked sub-block. -/
def State.parkedBlock (s : State) (c pl n : Nat) : List Af :=
  let at_ := (List.range 7).map (s.parkedLine c pl n)
  let tile := fun (x : Option (Nat × Nat)) => match x with
    | some (i, l) => (assocGet (s.slice i).payload ((s.slice i).payKey l)).getD Tile.zero
    | none => Tile.zero
  let lost := (at_.zipIdx.filter (fun x => match x.1 with | some (i, l) => (s.slice i).lost.contains l | none => false)).map (·.2)
  unparkLines (at_.map tile) lost

/-! ### Key and nonce -/

/-- Table 8.7: M(i). -/
def kdfInput (i shdl epoch : Nat) : List Byte :=
  natLe 4 i ++ [0x53, 0x54, 0x41, 0x56, 0x41, 0x43, 0x2D, 0x53, 0x50, 0x49, 0x4C, 0x4C, 0x00] ++ natLe 2 shdl ++ natLe 4 epoch ++ natLe 4 256

/-- R403, R404: the record key. -/
def recordKey (sl : Seal) (shdl epoch : Nat) : List Byte :=
  let seed := natBe 32 sl.toNat
  Crypto.cmac seed (kdfInput 1 shdl epoch) ++ Crypto.cmac seed (kdfInput 2 shdl epoch)

/-- Table 8.8: the nonce of a record. -/
def recordNonce (salt : Salt) (ord kind dev : Nat) : List Byte :=
  natLe 6 salt.toNat ++ natLe 2 ord ++ [BitVec.ofNat 8 kind, BitVec.ofNat 8 dev, 0, 0]

/-- What seals the records of one image: key, salt and writing device. -/
structure Sealer where
  key : List Byte
  salt : Salt
  dev : Nat

/-- R403, R404, R417, R419: what seals the spill in progress of context `c`. -/
def State.sealer (s : State) (c : Nat) : Sealer :=
  let e := s.entry c
  { key := recordKey (s.sealKey.getD 0) e.desc.shdl (e.desc.sepoch + 1), salt := e.salt.getD 0, dev := s.devId }

/-! ### Record bytes -/

/-- Tables 8.10 and 8.11: the 16 bytes before the ciphertext, the additional data of a record. -/
def recordHead (r : Rec) (ord : Nat) : List Byte :=
  (match r with
   | .tile n => [1, BitVec.ofNat 8 n]
   | .sub pl n => [2, BitVec.ofNat 8 (n + 64 * pl)]) ++ natLe 2 0 ++ natLe 2 ord ++ natLe 10 0

/-- The record kind of a nonce. -/
def Rec.kind : Rec → Nat
  | .tile _ => 1
  | .sub _ _ => 2

/-- R411, R412: the plaintext of a record.  The metadata word of a lost tile carries the flags as a read yields them (R144), not the stored
ones: DESIGN CHOICE (log entry 63). -/
def State.plaintext (s : State) (c : Nat) : Rec → List Byte
  | .tile n => (s.readTile c n).toNat ++ (s.tileFlags c n).bytes ++ natLe 12 0
  | .sub pl n => packSub (s.parkedBlock c pl n)

/-- R408, R411, R412: a record sealed. -/
def Sealer.record (k : Sealer) (r : Rec) (ord : Nat) (plain : List Byte) : List Byte :=
  let head := recordHead r ord
  let x := Crypto.gcmSeal k.key (recordNonce k.salt ord r.kind k.dev) head plain
  head ++ x.1 ++ x.2

/-- Table 8.9: bytes 0 to 111 of a header. -/
def State.headerBody (s : State) (c : Nat) : List Byte :=
  let e := s.entry c
  let tmap := bitsMask 256 (s.liveTiles c)
  natLe 4 0x53564931 ++ [1, BitVec.ofNat 8 (e.desc.cls + 4 * b2n (e.plane 0).isOpen + 8 * b2n (e.plane 1).isOpen)] ++ natLe 2 s.devId ++
  natLe 2 e.desc.shdl ++ natLe 2 (popcount 256 tmap) ++ natLe 4 (e.desc.sepoch + 1) ++ natLe 6 (e.salt.getD 0).toNat ++
  natLe 2 (popcount 64 (e.spillMap 0) + popcount 64 (e.spillMap 1)) ++ natLe 8 0 ++ natLe 32 tmap ++ natLe 8 (e.spillMap 0) ++
  natLe 8 (e.spillMap 1) ++ natLe 32 0

/-- R410: the header sealed. -/
def Sealer.header (k : Sealer) (body : List Byte) : List Byte :=
  body ++ (Crypto.gcmSeal k.key (recordNonce k.salt 0xFFFF 3 k.dev) body []).2

/-! ### Reading an image back -/

/-- The records that a header names. -/
def headerRecs (h : List Byte) : List Rec := recsOf (natAt h 32 32) (natAt h 64 8) (natAt h 72 8)

/-- What opens the records of an image, by its header. -/
def headerSealer (key h : List Byte) : Sealer := { key := key, salt := BitVec.ofNat 48 (natAt h 16 6), dev := byteAt h 6 % 128 }

/-- Table 8.13: the header verifies and agrees with what is expected. -/
def headerGood (key h : List Byte) (shdl epoch : Nat) : Bool :=
  let k := headerSealer key h
  (Crypto.gcmOpen key (recordNonce k.salt 0xFFFF 3 k.dev) (bytesAt h 0 112) [] (bytesAt h 112 16)).isSome &&
  natAt h 0 4 == 0x53564931 && byteAt h 4 == 1 && natAt h 8 2 == shdl && natAt h 12 4 == epoch &&
  natAt h 10 2 == popcount 256 (natAt h 32 32) && natAt h 22 2 == popcount 64 (natAt h 64 8) + popcount 64 (natAt h 72 8) &&
  (bitAt (byteAt h 5) 2 || natAt h 64 8 == 0) && (bitAt (byteAt h 5) 3 || natAt h 72 8 == 0)

/-- Table 8.13: the head of a record is that of its position: `rkind`, `tile`, or `sub` and `pl`, and `ord`.  Its reserved bits are covered by
the tag, and no check reads them (R14). -/
def headMatches (r : Rec) (ord : Nat) (bs : List Byte) : Bool :=
  natAt bs 4 2 == ord && (match r with
    | .tile n => byteAt bs 0 == 1 && byteAt bs 1 == n
    | .sub pl n => byteAt bs 0 == 2 && bitsAt (byteAt bs 1) 0 7 == n + 64 * pl)

/-- Table 8.13: the plaintext of record `ord` of an image, where its tag verifies and its head is that of its position. -/
def Sealer.open_ (k : Sealer) (r : Rec) (ord : Nat) (bs : List Byte) : Option (List Byte) :=
  if headMatches r ord bs then
    Crypto.gcmOpen k.key (recordNonce k.salt ord r.kind k.dev) (bytesAt bs 0 16) (bytesAt bs 16 (r.len - 32)) (bytesAt bs (r.len - 16) 16)
  else none

end Sys2Proof.Machine
end

