-- ==== Sys2Proof/Machine/Context.lean ====
section
/-! DEFINITION. Machine/Context.lean: what several families do to a context: its routine and its staged work, freeing of its
slot, suspension events, preemption and abort (§7.4), and the context fault (R343, R223, §5.12). -/
namespace Sys2Proof.Machine

/-! ### Ports and lanes (§4.1, §4.2) -/

/-- Table 4.2: the row of a request kind. -/
def kindOpa : Nat := 0
def kindOpb : Nat := 1
def kindDrw : Nat := 2
def kindVec : Nat := 3
def kindLdw : Nat := 4
def kindStr : Nat := 5
def kindSvr : Nat := 6

/-- Lanes of a quarter (Table 4.1). -/
def laneA : Nat := 0
def laneB : Nat := 1
def laneDvRead : Nat := 2
def laneDvWrite : Nat := 3
def laneLsRead : Nat := 4
def laneLsWrite : Nat := 5

/-- A write lane of Table 4.1: its lines cross the latch of their port (R158). -/
def isWriteLane (lane : Nat) : Bool := lane == laneDvWrite || lane == laneLsWrite

/-- R158: the latch of a write lane of a quarter at each port. -/
def latchOf (q lane : Nat) : Nat := 2 * q + (if lane = laneDvWrite then 0 else 1)

/-- R164: the priority class of a request of a kind for a context. -/
def State.prioOf (s : State) (kind c : Nat) : Nat := s.profile.prio.getD (3 * kind + (s.entry c).desc.cls) 0

/-- R164, R165: the class that a request has when it is posted now. -/
def State.classOf (s : State) (r : LaneReq) : Nat := s.prioOf r.kind r.by_

/-- The first request of a lane is posted, with its class. -/
def postHead (cls : LaneReq → Nat) : List LaneReq → List LaneReq
  | [] => []
  | r :: rest => { r with cls := some (r.cls.getD (cls r)) } :: rest

/-- R158, R164, R182: every read lane has its first request posted.  A write lane posts once a line of it is in the port's latch. -/
def State.postHeads (s : State) : State :=
  { s with quarters := s.quarters.map (fun u =>
      { u with lanes := u.lanes.zipIdx.map (fun l => if isWriteLane l.2 then l.1 else postHead s.classOf l.1) }) }

/-- The port that serves a line of a slice. -/
def portOfLine (slice line : Nat) : Nat := 4 * slice + line % 4

/-- Requests like `r` for a list of line transfers, consecutive lines at one port in one request. -/
def groupPorts (r : LaneReq) : List Nat → List LaneReq
  | [] => []
  | p :: ps =>
    match groupPorts r ps with
    | x :: rs => if x.port = p then { x with left := x.left + 1 } :: rs else { r with port := p, left := 1 } :: x :: rs
    | [] => [{ r with port := p, left := 1 }]

/-- A lane of quarter `q` has these line transfers to make, in requests like `r`. -/
def State.postFor (s : State) (q lane : Nat) (r : LaneReq) (ports : List Nat) : State :=
  (s.modQuarter q (fun u => { u with lanes := modAt u.lanes lane (fun l => l ++ groupPorts r ports) })).postHeads

/-- A lane of quarter `q` has these line transfers to make for the routine of context `c`. -/
def State.postLines (s : State) (q lane kind c : Nat) (ports : List Nat) : State :=
  s.postFor q lane { port := 0, left := 0, kind := kind, ctx := c, by_ := c } ports

/-- The lines that a lane of quarter `q` has still to move for a use of context `c`. -/
def State.laneLeft (s : State) (q lane c : Nat) (use : LaneFor) : Nat :=
  ((((s.quarter q).lanes.getD lane []).filter (fun r => r.ctx == c && r.use == use)).map (·.left)).sum

/-- Every line transfer of context `c` on quarter `q` for a use has been made. -/
def State.lanesDoneFor (s : State) (q c : Nat) (use : LaneFor) : Bool :=
  !((s.quarter q).lanes.any (fun l => l.any (fun r => r.ctx == c && r.use == use)))

/-- Every line transfer of the routine of context `c` on quarter `q` has been made. -/
def State.lanesDone (s : State) (q c : Nat) : Bool := s.lanesDoneFor q c .routine

/-- The requesters, by index, whose first request satisfies a test. -/
def State.headsWhere (s : State) (p : LaneReq → Bool) : List Nat :=
  (List.range 32).filter (fun r => (((s.quarter (r / 8)).lanes.getD (r % 8) []).head?).any p)

/-- A requester starts anew: it waits, loses and holds back no more (R168, R1028). -/
def Arb.clear (a : Arb) (r : Nat) : Arb := { a with wait := setAt a.wait r 0, loss := setAt a.loss r 0, hold := setAt a.hold r 0 }

/-- Lane requests that satisfy a test are withdrawn: a posted one leaves its port, and its line the latch. -/
def State.dropRequests (s : State) (p : LaneReq → Bool) : State :=
  let gone := s.headsWhere (fun r => p r && r.cls.isSome)
  let s1 : State := { s with
    ports := s.ports.map (fun x => { x with
      arb := gone.foldl Arb.clear x.arb
      latches := x.latches.zipIdx.map (fun l => l.1 && !(gone.any (fun r => isWriteLane (r % 8) && latchOf (r / 8) (r % 8) == l.2))) })
    quarters := s.quarters.map (fun q => { q with lanes := q.lanes.map (fun l => l.filter (fun r => !p r)) }) }
  s1.postHeads

/-- R1028: uses waiting at an allocator are withdrawn; a lane whose presented use goes presents its next one anew. -/
def Slice.dropWaits (sl : Slice) (p : WaitUse → Bool) : Slice :=
  let lanes := sl.waiting.foldl (fun acc w => addOnce acc w.lane) []
  let gone := lanes.filter (fun r => (sl.waiting.find? (fun w => w.lane == r)).any p)
  { sl with waiting := sl.waiting.filter (fun w => !p w), alloc := gone.foldl Arb.clear sl.alloc }

/-! ### Routines -/

/-- The first admitted operation of a context that has not completed. -/
def Entry.headOp (e : Entry) : Option Op := e.queue.head?

/-- The first operation of a context changed. -/
def State.modHeadOp (s : State) (c : Nat) (f : Op → Op) : State :=
  s.modEntry c (fun e => match e.queue with
    | [] => e
    | op :: rest => { e with queue := f op :: rest })

/-- The quarter on which a context's routine runs, and the routine. -/
def State.jobOf (s : State) (c : Nat) : Option (Nat × Job) :=
  (List.range 4).findSome? (fun q => ((s.quarter q).jobs.find? (fun j => j.ctx == c)).map (fun j => (q, j)))

/-- The routine of context `c` on quarter `q` changed. -/
def State.modJob (s : State) (q c : Nat) (f : Job → Job) : State :=
  s.modQuarter q (fun u => { u with jobs := u.jobs.map (fun j => if j.ctx = c then f j else j) })

/-- The routine of context `c` leaves the tracks of quarter `q`. -/
def State.dropJob (s : State) (q c : Nat) : State :=
  s.modQuarter q (fun u => { u with jobs := u.jobs.filter (fun j => j.ctx != c) })

/-- The context that a line's owner names; a window line names none. -/
def LineOwner.ctx? : LineOwner → Option Nat
  | .staged c _ => some c
  | .streamed c _ _ => some c
  | .parked c _ _ _ => some c
  | .restoring c _ => some c
  | .unread c _ _ _ => some c
  | .window _ _ => none

/-- True of a line staged or streamed for context `c`. -/
def LineOwner.stagedFor (c : Nat) : LineOwner → Bool
  | .staged c' _ => c' == c
  | .streamed c' _ _ => c' == c
  | _ => false

/-- A read of memory or of a page table for a routine of context `c`. -/
def Txn.readsFor (t : Txn) (c : Nat) : Bool :=
  t.kind == .read && (match t.owner with | .op d => d == c | .walk d _ => d == c | .record d => d == c | _ => false)

/-- The lane requests and waiting uses of the routine of context `c` are withdrawn, and its fetched data discarded.  A read already under
way comes back to no one; that of an operation is still awaited by FNC (R212). -/
def State.withdraw (s : State) (c : Nat) : State :=
  let s1 := s.dropRequests (fun r => r.ctx == c && r.use != .move)
  { s1 with
    slices := s1.slices.map (fun sl => sl.dropWaits (fun w => w.owner.ctx? == some c))
    fabric := { s1.fabric with
      got := s1.fabric.got.filter (fun g => match g.owner with | .op d => d != c | .walk d _ => d != c | .record d => d != c | _ => true)
      walks := s1.fabric.walks.filter (fun w => w.ctx != c)
      txns := (s1.fabric.txns.filter (fun t => !(t.readsFor c && t.state == .posted))).map (fun t =>
        if t.readsFor c then { t with owner := if t.owner == .op c then .aborted c else .device } else t) } }

/-- The parks, unparks and ISMOVEs that satisfy a test stop, with their transfers; an ISMOVE gives back what it took in the slice that it
moves to. -/
def State.dropMoves (s : State) (p : MoveJob → Bool) : State :=
  let gone := (s.quarters.map (fun u => u.moves.filter p)).flatten
  let s1 : State := { s with
    quarters := s.quarters.map (fun u => { u with
      moves := u.moves.filter (fun m => !p m)
      planes := u.planes.zipIdx.map (fun x =>
        if u.moves.any (fun m => p m && m.kind == .unpark && m.phys == x.2) then {} else x.1) })
    slices := s.slices.zipIdx.map (fun x => (gone.filter (fun m => m.kind == .ismove && m.phys == x.2)).foldl (fun sl _ =>
      sl.freeShared (s.profile.tilesPerCtx + s.profile.basketFloor)) x.1) }
  s1.dropRequests (fun r => r.use == .move && gone.any (fun m => m.ctx == r.ctx && m.pl == r.pl))

/-- The staged and streamed lines of context `c` are released (Table 3.5). -/
def State.releaseStaged (s : State) (c : Nat) : State :=
  { s with slices := s.slices.map (fun sl => sl.releaseWhere (LineOwner.stagedFor c)) }

/-- R284, R285: what a context's MMS has staged ahead is given up. -/
def State.dropAhead (s : State) (c : Nat) : State :=
  if (s.entry c).ahead.isNone then s else ((s.withdraw c).releaseStaged c).modEntry c (fun e => { e with ahead := none })

/-- R498: every cached translation of context `c` is dropped from every cache. -/
def State.dropTranslations (s : State) (c : Nat) : State :=
  { s with
    quarters := s.quarters.map (fun q => { q with tlb := q.tlb.filter (fun t => t.ctx != c) })
    fabric := { s.fabric with
      sharedTlb := s.fabric.sharedTlb.filter (fun t => t.ctx != c)
      tableCache := s.fabric.tableCache.filter (fun t => t.ctx != c) } }

/-- R439: the charge of a context in a period. -/
def Entry.chargeIn (e : Entry) (p : Nat) : Nat := (assocGet e.charges p).getD 0

/-- Units of charge of `h` cclk (R436). -/
def chargeUnits (h : Nat) : Nat := (h + 31) / 32

/-- R436, R439, R443: `n` units are charged to a DL context: to a period, and to the frame of an operation. -/
def State.chargeDl (s : State) (c period n : Nat) (frame : Option Int) : State :=
  s.modEntry c (fun e =>
    if e.deadlined then
      { e with
        charges := assocPut e.charges period ((assocGet e.charges period).getD 0 + n)
        frames := e.frames.map (fun f => if some f.period = frame then { f with charge := f.charge + n } else f) }
    else e)


/-- R436, R465: the segment in progress of a framed operation is charged for `h` cclk, less its inserted idle steps. -/
def State.chargeSegment (s : State) (c : Nat) (j : Job) (h : Nat) : State :=
  let e := s.entry c
  match j.kind, e.headOp with
  | .op, some op => if op.frame.isSome then s.chargeDl c j.period (chargeUnits (h - 32 * j.idle)) op.frame else s
  | .restore, _ => if j.underClaim then s.chargeDl c j.period (chargeUnits h) none else s
  | _, _ => s

/-- R436, R559: the cclk for which a routine has held its tracks for the segment in progress; none while it waits for a salt. -/
def State.heldSoFar (s : State) (j : Job) : Nat :=
  j.heldBefore + (if j.awaitsSalt then 0 else (s.now - j.takenAt) * s.power.cclk / 1000)

/-- R436, R437: the segment in progress of a routine that ends without its commit is charged for the time that it held its tracks. -/
def State.chargeHeld (s : State) (j : Job) : State := s.chargeSegment j.ctx j (s.heldSoFar j)

/-- The frame rate in force: a change waits for a boundary common to both rates (R469). -/
def State.frameHz (s : State) : Nat := s.oldHz.getD s.profile.frameHz

/-- The start of a period in 1/600 s of the timebase: every legal rate divides 600. -/
def tickOf (hz : Nat) (p : Int) : Int := p * Int.ofNat (600 / hz)

/-- The start of the period in progress, in 1/600 s. -/
def State.tick (s : State) : Nat := s.period * (600 / s.frameHz)

/-- R441: a context whose charge in a period, that starts at `p`, has reached its budget while reserved work of the period remains overruns,
once in a period. -/
def State.noteOverrun (s : State) (c p : Nat) : State :=
  let e := s.entry c
  let left := e.queue.find? (fun op => !op.done && (match op.frame with | some f => decide (f ≤ Int.ofNat p) | none => false))
  if e.deadlined && !e.overrunAt.contains p && decide (e.desc.budget ≤ e.chargeIn p) then
    match left with
    | some op =>
      let num := ((e.frames.find? (fun f => some f.period == op.frame)).map (·.num)).getD 0
      (s.modEntry c (fun e => { e with overrunAt := e.overrunAt ++ [p] })).contextEvent c Code.dlOverrun
        (natLe 2 num ++ natLe 6 0 ++ natLe 8 (p / (600 / s.frameHz)) ++ natLe 4 (e.chargeIn p) ++ natLe 4 e.desc.budget)
    | none => s
  else s

/-- R472: a suspension of quarter `q` with a cause in period `period`, which starts at `tick`, told to every DL context bound to the
quarter, once to each for a cause in a period.  A context whose RESTORE has not committed is not bound yet (log entry 40). -/
def State.suspendIn (s : State) (tick period q cause : Nat) : State :=
  let s1 := s.modQuarter q (fun u => { u with suspended := addOnce u.suspended (tick, cause) })
  (s1.entries.filter (fun p => p.2.deadlined && p.2.quarter == some q && p.2.restore.isNone &&
    !p.2.suspensions.contains (tick, q, cause))).foldl (fun s p =>
      (s.modEntry p.1 (fun e => { e with suspensions := e.suspensions ++ [(tick, q, cause)] })).contextEvent p.1 Code.dlSuspended
        ([BitVec.ofNat 8 q, BitVec.ofNat 8 cause] ++ natLe 6 0 ++ natLe 8 period)) s1

/-- R472: a suspension in the period in progress. -/
def State.suspend (s : State) (q cause : Nat) : State := s.suspendIn s.tick s.period q cause

/-- Table 9.4: causes of suspension. -/
def suspThrottle : Nat := 0
def suspProfile : Nat := 1
def suspRebind : Nat := 2
def suspHalt : Nat := 3
def suspTime : Nat := 4
def suspOvercommit : Nat := 5

/-! ### Preemption (§7.4) -/

/-- Table 7.4: the sources of preemption requests. -/
inductive PreemptSource where
  | claim
  | displacement
  | rinse
  | removal
  | halt
  deriving DecidableEq, Repr, Inhabited

/-- Table 7.3: the class of a routine that is not dual: true of class W (STT, NTF). -/
def opcIsW (opc : Nat) : Bool := opc == 0x11 || opc == 0x07

/-- R337, R340, Table 7.5: a request treats a routine as class P. -/
def State.treatP (s : State) (j : Job) (src : PreemptSource) (displacing : Bool) : Bool :=
  if j.awaitsSalt then true else
  let dual : Bool :=
    if s.profile.preemptMode = 0 then false
    else if s.profile.preemptMode = 1 then true
    else src == .claim || src == .halt
  match j.kind with
  | .restore => true
  | .attach => true
  | .evict => if displacing || src == .claim then false else dual
  | .op =>
    match (s.entry j.ctx).headOp with
    | some op =>
      if opcOf op.pkt = 0x03 then (if displacing then false else dual) else !opcIsW (opcOf op.pkt)
    | none => true

/-- Block tile (i, j) of an ordinal (§5.7). -/
def View.tileAt (v : View) (o : Nat) : Nat × Nat := (o / v.bn, o % v.bn)

/-- The block tiles of a segment of MMS, in ascending ordinal and position (R281, R284). -/
def mmsTiles (g : Geom) (ords : List Nat) : List (Nat × Nat) := (ords.map (fun o => (List.range g.nt).map (fun n => (n, o)))).flatten

/-- R510: the map bytes that hold the bits of a segment's blocks. -/
def Op.segmentMap (op : Op) (j : Job) : List Nat :=
  let ords := (List.range j.len).map (fun d => j.base + d)
  if opcOf op.pkt = 0x10 then (moveView op.pkt).mapBytes (ords.map (moveView op.pkt).tileAt)
  else if opcOf op.pkt = 0x22 then (mmsView op.pkt).mapBytes (mmsTiles (geomOf op.pkt) ords)
  else []

/-- R510: an operation whose segment is aborted reads that segment's map bytes again. -/
def Op.forgetMap (op : Op) (j : Job) : Op :=
  { op with mapBits := op.mapBits.map (fun bs => bs.filter (fun b => !(op.segmentMap j).contains b.1)) }

/-- R331, R105, R344: the current segment of a routine is aborted; nothing of it stays but the memory writes issued. -/
def State.abortSegment (s : State) (q : Nat) (j : Job) : State :=
  let s0 := ((s.withdraw j.ctx).releaseStaged j.ctx).modEntry j.ctx (fun e => { e with ahead := none })
  let s1 := if j.kind = .op then s0.modHeadOp j.ctx (fun op => op.forgetMap j) else s0
  let e := s1.entry j.ctx
  let s2 := match j.phys, j.saved with
    | some p, true =>
      match ((s1.quarter q).plane p).holder with
      | some (c, pl) =>
        let live := ((s1.quarter q).plane p).ckptLive
        if c = j.ctx then
          (s1.modPlane q p PhysPlane.restore).putEntry c (e.modPlane pl (fun a => { a with live := live }))
        else s1
      | none => s1
    | _, _ => s1
  -- R266: a plane left with no live sub-block holds no physical plane.
  let s3 := match j.phys with
    | some p =>
      match ((s2.quarter q).plane p).holder with
      | some (c, pl) =>
        if c = j.ctx && ((s2.entry c).plane pl).live == 0 then
          (s2.modPlane q p (fun _ => {})).putEntry c ((s2.entry c).modPlane pl (fun a => { a with loc := .none }))
        else s2
      | none => s2
    | none => s2
  -- R886: a shadow step of the aborted segment is not compared.
  (if j.started = 0 then s3 else s3.modQuarter q (fun u => { u with rotation := { u.rotation with shadowRan := false } })).dropJob q j.ctx

/-- R332, R335, R336: a preemption request meets the routine of context `c` on quarter `q`: an abort at once, or a yield at its next commit
point.  One whose effects are all staged is at its commit point, which satisfies the request (DESIGN CHOICE, log entry 64). -/
def State.preemptJob (s : State) (q : Nat) (j : Job) (src : PreemptSource) (displacing : Bool) : State :=
  if j.yielding then s
  else if s.treatP j src displacing && j.stage != .staged then
    let s1 := ((s.chargeHeld j).noteOverrun j.ctx j.period).abortSegment q j
    match j.kind with
    | .op => (s1.modHeadOp j.ctx (fun op => { op with stopped := true })).modEntry j.ctx
        (fun e => if e.state = .running then { e with state := .preempted } else e)
    | .evict => (s1.modEntry j.ctx (fun e => if e.state = .running then { e with state := .preempted } else e))
    | .restore => s1
    | .attach => s1
  else s.modJob q j.ctx (fun j => { j with yielding := true })

/-- A preemption request on every track of a quarter that a test names. -/
def State.preemptWhere (s : State) (q : Nat) (src : PreemptSource) (displacing : Bool) (p : Job → Bool) : State :=
  ((s.quarter q).jobs.filter p).foldl (fun s j => s.preemptJob q j src displacing) s

/-- Every track of a quarter is free. -/
def State.tracksFree (s : State) (q : Nat) : Bool := (s.quarter q).jobs.isEmpty && (s.quarter q).moves.isEmpty

/-! ### Slots -/

/-- The share of a slot's window or floor that lies in one slice for a striped context. -/
def stripe (n : Nat) : Nat := n / 4

/-- R123, R392: a slot's floors are set up, and an isolated context's lines move into its slice. -/
def State.takeFloors (s : State) (k : Nat) (iso : Option Nat) : State :=
  let t := s.profile.tilesPerCtx
  let f := s.profile.basketFloor
  match iso with
  | none => { s with slices := s.slices.map (fun sl => { sl with floorFree := assocPut sl.floorFree k (stripe f) }) }
  | some i =>
    { s with slices := s.slices.zipIdx.map (fun p =>
        if p.2 = i then ({ p.1 with floorFree := assocPut p.1.floorFree k f }).takeShared (3 * stripe (t + f))
        else p.1.freeShared (stripe (t + f))) }

/-- The reverse: a slot's floors are given up. -/
def State.dropFloors (s : State) (k : Nat) (iso : Option Nat) : State :=
  let t := s.profile.tilesPerCtx
  let f := s.profile.basketFloor
  match iso with
  | none => { s with slices := s.slices.map (fun sl => { sl with floorFree := assocDel sl.floorFree k }) }
  | some i =>
    { s with slices := s.slices.zipIdx.map (fun p =>
        if p.2 = i then ({ p.1 with floorFree := assocDel p.1.floorFree k }).freeShared (3 * stripe (t + f))
        else p.1.takeShared (stripe (t + f))) }

/-- A context's physical planes are released. -/
def State.freePlanes (s : State) (c : Nat) : State :=
  { s with quarters := s.quarters.map (fun q =>
      { q with
        planes := q.planes.map (fun p => if (p.holder.map (·.1)) == some c then {} else p)
        parkChosen := if (q.parkChosen.map (·.1)) == some c then none else q.parkChosen
        bindWaits := q.bindWaits.filter (fun b => b.1 != c) }) }

/-- The slot ceiling in force: the least that a slice has set, else RESIDENT_CTX (R899, R901). -/
def State.ceilingNow (s : State) : Nat := minD s.profile.residentCtx (s.slices.filterMap (·.ceiling))

/-- The window and floor lines of a slot in each slice, for a striped context (R129). -/
def State.slotShare (s : State) : Nat := (s.profile.tilesPerCtx + s.profile.basketFloor) / 4

/-- Table 8.3: the slot, every line and every plane of a context are freed, its pegs and translations dropped. -/
def State.freeSlot (s : State) (c : Nat) : State :=
  let e := s.entry c
  let s1 := ((((s.dropMoves (fun m => m.ctx == c)).withdraw c).freePlanes c).dropTranslations c)
  match e.slot with
  | none => { s1 with slices := s1.slices.map (fun sl => sl.releaseWhere (fun o => o.ctx? == some c)) }
  | some k =>
    let s2 : State := { s1 with slices := s1.slices.map (fun sl => sl.releaseWhere (fun o => o.ctx? == some c ||
      (match o with | .window k' _ => k' == k | _ => false))) }
    let s3 := (s2.dropFloors k (if e.isolated then some e.isoSlice else none)).dropSlotPegs k
    -- A slot at or above a ceiling stays closed, and its lines go to the shared part (R899, R901).
    let s4 : State := if s.ceilingNow ≤ k then { s3 with slices := s3.slices.map (fun sl => sl.freeShared s.slotShare) } else s3
    s4.modEntry c (fun e => { e with slot := none, quarter := none, moving := none, rebindTo := none, displacedBy := none, ahead := none })

/-- The internal routines queued for a context are dropped. -/
def State.dropInternal (s : State) (p : Internal → Bool) : State :=
  { s with internal := s.internal.filter (fun i => !p i) }

/-- The context that an internal routine serves. -/
def Internal.ctx : Internal → Nat
  | .park c _ => c
  | .unpark c _ _ => c
  | .evict c => c
  | .restore c => c
  | .ismove c => c

/-! ### Faults -/

/-- What a fault record says beyond the operation (Table 16.4). -/
structure FaultInfo where
  code : Nat
  sub : Nat := 0
  lvl : Nat := 0
  write : Bool := false
  va : Nat := 0
  spa : Nat := 0
  aux : Nat := 0
  /-- For a class W or dual routine: tiles or records wholly issued, and the first write not issued (R345). -/
  issued : Option (Nat × Nat) := none
  /-- The dispatch index of the internal routine that met the fault. -/
  routine : Option Nat := none
  /-- No routine of the context met it (R1035). -/
  unmet : Bool := false
  deriving DecidableEq, Repr, Inhabited

/-- R875, R1035: the 40 payload bytes of a fault record. -/
def Entry.faultPayload (e : Entry) (i : FaultInfo) : List Byte :=
  let op := e.headOp
  let seq := match op with | some o => seqOf o.pkt | none => e.done
  let opc := match i.routine, op with
    | some r, _ => r
    | none, some o => opcOf o.pkt
    | none, none => 0xFF
  -- R1018: REQ_FAULT has `wv` 0.
  let wv := i.issued.isSome && !i.unmet && i.code != Code.reqFault
  natLe 2 seq ++ [BitVec.ofNat 8 opc, BitVec.ofNat 8 i.sub,
    BitVec.ofNat 8 ((if i.unmet then 0 else i.lvl) + (if i.write && !i.unmet then 16 else 0) + (if wv then 32 else 0)), 0, 0, 0] ++
  natLe 6 (if i.unmet then 0 else i.va) ++ natLe 2 0 ++ natLe 7 i.spa ++ natLe 1 0 ++
  natLe 4 (if wv then (i.issued.map (·.1)).getD 0 else 0) ++ natLe 2 i.aux ++ natLe 2 0 ++
  natLe 6 (if wv then (i.issued.map (·.2)).getD 0 else 0) ++ natLe 2 0

/-- Table 5.4, Table 6.9, R374: the `count` of a FAULT response. -/
def Op.faultCount (op : Op) (i : FaultInfo) : Nat :=
  if opcOf op.pkt = 0x11 ∨ opcOf op.pkt = 0x03 then (i.issued.map (·.1)).getD 0 else op.count

/-- R345: for a spill, the records whose writes were all issued, and the offset from `sarea` of the first write not issued. -/
def State.spillSoFar (s : State) (c : Nat) : Nat × Nat :=
  let recs := s.spillRecs c
  let n := match s.jobOf c with | some (_, j) => j.writesDone | none => (s.entry c).spillAt
  (n, if n < recs.length then recOffset (tileCount recs) n else 0)

/-- R345: for a routine of class W or a dual one, the tiles or records whose writes were all issued, and the first write not issued:
its VA, or its offset in the spill area.  `routine` is the dispatch index of an internal routine that faulted. -/
def State.issuedSoFar (s : State) (c : Nat) (routine : Option Nat) : Option (Nat × Nat) :=
  match routine with
  | some r => if r = 0x82 then some (s.spillSoFar c) else none
  | none =>
    match (s.entry c).headOp with
    | some op =>
      let done := match s.jobOf c with | some (_, j) => j.writesDone | none => op.ord
      if opcOf op.pkt = 0x03 ∧ (s.entry c).slot.isSome then some (s.spillSoFar c)
      else if opcOf op.pkt = 0x11 then
        let v := moveView op.pkt
        let rest := (List.range (v.bm * v.bn - done)).findSome? (fun d => (v.storeRanges ((done + d) / v.bn) ((done + d) % v.bn)).head?)
        some (done, (rest.map (·.1)).getD 0)
      else if opcOf op.pkt = 0x07 then
        some (if ((s.jobOf c).map (fun x => x.2.issued)) == some true then (1, 0) else (0, natAt op.pkt 8 6))
      else none
    | none => none

/-- R223, R457: the frames of a context whose operations a fault ends: those with an operation that has not completed are missed at their
deadlines. -/
def Entry.endFrames (e : Entry) : List Frame :=
  e.frames.map (fun f =>
    match e.queue.find? (fun op => op.frame == some f.period) with
    | some op => { f with ended := some (f.ended.getD (seqOf op.pkt, op.segs)) }
    | none => f)

/-- R217, R221 to R223, R343 to R347, R358, R498, R522, Table 8.3: the context faults.  ATT and DET never fault (Table 5.4): an error that
DET's routine meets faults the context and draws no response.  An error that ATT's routine meets has no context to fault, and the
routine runs on: DESIGN CHOICE (log entry 65). -/
def State.faultContext (s : State) (c : Nat) (i : FaultInfo) : State :=
  match assocGet s.entries c with
  | none => s
  | some e =>
    if e.state = .detached ∨ e.state = .faulted then s else
    let i := if i.unmet || i.issued.isSome then i else { i with issued := s.issuedSoFar c i.routine }
    let s0 := match s.jobOf c with
      | some (q, j) => (s.chargeHeld j).abortSegment q j
      | none => s.withdraw c
    let s1 := s0.contextEvent c i.code ((s0.entry c).faultPayload i)
    let rec_ := (s1.entry c).lastRecord.toList
    let s2 := match e.headOp with
      | some op =>
        if rspOf op.pkt && op.issued && opcOf op.pkt != 0x02 && !i.unmet && i.routine.isNone then
          s1.respond c op.pkt respFault i.code (op.faultCount i) op.pepoch rec_
        else s1
      | none => s1
    let s3 := s2.freeSlot c
    let s4 := s3.modEntry c (fun e => { e with
      state := .faulted, queue := [], flt := true, salt := none, spillAt := 0, restore := none, candidate := none, waitTold := false,
      planes := [{}, {}], frames := e.endFrames })
    let s5 := s4.dropInternal (fun x => x.ctx == c)
    s5.writeProgress c rec_

end Sys2Proof.Machine
end

