-- ==== Sys2Proof/Machine/Profiles.lean ====
section
/-! DEFINITION. Machine/Profiles.lean: the profile record (Table 14.10 to Table 14.13), its range check, the consistency
checks of Table 14.14, what a switch needs of a rinse (R785, R788), and the deadline demand of a quarter (§9.3). -/
namespace Sys2Proof.Machine

/-- Table 14.11: window entry `n` of a record. -/
def parseWindow (rec_ : List Byte) (n : Nat) : Window :=
  let a := natAt rec_ (0x100 + 16 * n) 8
  let b := natAt rec_ (0x108 + 16 * n) 8
  { en := bitAt a 39, wcls := bitsAt a 40 2, first := bitsAt a 0 39, last := bitsAt b 0 39 }

/-- Table 14.12: PORT_CFG entry `n` of a record. -/
def parsePort (rec_ : List Byte) (n : Nat) : PortCfg :=
  let b0 := byteAt rec_ (0x200 + 4 * n)
  { cls := bitsAt b0 0 2, global := bitAt b0 2, minw := 2 * 2 ^ bitsAt b0 3 2, pchk := bitAt b0 5, preset := bitsAt b0 6 2,
    peer := bitsAt (byteAt rec_ (0x201 + 4 * n)) 0 7, txpol := byteAt rec_ (0x202 + 4 * n) }

/-- Table 14.13: route entry for device `d` of a record. -/
def parseRoute (rec_ : List Byte) (d : Nat) : Route :=
  let b0 := byteAt rec_ (0x300 + 2 * d)
  { v := bitAt b0 4, pri := bitsAt b0 0 4, altv := bitAt b0 5, alt := bitsAt (byteAt rec_ (0x301 + 2 * d)) 0 4 }

/-- Table 14.10: the fields of a profile record; reserved bits are ignored (R14). -/
def parseProfile (r : List Byte) : Profile :=
  { cclkMhz := natAt r 0x40 2, pwrCapW := natAt r 0x42 2, quarterMask := bitsAt (byteAt r 0x44) 0 4,
    isoAllow := bitsAt (byteAt r 0x45) 0 4, residentCtx := byteAt r 0x46, segSteps := byteAt r 0x47,
    tilesPerCtx := natAt r 0x48 2, basketFloor := natAt r 0x4A 2, preemptMode := bitsAt (byteAt r 0x4C) 0 2,
    waitLimit := byteAt r 0x4D, backoffBase := byteAt r 0x4E, backoffCap := byteAt r 0x4F, burstLimit := byteAt r 0x50,
    fabArbFixed := bitAt (byteAt r 0x51) 0, frameHz := byteAt r 0x52, dlShare := byteAt r 0x53,
    missDrop := bitAt (byteAt r 0x54) 0, refIntervalUs := byteAt r 0x55, testRotateMs := natAt r 0x56 2,
    reinstatePasses := byteAt r 0x58, healthMs := natAt r 0x5A 2, rtMs := natAt r 0x5C 2, scrubH := byteAt r 0x5E,
    ttgt := byteAt r 0x60, thys := byteAt r 0x61, sliceEn := bitsAt (natAt r 0x68 8) 0 33,
    prio := (List.range 21).map (fun i => bitsAt (byteAt r (0x70 + i)) 0 3),
    fabPrio := (List.range 70).map (fun i => bitsAt (byteAt r (0x90 + i)) 0 4),
    windows := (List.range 16).map (parseWindow r), portCfg := (List.range 16).map (parsePort r),
    routes := (List.range 128).map (parseRoute r) }

/-- True of a number between two bounds. -/
def inRange (lo hi x : Nat) : Bool := decide (lo ≤ x) && decide (x ≤ hi)

/-- The ranges of Table 14.10 to Table 14.12 by field offset, ascending; a field that is ignored is not checked (§14.4). -/
def Profile.ranges (p : Profile) : List (Nat × Bool) :=
  [(0x40, [800, 1000, 1200, 1400, 1600].contains p.cclkMhz), (0x42, inRange 120 320 p.pwrCapW),
   (0x44, inRange 1 15 p.quarterMask), (0x46, inRange 8 64 p.residentCtx), (0x47, [8, 16, 32, 64].contains p.segSteps),
   (0x48, [64, 128, 256].contains p.tilesPerCtx), (0x4A, inRange 16 256 p.basketFloor), (0x4C, inRange 0 2 p.preemptMode),
   (0x4D, inRange 4 255 p.waitLimit), (0x4E, inRange 1 8 p.backoffBase), (0x4F, inRange 1 64 p.backoffCap),
   (0x50, inRange 1 16 p.burstLimit), (0x52, [24, 25, 30, 50, 60].contains p.frameHz),
   (0x55, [20, 40].contains p.refIntervalUs), (0x56, inRange 1 1000 p.testRotateMs), (0x58, inRange 1 255 p.reinstatePasses),
   (0x5A, inRange 10 60000 p.healthMs), (0x5C, inRange 10 1000 p.rtMs), (0x5E, inRange 1 168 p.scrubH),
   (0x60, inRange 85 104 p.ttgt), (0x61, inRange 1 8 p.thys)] ++
  p.windows.zipIdx.map (fun w => (0x100 + 16 * w.2, !w.1.en || decide (w.1.wcls < 3))) ++
  p.portCfg.zipIdx.map (fun c => (0x200 + 4 * c.2, c.1.cls == 0 || (decide (c.1.minw ≤ 8) && c.1.preset != 0)))

/-- A refused profile: the check's code and what it concerns (R773). -/
structure Reject where
  code : Nat
  off : Nat := 0
  quarter : Nat := 0xFF
  port : Nat := 0xFF
  handle : Nat := 0
  deriving DecidableEq, Repr, Inhabited

/-- §9.3: D(q): the budgets of the DL contexts bound to `q`, and of those attached and not bound that name `q`.  A context
bound to a quarter that `up` does not name counts as unbound (R447). -/
def State.demand (s : State) (up : Nat → Bool) (q : Nat) : Nat :=
  (s.entries.filter (fun p => p.2.deadlined && p.2.state != .detached)).foldl (fun n p =>
    let e := p.2
    let bound := if e.restore.isSome then none else match e.quarter with | some b => if up b then some b else none | none => none
    match bound with
    | some b => if b = q then n + e.desc.budget else n
    | none => if bitAt e.desc.qaff q then n + e.desc.budget else n) 0

/-- R444: S_f. -/
def Profile.frameSteps (p : Profile) : Nat := p.cclkMhz * 1000000 / (32 * p.frameHz)

/-- R444: B_max. -/
def Profile.bMax (p : Profile) : Nat := p.frameSteps * p.dlShare / 100

/-- R444, R469: B_max, at the frame rate in force. -/
def State.bMax (s : State) : Nat := ({ s.profile with frameHz := s.oldHz.getD s.profile.frameHz } : Profile).bMax

/-- The resident contexts, by slot in ascending order: slot and context number. -/
def State.residents (s : State) : List (Nat × Nat) :=
  (List.range 64).filterMap (fun k => (s.entries.find? (fun p => p.2.slot == some k)).map (fun p => (k, p.1)))

/-- R788: the contexts that a rinse toward a profile spills, in ascending slot order.  A slot whose RESTORE has not committed
is not resident. -/
def State.rinseSpills (s : State) (p : Profile) : List Nat :=
  ((s.residents.filter (fun x => (s.entry x.2).restore.isNone &&
    (p.tilesPerCtx != s.profile.tilesPerCtx || decide (p.residentCtx ≤ x.1)))).map (·.2))

/-- R785: the staged profile differs from the one in force in a rinse-required field, or names a removed quarter. -/
def State.needsRinse (s : State) (p : Profile) : Bool :=
  let f := s.profile
  decide (p.cclkMhz ≠ f.cclkMhz) || decide (p.quarterMask ≠ f.quarterMask) || decide (p.isoAllow ≠ f.isoAllow) ||
  decide (p.residentCtx ≠ f.residentCtx) || decide (p.segSteps ≠ f.segSteps) || decide (p.tilesPerCtx ≠ f.tilesPerCtx) ||
  decide (p.basketFloor ≠ f.basketFloor) || decide (p.sliceEn ≠ f.sliceEn) || decide (p.portCfg ≠ f.portCfg) ||
  decide (p.routes ≠ f.routes) || (List.range 4).any (fun q => bitAt p.quarterMask q && (s.quarter q).removed)

/-- R129: the lines of the slice that has the fewest: 8,192 less those of banks that have left it.  R131 states TRF_SPLIT for a
slice that has lost none; that it counts lines that BIST has removed is DEDUCED from §15.12 (log entry 8). -/
def State.leastLines (s : State) : Nat := minD 8192 (s.slices.map (fun sl => 8192 - 256 * sl.gone.length))

/-- Table 14.14, orders 4 to 17: the checks of a staged profile as a whole, against the state at this instant.  At bring-up no
quarter is returnable and no context is attached (R833). -/
def State.checkStaged (s : State) (p : Profile) (bringUp : Bool) : Option Reject :=
  let attached := s.entries.filter (fun x => x.2.state != .detached)
  let dls := (attached.filter (fun x => x.2.deadlined)).length
  let up := fun q => bitAt p.quarterMask q && !(s.quarter q).removed
  if decide (p.dlShare > 75) then some { code := Code.dlShareRange, off := 0x53 }
  else if decide (p.tilesPerCtx * p.residentCtx > 32768) then some { code := Code.pfMember, off := 0x48 }
  else if (List.range 4).all (fun q => !(bitAt p.quarterMask q && (!bringUp || !(s.quarter q).removed))) then
    some { code := Code.qmaskEmpty, off := 0x44 }
  else if decide (p.backoffCap < p.backoffBase) then some { code := Code.arbBackoff, off := 0x4F }
  else if decide (32768 < p.residentCtx * p.tilesPerCtx + 4096) then some { code := Code.basketMin, off := 0x46 }
  else if decide (p.residentCtx * (p.tilesPerCtx + p.basketFloor) / 4 + 896 > s.leastLines) || decide (p.basketFloor % 4 ≠ 0) then
    some { code := Code.trfSplit, off := 0x4A }
  else match p.windows.zipIdx.find? (fun w => w.1.en && decide (w.1.last < w.1.first)) with
  | some w => some { code := Code.winOrder, off := 0x100 + 16 * w.2 }
  | none =>
  let off := fun n => (p.portCfg.getD n {}).cls == 0
  match p.routes.zipIdx.find? (fun r => r.2 != s.devId && r.1.v && (off r.1.pri || (r.1.altv && off r.1.alt))) with
  | some r => some { code := Code.routePort, off := 0x300 + 2 * r.2, port := if off r.1.pri then r.1.pri else r.1.alt }
  | none =>
  match p.portCfg.zipIdx.find? (fun c => c.1.cls != 0 && s.levels.level.getD 2 0 == 0) with
  | some c => some { code := Code.routeSys, off := 0x200 + 4 * c.2, port := c.2 }
  | none =>
  match p.routes.zipIdx.find? (fun r => r.2 != s.devId && r.1.v && decide (s.nMax ≤ r.2)) with
  | some r => some { code := Code.routeSys, off := 0x300 + 2 * r.2 }
  | none =>
  match attached.find? (fun x => decide (p.tilesPerCtx < x.2.desc.tcnt)) with
  | some x => some { code := Code.ctxTiles, off := 0x48, handle := s.handle x.1 }
  | none =>
  if decide (p.residentCtx < dls + 1) && decide (0 < dls) then some { code := Code.dlSlots, off := 0x46 } else
  match (List.range 4).find? (fun q => decide (p.bMax < s.demand up q)) with
  | some q => some { code := Code.dlAdmit, quarter := q }
  | none =>
  let spills := if bringUp then [] else s.rinseSpills p
  if s.needsRinse p && !spills.isEmpty && s.sealKey.isNone then some { code := Code.rinseSeal }
  else match spills.find? (fun c => (s.entry c).desc.sepoch == 0xFFFFFFFF) with
  | some c => some { code := Code.rinseEpoch, handle := s.handle c }
  | none => none

/-- Table 14.14: the checks of a record of the profile store, in order. -/
def State.checkRecord (s : State) (n : Nat) (bringUp : Bool) : Option Reject :=
  match assocGet s.profStore n with
  | none => some { code := Code.pfAbsent }
  | some r =>
    if natAt r 0 4 ≠ 0x31465250 ∨ byteAt r 4 ≠ n ∨ byteAt r 5 ≠ 1 then
      some { code := Code.pfFormat, off := if natAt r 0 4 ≠ 0x31465250 then 0 else if byteAt r 4 ≠ n then 4 else 5 }
    else match (parseProfile r).ranges.find? (fun x => !x.2) with
    | some x => some { code := Code.pfRange, off := x.1 }
    | none => s.checkStaged (parseProfile r) bringUp

/-- R773, Table 16.6: PROFILE_REJECT. -/
def State.rejectEvent (s : State) (n : Nat) (r : Reject) : State :=
  s.deviceEvent Code.profileReject none
    ([BitVec.ofNat 8 n, 0] ++ natLe 2 r.code ++ natLe 2 r.off ++ [BitVec.ofNat 8 r.quarter, BitVec.ofNat 8 r.port] ++ natLe 2 r.handle)

/-- The number of free shared lines of a slice under a profile, with every slot striped and `gone` banks out (R129). -/
def sharedOf (p : Profile) (gone : Nat) : Int :=
  8192 - 256 * Int.ofNat gone - 896 - Int.ofNat (p.residentCtx * (p.tilesPerCtx + p.basketFloor) / 4)

end Sys2Proof.Machine
end

