-- ==== Sys2Proof/Machine/Status.lean ====
section
/-! DEFINITION. Machine/Status.lean: the conditions of degraded readiness and STAT (R857, R858), what a fatal code and
the loss of links do (R817, R861), and the service of banks and columns after BIST (R841, R879). -/
namespace Sys2Proof.Machine

/-- Lanes of a mask of eight. -/
def lanesOf (mask : Nat) : Nat := popcount 8 mask

/-- Table 15.4: the conditions of degraded readiness, bit n for row n. -/
def State.degraded (s : State) : Nat :=
  let h := s.links.host
  let hl := h.st == .failed || (h.st == .active && decide (lanesOf h.mset < 8))
  let fab := (s.profile.portCfg.zipIdx).any (fun c =>
    let p := s.fport c.2
    c.1.cls != 0 && (p.st != .active || decide (lanesOf p.rxSet < 8)))
  let qt := (List.range 4).any (fun q => bitAt s.profile.quarterMask q && (s.quarter q).removed)
  let trf := s.slices.any (fun sl => !sl.gone.isEmpty)
  let img := s.straps.boot != 2 && s.boot.copyUsed.isNone
  b2n hl + 2 * b2n fab + 4 * b2n qt + 8 * b2n trf + 16 * b2n img + 32 * b2n s.profRom + 64 * b2n (!s.boot.trngOk)

/-- R857, R858: after readiness, STAT shows 0xB or 0xC as the conditions stand, unless a switch, a shutdown or a fatal code shows
another value. -/
def State.refreshStat (s : State) : State :=
  if s.ready && s.switch.step == .idle then s.showStat (if s.degraded = 0 then 0xC else 0xB) else s

/-- Both links in DOWN, with nothing kept but what the route epochs hold (R817). -/
def State.linksDown (s : State) : State :=
  { s with links := { s.links with
      host := {}, ports := List.replicate 16 {}, out := [], held := [], pins := [], streams := [], haltAcks := [] } }

/-- R343 in substance for the whole device: every routine stops, and nothing of the stopped segments stays. -/
def State.stopRoutines (s : State) : State :=
  { s with
    quarters := s.quarters.map (fun q => { q with
      jobs := [], moves := [], lanes := List.replicate 6 [], bindWaits := [], stepPermit := false, claim := false, claimAt := none, claimFor := [] })
    ports := s.ports.map (fun p => { p with latches := List.replicate 8 false, pendingRef := [] })
    slices := s.slices.map (fun sl => { sl with waiting := [] })
    fabric := { s.fabric with walks := [], got := [] }
    internal := [] }

/-- R861: a fatal code. -/
def State.goFatal (s : State) (code : Nat) : State :=
  let s1 := s.linksDown.stopRoutines
  let s2 : State := { s1 with boot := { s1.boot with phase := 0xF, fatal := some code } }
  let s3 := if s2.power.strobes = 0 then s2 else s2.sendVid 0x78
  s3.showStat 0xF

/-- R879: roles after BIST or a return test: the healthy columns in ascending order take WORK, then BOARD, then SPARE. -/
def rolesAfterTest (failed : List Nat) : List ColRole :=
  (List.range 258).map (fun c =>
    if failed.contains c then .darned
    else
      let rank := ((List.range c).filter (fun x => !failed.contains x)).length
      if rank < 256 then .work rank else if rank = 256 then .board else .spare)

/-- The rotation state of an array whose roles have just been set. -/
def Rotation.fresh (failed : List Nat) : Rotation := { roles := rolesAfterTest failed, testDarned := !failed.isEmpty }

/-- The columns of quarter `q` that a list of findings names, each once. -/
def columnsIn (q : Nat) (fs : List Finding) : List Nat :=
  fs.foldl (fun acc f => match f with | .column q' c => if q' = q then addOnce acc c else acc | _ => acc) []

/-- True when a list of findings names a unit of quarter `q` whose failure takes the quarter out of service (Table 15.3). -/
def unitIn (q : Nat) (fs : List Finding) : Bool := fs.any (fun f => match f with | .unit q' => q' == q | _ => false)

/-- Table 15.3: a test of quarter `q` with these findings leaves it in service. -/
def quarterPasses (q : Nat) (fs : List Finding) : Bool := decide ((columnsIn q fs).length ≤ 1) && !unitIn q fs

/-- R152: a bank number's lines leave the slice; the shared part shrinks by 256 lines or by what remains in it. -/
def Slice.loseBank (sl : Slice) (b : Nat) : Slice :=
  if sl.gone.contains b then sl else
  let sl1 := sl.takeShared 256
  { sl1 with gone := sl1.gone ++ [b] }

/-- The bank number that a physical bank serves, if any. -/
def Slice.numberOf (sl : Slice) (phys : Nat) : Option Nat :=
  ((List.range 32).find? (fun b => sl.serves.getD b b == phys)).filter (fun b => !sl.gone.contains b)

/-- The lowest free spare bank of a slice. -/
def Slice.freeSpare (sl : Slice) : Option Nat :=
  ([32, 33] : List Nat).find? (fun b => (sl.banks.getD b {}).status == .free)

/-- Table 15.3: a bank fails in BIST: a free spare takes its number, or its lines leave the slice. -/
def Slice.failBank (sl : Slice) (phys : Nat) : Slice :=
  let sl1 := sl.modBank phys (fun b => { b with status := .retired, served := sl.numberOf phys })
  match sl.numberOf phys with
  | none => sl1
  | some n =>
    match sl1.freeSpare with
    | some sp => ({ sl1 with serves := setAt sl1.serves n sp }).modBank sp (fun b => { b with status := .serving })
    | none => sl1.loseBank n

/-- R841, Table 15.3: what the findings of a BIST do to the banks and stores; the quarters are handled where BIST runs. -/
def State.applyFinding (s : State) (f : Finding) : State :=
  match f with
  | .column _ _ => s
  | .unit _ => s
  | .bank i b => s.modSlice i (fun sl => sl.failBank b)
  | .microWord a => { s with stores := { s.stores with bad := addOnce s.stores.bad a } }

/-- R841, R879: quarter `q` after a test with these findings. -/
def Quarter.afterTest (u : Quarter) (q : Nat) (fs : List Finding) : Quarter :=
  { u with
    removed := !quarterPasses q fs
    removeCause := 0
    leaving := false
    untested := false
    rotation := Rotation.fresh (columnsIn q fs)
    planeUes := [], pegUes := [], pathUes := []
    planes := [{}, {}], pegsA := List.replicate 8 {}, pegsB := List.replicate 8 {} }

/-- Table 16.11: the 8 bytes of one of the findings `fs` of a BIST. -/
def State.findingBytes (s : State) (fs : List Finding) (f : Finding) : List Byte :=
  match f with
  | .column q c => [0, BitVec.ofNat 8 q] ++ natLe 2 c ++ [if quarterPasses q fs then 0 else 1, 0, 0, 0]
  | .unit q => [5, BitVec.ofNat 8 q] ++ natLe 2 0 ++ [1, 0, 0, 0]
  | .bank i b =>
    let lost := (((s.slice i).banks.getD b {}).served).any (s.slice i).gone.contains
    [if b < 32 then 1 else 2, BitVec.ofNat 8 i] ++ natLe 2 b ++ [if lost then 2 else 0, 0, 0, 0]
  | .microWord a => [0, 0] ++ natLe 2 a ++ [3, 0, 0, 0]

/-- Table 16.11: pages of findings, five of 8 bytes in each. -/
def State.findingPages (s : State) (fs : List Finding) : List (List Byte) :=
  (List.range ((fs.length + 4) / 5)).map (fun p => (((fs.drop (5 * p)).take 5).map (s.findingBytes fs)).flatten)

/-- Table 16.5: the payload of a column's unit event. -/
def columnPayload (q col by_ passes cause since : Nat) : List Byte :=
  [0, BitVec.ofNat 8 q] ++ natLe 2 col ++ natLe 2 by_ ++ [BitVec.ofNat 8 passes, BitVec.ofNat 8 cause] ++ natLe 8 since

/-- The role of a physical column. -/
def Rotation.role (r : Rotation) (col : Nat) : ColRole := r.roles.getD col .darned

/-- R879, R889: quarter `q`, with the rotation state `before`, has been tested after readiness: each column that the test makes DARNED is written. -/
def State.darnEvents (s : State) (q : Nat) (before : Rotation) : State :=
  ((List.range 258).filter (fun c => (s.quarter q).rotation.role c == ColRole.darned && before.role c != ColRole.darned)).foldl (fun s c =>
    (s.bump 2 54 2 1).deviceEvent Code.colDarn none (columnPayload q c 0xFFFF 0 0 0)) s

end Sys2Proof.Machine
end

