-- ==== Sys2Proof/Machine/Lykel.lean ====
section
/-! DEFINITION. Machine/Lykel.lean: packets, flits, credits, retry, the handshake and protocol violations of the Lykel layer, for the
host link and the fabric ports (§12.2 to §12.5, §12.9, §12.10, §13.4).  Link 0 is the host link, and link 1 + n is port FPn. -/
namespace Sys2Proof.Machine

/-! ### Packets (Tables 12.4 to 12.9, 13.8) -/

def pktType (p : List Byte) : Nat := byteAt p 0
def pktNsl (p : List Byte) : Nat := byteAt p 1 % 64
def pktVn (p : List Byte) : Nat := bitsAt (byteAt p 1) 6 1
def pktAltd (p : List Byte) : Bool := bitAt (byteAt p 1) 7
def pktTag (p : List Byte) : Nat := natAt p 2 2 % 4096
def pktRepoch (p : List Byte) : Nat := bitsAt (byteAt p 3) 4 4
def reqSpa (p : List Byte) : Nat := natAt p 4 8 % 2 ^ 52
def reqOrd (p : List Byte) : Bool := bitAt (natAt p 4 8) 52
def reqSdev (p : List Byte) : Nat := bitsAt (natAt p 4 8) 53 7
def reqSize (p : List Byte) : Nat := natAt p 12 2 % 8192
def reqStag (p : List Byte) : Nat := byteAt p 14
def reqRkind (p : List Byte) : Nat := byteAt p 15 % 4
def cplSt (p : List Byte) : Nat := byteAt p 4
def cplLast (p : List Byte) : Bool := bitAt (byteAt p 5) 0
def cplBoff (p : List Byte) : Nat := natAt p 6 2 % 4096
def cplCnt (p : List Byte) : Nat := natAt p 8 2 % 1024
def cplDdev (p : List Byte) : Nat := byteAt p 12 % 128

/-- Packet types of Table 12.5. -/
def tOpr : Nat := 0x01
def tMrd : Nat := 0x10
def tMwr : Nat := 0x11
def tMfa : Nat := 0x12
def tMcs : Nat := 0x13
def tRwr : Nat := 0x14
def tCpl : Nat := 0x20
def tCpld : Nat := 0x21
def tCack : Nat := 0x38
def tLnak : Nat := 0x39

/-- Table 12.5: the virtual channel of a packet type; none for NULL and reserved types. -/
def vcOfType (t : Nat) : Option Nat :=
  if t = 0x01 then some 0
  else if 0x10 ≤ t ∧ t ≤ 0x14 then some 1
  else if t = 0x20 ∨ t = 0x21 then some 2
  else if (0x30 ≤ t ∧ t ≤ 0x35) ∨ t = 0x38 ∨ t = 0x39 then some 3
  else none

/-- True of a VC1 request. -/
def isRequest (p : List Byte) : Bool := vcOfType (pktType p) == some 1

/-- Table 12.5: the data slots that a header gives its packet. -/
def nslExpected (p : List Byte) : Nat :=
  let t := pktType p
  if t = tOpr then 4
  else if t = tMwr ∨ t = tRwr then (reqSpa p % 16 + reqSize p + 15) / 16
  else if t = tMfa ∨ t = tMcs then 1
  else if t = 0x30 then 2
  else 0

/-- Table 12.5: the `nsl` of a CPLD depends on the address of its request. -/
def nslCpld (spa boff cnt : Nat) : Nat := ((spa + boff) % 16 + cnt + 15) / 16

/-- Whole slots: bytes padded with zeros to a multiple of 16. -/
def padSlots (bs : List Byte) : List Byte := bs ++ List.replicate ((16 - bs.length % 16) % 16) 0

/-- A header slot: type, data slots, tag, and bytes 4 to 15. -/
def headerSlot (t nsl tag : Nat) (rest : List Byte) : List Byte :=
  [BitVec.ofNat 8 t, BitVec.ofNat 8 nsl] ++ natLe 2 (tag % 4096) ++ bytesAt rest 0 12

/-- Table 12.6: a memory request: `sdev` is 0 on the host link. -/
def requestPacket (t tag spa size : Nat) (ord : Option Nat) (sdev rkind : Nat) (data : List Byte) : List Byte :=
  let hi := spa + (if ord.isSome then 2 ^ 52 else 0) + sdev * 2 ^ 53
  let body := if t = tMwr ∨ t = tRwr then padSlots (List.replicate (spa % 16) 0 ++ data) else padSlots data
  headerSlot t (body.length / 16) tag
    (natLe 8 hi ++ natLe 2 size ++ [BitVec.ofNat 8 (ord.getD 0), BitVec.ofNat 8 rkind]) ++ body

/-- Table 12.7: a completion without data. -/
def cplPacket (tag st vcode ddev : Nat) : List Byte :=
  headerSlot tCpl 0 tag ([BitVec.ofNat 8 st, 1] ++ natLe 2 0 ++ natLe 2 0 ++ natLe 2 vcode ++ natLe 4 ddev)

/-- Table 12.7: a completion with data. -/
def cpldPacket (tag st : Nat) (last : Bool) (spa boff ddev : Nat) (data : List Byte) : List Byte :=
  let body := padSlots (List.replicate ((spa + boff) % 16) 0 ++ data)
  headerSlot tCpld (body.length / 16) tag
    ([BitVec.ofNat 8 st, BitVec.ofNat 8 (b2n last)] ++ natLe 2 boff ++ natLe 2 data.length ++ natLe 2 0 ++ natLe 4 ddev) ++ body

/-- The data bytes of a write request or of a completion whose first byte lies at `off` in its first data slot. -/
def pktData (p : List Byte) (off n : Nat) : List Byte := bytesAt p (16 + off) n

/-- R727: the ordered traffic of the fabric. -/
def isOrdered (p : List Byte) : Bool :=
  pktType p == tOpr || pktType p == tRwr || (isRequest p && reqOrd p)

/-- The device to which a packet is routed: `ctx` of an OPR, `dev` of a request, `ddev` of a completion. -/
def pktDest (p : List Byte) : Nat :=
  if pktType p = tOpr then natAt p 18 2 / 512
  else if isRequest p then spaDev (reqSpa p)
  else cplDdev p

/-- The device that sent a packet into the fabric. -/
def pktSender (own : Nat) (p : List Byte) : Nat := if isRequest p then reqSdev p else own

/-! ### Credits (R609 to R612) -/

/-- The channel of a packet on a link: 4 VN + VC. -/
def chanOf (link : Nat) (p : List Byte) : Nat :=
  (vcOfType (pktType p)).getD 0 + (if link = 0 then 0 else 4 * pktVn p)

/-- R610: the credit of a channel. -/
def Credit.avail (c : Credit) : Nat := c.adv + c.partnerFreed - c.used

/-- Slots of the packets that wait on a channel. -/
def Lykel.waitingSlots (lk : Lykel) (ch : Nat) : Nat :=
  ((lk.txq.getD ch []).map (fun p => p.bytes.length / 16)).foldl (· + ·) 0

/-- True when a packet of `n` slots could start on a channel after those that wait. -/
def Lykel.room (lk : Lykel) (ch n : Nat) : Bool := decide (lk.waitingSlots ch + n ≤ ((lk.credits.getD ch {}).avail))

/-- One channel's credits changed. -/
def Lykel.modCredit (lk : Lykel) (ch : Nat) (f : Credit → Credit) : Lykel := { lk with credits := modAt lk.credits ch f }

/-- R612: `n` slots of a channel are freed. -/
def State.freeSlots (s : State) (link ch n : Nat) : State :=
  s.modLykel link (fun lk => lk.modCredit ch (fun c => { c with freed := c.freed + min n c.held, held := c.held - n }))

/-- A packet joins the queue of its channel. -/
def State.enqueue (s : State) (link ch : Nat) (bytes : List Byte) : State :=
  s.modLykel link (fun lk => { lk with txq := modAt lk.txq ch (fun q => q ++ [{ bytes := bytes, since := s.now }]) })

/-- A forwarded packet joins the queue of its channel. -/
def State.enqueueHeld (s : State) (link ch : Nat) (bytes : List Byte) (h : Held) : State :=
  s.modLykel link (fun lk => { lk with txq := modAt lk.txq ch (fun q => q ++ [{ bytes := bytes, since := s.now, held := some h }]) })

/-- R592, R619, R642: a packet is taken in its turn: none that arrived before it on its channel waits. -/
def State.inTurn (s : State) (link : Nat) (p : List Byte) : Bool :=
  match (s.lykel link).rxq.find? (fun x => x.1 == chanOf link p) with
  | some x => x.2 == p
  | none => true

/-- The packet is the oldest that waits on its channel. -/
def State.queued (s : State) (link : Nat) (p : List Byte) : Bool :=
  match (s.lykel link).rxq.find? (fun x => x.1 == chanOf link p) with
  | some x => x.2 == p
  | none => false

/-- A packet leaves the head of its receive queue, and its slots are freed; a packet that is not there leaves the state alone. -/
def State.takePacket (s : State) (link : Nat) (p : List Byte) : State :=
  let ch := chanOf link p
  let lk := s.lykel link
  match lk.rxq.find? (fun x => x.1 == ch) with
  | some x =>
    if x.2 = p then
      (s.modLykel link (fun lk => { lk with rxq := lk.rxq.erase x })).freeSlots link ch (p.length / 16)
    else s
  | none => s

/-! ### Events of links -/

/-- Row of Table 12.10. -/
def LinkState.row : LinkState → Nat
  | .down => 0 | .train => 1 | .handshake => 2 | .active => 3 | .resync => 4 | .retrain => 5 | .failed => 6

/-- Row of Table 13.7. -/
def PortState.row : PortState → Nat
  | .down => 0 | .train => 1 | .align => 2 | .handshake => 3 | .active => 4 | .resync => 5 | .retrain => 6 | .failed => 7

/-- Table 16.6: HLINK_STATE. -/
def State.hlinkEvent (s : State) : State :=
  s.deviceEvent Code.hlinkState none
    [0, BitVec.ofNat 8 s.links.host.st.row, BitVec.ofNat 8 s.links.host.mset, 0]

/-- The lanes that this side's or the partner's receiver has failed. -/
def FabricPort.failedMask (p : FabricPort) : Nat :=
  bitsMask 8 ((List.range 8).filter (fun i => (p.lanes.getD i {}).failedHere || (p.lanes.getD i {}).failedThere))

/-- Table 16.6: FP_STATE. -/
def State.fpEvent (s : State) (n : Nat) : State :=
  let p := s.fport n
  s.deviceEvent Code.fpState none
    [BitVec.ofNat 8 (n + 1), BitVec.ofNat 8 p.st.row, BitVec.ofNat 8 p.txSet, BitVec.ofNat 8 p.failedMask]

/-- R699: a port is up while it is ACTIVE or in RESYNC. -/
def PortState.isUp : PortState → Bool
  | .active => true
  | .resync => true
  | _ => false

/-! ### Route epochs (R726, R729) -/

/-- R729: the stream to `d` advances its epoch: it sends nothing new until the packets of earlier epochs are answered. -/
def State.advanceStream (s : State) (d : Nat) : State :=
  { s with links := { s.links with streams := s.links.streams.map (fun x =>
      if x.dest = d then { x with epoch := (x.epoch + 1) % 16, holding := !x.open_.isEmpty } else x) } }

/-- R726: e(d) advances. -/
def State.advanceEpoch (s : State) (d : Nat) : State :=
  let s1 : State := { s with links := { s.links with epochs := modAt s.links.epochs d (fun e => (e + 1) % 16) } }
  s1.advanceStream d

/-- R726: the destinations whose entry names port `n`. -/
def State.routedBy (s : State) (n : Nat) : List Nat :=
  (List.range 128).filter (fun d => let r := s.profile.routes.getD d {}; r.v && (r.pri == n || (r.altv && r.alt == n)))

/-- A held packet takes its place among those that wait, by the instant of its receipt. -/
def insertHeld (h : Held) : List Held → List Held
  | [] => [h]
  | x :: rest => if h.since ≤ x.since then h :: x :: rest else x :: insertHeld h rest

/-- A packet queued for port `n` as it waits again: a forwarded one as it was held, one of this device with its mark of a turn aside
removed (R737); an ordered one waits for the port (R732). -/
def State.heldAgain (s : State) (n : Nat) (o : OutPacket) (ch : Nat) : Held :=
  let h : Held := match o.held with
    | some h => h
    | none =>
      let b := o.bytes
      { bytes := b.take 1 ++ [BitVec.ofNat 8 (byteAt b 1 % 64)] ++ b.drop 2, arrived := 0, vc := ch, dest := pktDest b, since := s.now }
  { h with freed := true, waitsFor := if isOrdered o.bytes then some n else none }

/-- R737: the packets queued for a port that goes down are routed again, or wait for it; those begun stay for replay. -/
def State.requeue (s : State) (n : Nat) : State :=
  let lk := (s.fport n).lk
  let moved := (lk.txq.zipIdx.map (fun x => x.1.map (fun (p : OutPacket) => (p, x.2)))).flatten
  let keep := moved.filter (fun x => vcOfType (pktType x.1.bytes) == some 3)
  let s1 := s.modFport n (fun p => { p with lk := { p.lk with
    txq := (List.range 8).map (fun ch => (keep.filter (fun x => x.2 == ch)).map (·.1)) } })
  let held := (moved.filter (fun x => vcOfType (pktType x.1.bytes) != some 3)).map (fun x => s.heldAgain n x.1 x.2)
  { s1 with links := { s1.links with held := held.foldr insertHeld s1.links.held } }

/-- A port enters a state (R699, R700, R726, R737). -/
def State.setPortState (s : State) (n : Nat) (st : PortState) : State :=
  let was := (s.fport n).st
  let s1 := s.modFport n (fun p => { p with st := st, since := s.now })
  let s2 := if was.isUp = st.isUp then s1 else (s1.routedBy n).foldl State.advanceEpoch s1
  let s3 := if was.isUp && !st.isUp then s2.requeue n else s2
  let s4 := if st = .active ∨ st = .retrain ∨ st = .failed then s3.fpEvent n else s3
  s4.refreshStat

/-- The lanes of a port as training begins: the taps of its preset (Table 13.2), in 1/320 of peak swing, and nothing received. -/
def freshLanes (preset : Nat) (old : List Lane) : List Lane :=
  (List.range 8).map (fun i =>
    { ({} : Lane) with
      cm1 := if preset = 1 then 0 else -32
      cp1 := if preset = 3 then -48 else 0
      removedAt := (old.getD i {}).removedAt })

/-- TRAIN begins on a port (§13.3). -/
def State.beginTrain (s : State) (n : Nat) (st : PortState) : State :=
  let cfg := s.profile.portCfg.getD n {}
  (s.modFport n (fun p => { p with
    phase := .train, lk := { p.lk with offered := [] }, txpol := cfg.txpol, lanes := freshLanes cfg.preset p.lanes, locks := 0, lockSet := 0, gotInit := false, setNext := none
    widthOut := none, message := [], codewords := 0, scrambler := 0, rxSet := 0 })).setPortState n st

/-! ### Retraining and violations -/

/-- R658, R665 to R669, R696, R697: a link enters RETRAIN. -/
def State.enterRetrain (s : State) (link : Nat) : State :=
  if link = 0 then
    if s.links.host.st = .active ∨ s.links.host.st = .resync then
      let s1 := s.modHost (fun h => { h with st := .retrain, since := s.now, gotInit := false, shaking := false, active := 0
                                             lk := { h.lk with resend := [], retryDue := false, dropping := false, offered := [] } })
      ((s1.bump 4 38 2 1).hlinkEvent).refreshStat
    else s
  else
    let n := link - 1
    if (s.fport n).st.isUp then
      let s1 := s.modFport n (fun p => { p with lk := { p.lk with resend := [], retryDue := false, dropping := false, offered := [] } })
      (s1.bump (7 + n) 42 2 1).beginTrain n .retrain
    else s

/-- R672: a violation is counted, in HEALTH and in the 1 ms window of R673. -/
def State.countViolation (s : State) (link code ptype tag : Nat) : State :=
  let k := 65536 * link + code
  let n := (assocGet s.health.violations k).getD 0
  let s1 : State := { s with health := { s.health with violations := assocPut s.health.violations k (min (n + 1) (2 ^ 24 - 1)) } }
  let known := s1.links.violations.any (fun v => v.link == link && v.code == code)
  { s1 with links := { s1.links with
      vioSince := if s1.links.violations.isEmpty then s1.now else s1.links.vioSince
      violations :=
        if known then s1.links.violations.map (fun v => if v.link = link ∧ v.code = code then { v with count := v.count + 1 } else v)
        else s1.links.violations ++ [{ link := link, code := code, count := 1, ptype := ptype, tag := tag }] } }

/-- R671, R672: a violation: counted, with the RETRAIN of PV_STORM at the sixteenth within 1 ms. -/
def State.violate (s : State) (link code ptype tag : Nat) : State :=
  let s1 := s.countViolation link code ptype tag
  let recent := (s1.links.storm.filter (fun x => decide (s1.now < x.2 + 1000000))) ++ [(link, s1.now)]
  if 16 ≤ (recent.filter (fun x => x.1 == link)).length then
    let s2 : State := { s1 with links := { s1.links with storm := recent.filter (fun x => x.1 != link) } }
    (s2.countViolation link Code.pvStorm 0 0).enterRetrain link
  else { s1 with links := { s1.links with storm := recent } }

/-- A violation of a packet. -/
def State.violatePkt (s : State) (link code : Nat) (p : List Byte) : State := s.violate link code (pktType p) (pktTag p)

/-- R643, R644: an LNAK for a packet: at most 64 wait for credit.  An OPR and a NULL slot have no tag (R618, R593). -/
def State.lnak (s : State) (link code : Nat) (p : List Byte) : State :=
  let waiting := (((s.lykel link).txq.getD 3 []).filter (fun x => pktType x.bytes == tLnak)).length
  if 64 ≤ waiting then s.bump 2 48 2 1 else
  let stamp := if pktType p = tOpr then natAt p 18 2 + 65536 * natAt p 20 2 else 0
  s.enqueue link 3 (headerSlot tLnak 0 (if pktType p = tOpr ∨ pktType p = 0 then 0 else pktTag p)
    ([BitVec.ofNat 8 (pktType p), 0] ++ natLe 2 code ++ natLe 8 stamp))

/-- R643: a CACK, with the timebase at the acceptance instant. -/
def State.cack (s : State) (ptype tag stamp : Nat) : State :=
  s.enqueue 0 3 (headerSlot tCack 0 tag ([BitVec.ofNat 8 ptype, 0] ++ natLe 2 0 ++ natLe 8 stamp))

/-! ### Flits (Table 12.2) -/

/-- The bytes of a flit: header, 240 payload bytes and CRC. -/
def flitBytes (lk : Lykel) (cvn ftype fseq ctype : Nat) (pay : List Byte) : List Byte :=
  let freed := fun v => (lk.credits.getD (4 * cvn + v) {}).freed % 4096
  let head := natLe 2 (ftype + 4 * cvn + 16 * fseq) ++
    natLe 2 ((lk.expSeq + 4095) % 4096 * b2n lk.ackv + 4096 * b2n lk.ackv) ++
    natLe 6 (freed 0 + 4096 * freed 1 + 2 ^ 24 * freed 2 + 2 ^ 36 * freed 3) ++ natLe 2 ctype
  let body := head ++ bytesAt pay 0 240
  body ++ natLe 4 (Crypto.crc32 body)

/-- The channels in the order in which a new packet is looked for: completions, control, requests, operations. -/
def channelOrder : List Nat := [2, 6, 3, 7, 1, 5, 0, 4]

/-- Packets in slots: the 16-byte slots of a packet. -/
def slotsOf (bs : List Byte) : List (List Byte) := (List.range (bs.length / 16)).map (fun i => bytesAt bs (16 * i) 16)

/-- R592, R610: the next slots of the stream: first what remains of a packet begun, then packets that credit allows. -/
def fillSlots : Nat → Lykel → List (List Byte) → Lykel × List (List Byte)
  | 0, lk, acc => (lk, acc)
  | fuel + 1, lk, acc =>
    let room := 15 - acc.length
    if room = 0 then (lk, acc)
    else if !lk.txRest.isEmpty then
      fillSlots fuel { lk with txRest := lk.txRest.drop room } (acc ++ lk.txRest.take room)
    else
      match channelOrder.find? (fun ch =>
        match (lk.txq.getD ch []).head? with
        | some p => decide (p.bytes.length / 16 ≤ (lk.credits.getD ch {}).avail)
        | none => false) with
      | none => (lk, acc)
      | some ch =>
        match lk.txq.getD ch [] with
        | [] => (lk, acc)
        | p :: rest =>
          let lk1 := { lk with txq := setAt lk.txq ch rest, txRest := slotsOf p.bytes, begun := lk.begun ++ [p] }
          fillSlots fuel (lk1.modCredit ch (fun c => { c with used := c.used + p.bytes.length / 16 })) acc

/-- True when a new DATA flit could be built. -/
def Lykel.hasData (lk : Lykel) : Bool :=
  decide (lk.unacked.length < 512) && !(fillSlots 16 lk []).2.isEmpty

/-- R615: a packet that comes to the head of its channel waits for credit from then on. -/
def headsSince (now : Nat) (before after : List OutPacket) : List OutPacket :=
  match after with
  | [] => []
  | p :: rest => (if before.length = after.length then p else { p with since := now }) :: rest

/-- The flits that a link sends next in ACTIVE: its Lykel state after, the flit's type and number, and the flit. -/
def Lykel.nextFlit (lk : Lykel) (now cvn : Nat) (width : Option (List Byte × Nat)) : Lykel × Option Nat × List Byte :=
  if lk.retryDue then
    ({ lk with retryDue := false, retryAt := now + 2000 }, none, flitBytes lk cvn 1 0 3 (natLe 2 lk.expSeq))
  else match width with
  | some (pay, ctype) => (lk, none, flitBytes lk cvn 1 0 ctype pay)
  | none =>
    match lk.resend.filterMap (fun q => lk.unacked.find? (fun f => f.fseq == q)) with
    | f :: _ =>
      ({ lk with
          resend := lk.resend.filter (fun q => q != f.fseq)
          unacked := lk.unacked.map (fun g => if g.fseq = f.fseq then { g with sentAt := now } else g) },
        some f.fseq, flitBytes lk cvn 0 f.fseq 0 f.pay)
    | [] =>
      if lk.hasData then
        let cont := !lk.txRest.isEmpty
        let r := fillSlots 16 { lk with resend := [], begun := if cont then lk.begun else [] } []
        let pay := bytesAt r.2.flatten 0 240
        let f : SentFlit := { fseq := lk.nextSeq, pay := pay, sentAt := now, parts := r.1.begun, cont := cont }
        ({ r.1 with
            txq := List.zipWith (headsSince now) lk.txq r.1.txq
            nextSeq := (lk.nextSeq + 1) % 4096, unacked := r.1.unacked ++ [f]
            begun := if r.1.txRest.isEmpty then [] else r.1.begun.drop (r.1.begun.length - 1) }, some lk.nextSeq,
          flitBytes r.1 cvn 0 lk.nextSeq 0 pay)
      else (lk, none, flitBytes lk cvn 1 0 0 [])

/-! ### Reception -/

/-- Slots that this side advertises on a channel (Tables 12.3, 13.9). -/
def ownSlots (link ch : Nat) : Nat :=
  if link = 0 then ([1280, 2048, 2048, 64] : List Nat).getD ch 0
  else ([256, 1536, 2048, 16, 256, 1536, 2048, 0] : List Nat).getD ch 0

/-- R597: a RETRY_REQ is due, and every DATA flit is dropped until the expected one is accepted. -/
def Lykel.askRetry (lk : Lykel) (now : Nat) : Lykel :=
  if lk.dropping then lk else { lk with dropping := true, retryDue := true, retryAt := now + 2000 }

/-- Ring distance from `a` to `b` modulo 4,096. -/
def seqDist (a b : Nat) : Nat := (b + 4096 - a % 4096) % 4096

/-- R600: an `ack` of `n`: none when it names a DATA flit not yet sent. -/
def Lykel.acknowledge (lk : Lykel) (now n : Nat) : Option Lykel :=
  let first := match lk.unacked with | f :: _ => f.fseq | [] => lk.nextSeq
  let d := seqDist first ((n + 1) % 4096)
  if d = 0 then some lk
  else if d ≤ lk.unacked.length then
    some { lk with unacked := lk.unacked.drop d, ackAt := now, replays := 0
                   resend := lk.resend.filter (fun q => !((lk.unacked.take d).any (fun f => f.fseq == q))) }
  else if d ≤ 2048 then none else some lk

/-- R609, R610: freed counts as received: none when they would give credit beyond the slots advertised. -/
def Lykel.takeFreed (lk : Lykel) (ch v : Nat) : Option Lykel :=
  let c := lk.credits.getD ch {}
  let f := c.partnerFreed + seqDist c.partnerFreed v
  if c.used < f then none else some (lk.modCredit ch (fun c => { c with partnerFreed := f }))

/-- R598: the flits to resend from `rseq`: none where it lies outside the unacknowledged range. -/
def Lykel.replay (lk : Lykel) (rseq : Nat) : Option Lykel :=
  if lk.unacked.any (fun f => f.fseq == rseq) then
    let fs := (lk.unacked.map (·.fseq)).dropWhile (fun q => q != rseq)
    some { lk with resend := fs, replayFrom := rseq, replays := if lk.replayFrom = rseq then lk.replays + 1 else 1 }
  else none

/-- HEALTH: LINK_CRC, LINK_REPLAY and LINK_DUP of a link (Table 16.10). -/
def State.bumpCrc (s : State) (link : Nat) : State := if link = 0 then s.bump 4 24 4 1 else s.bump (6 + link) 34 2 1
def State.bumpReplay (s : State) (link : Nat) : State := if link = 0 then s.bump 4 28 4 1 else s.bump (6 + link) 36 2 1
def State.bumpDup (s : State) (link : Nat) : State := if link = 0 then s.bump 4 32 2 1 else s.bump (6 + link) 38 2 1

/-- Table 12.13: what is wrong with a header slot of a type that reaches this link, before its data arrive. -/
def headerFault (link : Nat) (h : List Byte) : Option Nat :=
  let t := pktType h
  match vcOfType t with
  | none => some Code.pvPtype
  | some vc =>
    if link = 0 ∧ (t = tRwr ∨ t = tCack ∨ t = tLnak) then some Code.pvDir
    else if link ≠ 0 ∧ 0x30 ≤ t ∧ t ≤ 0x35 then some Code.pvCtrlPeer
    else if link ≠ 0 ∧ vc = 3 ∧ (t ≠ tLnak ∨ pktVn h = 1) then some Code.pvVn
    else if t = tCpld then (if 34 < pktNsl h then some Code.pvLen else none)
    else if pktNsl h ≠ nslExpected h then some Code.pvLen
    else none

/-- The requester of a request that arrived on a link is answered with a completion: on the host link itself, or routed to `sdev`. -/
def State.sendToRequester (s : State) (link sdev : Nat) (p : List Byte) : State :=
  if link = 0 then s.enqueue 0 2 p
  else { s with links := { s.links with
          held := s.links.held ++ [{ bytes := p, arrived := 0, vc := 2, dest := sdev, since := s.now }] } }

/-- Table 12.12, DISCARD: a request draws a CPL with REQ_BAD, any other packet an LNAK. -/
def State.discard (s : State) (link code : Nat) (p : List Byte) : State :=
  let s1 := s.violatePkt link code p
  if isRequest p && code != Code.pvDir then
    (s1.bump 4 (40 + 2 * (Code.stReqBad - 1)) 2 1).sendToRequester link (reqSdev p)
      (cplPacket (pktTag p) Code.stReqBad code (if link = 0 then 0 else reqSdev p))
  else s1.lnak link code p

/-- R13, R643, Table 12.9, R738: an LNAK from a peer is taken as it arrives, and its slot is free again: it asks nothing of the device.  One with
a reserved field that is not zero is a violation. -/
def State.takeLnak (s : State) (link : Nat) (p : List Byte) : State :=
  let s1 := s.modLykel link (fun lk => lk.modCredit (chanOf link p) (fun c => { c with freed := c.freed + 1 }))
  if byteAt p 1 / 64 != 0 || byteAt p 3 / 16 != 0 || byteAt p 5 != 0 then s1.discard link Code.pvPktRsvd p else s1

/-- R591 to R593, R611: one received slot joins the slot stream. -/
def State.rxSlot (s : State) (link : Nat) (slot : List Byte) : State :=
  let lk := s.lykel link
  if 0 < lk.rxSkip then s.modLykel link (fun lk => { lk with rxSkip := lk.rxSkip - 1 })
  else if 0 < lk.rxNeed then
    let p := lk.rxPart ++ slot
    if lk.rxNeed = 1 then
      s.modLykel link (fun lk => { lk with rxPart := [], rxNeed := 0, rxq := lk.rxq ++ [(chanOf link p, p)] })
    else s.modLykel link (fun lk => { lk with rxPart := p, rxNeed := lk.rxNeed - 1 })
  else if pktType slot = 0 then
    (if slot.all (· == 0) then s else s.discard link Code.pvLen slot)
  else
    let n := 1 + pktNsl slot
    let ch := chanOf link slot
    match headerFault link slot with
    | some code =>
      -- The packet is skipped, and the slots that its sender used are freed.
      let s1 := s.modLykel link (fun lk => { lk with rxSkip := pktNsl slot })
      (if (vcOfType (pktType slot)).isSome then s1.modLykel link (fun lk => lk.modCredit ch (fun c => { c with freed := c.freed + n }))
        else s1).discard link code slot
    | none =>
      let s1 := s.modLykel link (fun lk => lk.modCredit ch (fun c => { c with held := c.held + n }))
      if pktType slot = tLnak then s.takeLnak link slot
      else if n = 1 then s1.modLykel link (fun lk => { lk with rxq := lk.rxq ++ [(ch, slot)] })
      else s1.modLykel link (fun lk => { lk with rxPart := slot, rxNeed := n - 1 })

/-- Table 12.13, PV_OVERRUN: the header of the first packet of a flit's slots for which no slots are left. -/
def Lykel.overrun (link : Nat) : Lykel → List (List Byte) → Option (List Byte)
  | _, [] => none
  | lk, slot :: rest =>
    if 0 < lk.rxSkip then Lykel.overrun link { lk with rxSkip := lk.rxSkip - 1 } rest
    else if 0 < lk.rxNeed then Lykel.overrun link { lk with rxNeed := lk.rxNeed - 1 } rest
    else if pktType slot = 0 then Lykel.overrun link lk rest
    else if (headerFault link slot).isSome then Lykel.overrun link { lk with rxSkip := pktNsl slot } rest
    else if ownSlots link (chanOf link slot) < (lk.credits.getD (chanOf link slot) {}).held + 1 + pktNsl slot then some slot
    else if pktType slot = tLnak then Lykel.overrun link lk rest
    else Lykel.overrun link
      { lk.modCredit (chanOf link slot) (fun c => { c with held := c.held + 1 + pktNsl slot }) with rxNeed := pktNsl slot } rest

/-! ### The handshake (Table 12.11, R661 to R668) -/

/-- The link may exchange INIT now: HANDSHAKE, RESYNC or RETRAIN, with a medium to carry it. -/
def State.inHandshake (s : State) (link : Nat) : Bool :=
  if link = 0 then
    let h := s.links.host
    decide (h.active ≠ 0) && (h.st == .handshake || h.st == .resync || (h.st == .retrain && h.shaking))
  else
    let p := s.fport (link - 1)
    p.st == .handshake || (p.st == .resync && decide (2 ≤ p.locks)) || (p.st == .retrain && p.phase == .handshake)

/-- The link carries traffic. -/
def State.linkActive (s : State) (link : Nat) : Bool :=
  if link = 0 then s.links.host.st == .active else (s.fport (link - 1)).st == .active

/-- A handshake of this link is an initial one (R664, R849). -/
def State.initial (s : State) (link : Nat) : Bool :=
  if link = 0 then !s.links.host.wasActive else !(s.fport (link - 1)).wasActive

/-- True when the handshake in progress is that of RESYNC. -/
def State.resyncing (s : State) (link : Nat) : Bool :=
  if link = 0 then s.links.host.st == .resync else (s.fport (link - 1)).st == .resync

/-- R661, R664, R668: the first INIT of a handshake offers the slots that are free at that instant; but in RESYNC the freed counts restart. -/
def Lykel.offer (lk : Lykel) (link : Nat) (resync : Bool) : Lykel :=
  { lk with
    offered := (List.range 8).map (fun ch => ownSlots link ch - (lk.credits.getD ch {}).held)
    credits := if resync then lk.credits else lk.credits.map (fun c => { c with freed := 0 }) }

/-- Table 12.11: the INIT payload that this side sends. -/
def State.initPayload (s : State) (link : Nat) : List Byte :=
  let lk := s.lykel link
  let adv := fun ch => lk.offered.getD ch 0
  [1, BitVec.ofNat 8 (2 * b2n (!s.initial link)), BitVec.ofNat 8 (if link = 0 then s.links.host.active else 1), BitVec.ofNat 8 s.devId] ++
  ((List.range 4).map (fun v => natLe 2 (adv v))).flatten ++ natLe 2 lk.expSeq ++
  [BitVec.ofNat 8 Config.member, 0xB0,
   BitVec.ofNat 8 (b2n s.straps.sealLocal + 2 * b2n s.straps.pselLink + 4 * b2n s.sealKey.isSome), 0] ++
  (if link = 0 then [] else ((List.range 4).map (fun v => natLe 2 (adv (4 + v)))).flatten)

/-- The advertised slots of an INIT by channel (R608 caps them on the host link). -/
def initAdv (link : Nat) (flit : List Byte) (ch : Nat) : Nat :=
  let off := if ch < 4 then 16 + 2 * ch else 30 + 2 * (ch - 4)
  if link = 0 then (if ch < 4 then min 2048 (natAt flit off 2) else 0) else natAt flit off 2

/-- A handshake completes: the link enters ACTIVE (R661); the queues it held go on.  What bring-up does then is the caller's. -/
def Lykel.afterInit (lk : Lykel) (link : Nat) (flit : List Byte) (initial resync : Bool) : Lykel :=
  let nexp := natAt flit 24 2 % 4096
  if initial then
    { ({} : Lykel) with
      txq := lk.txq, txRest := lk.txRest, begun := lk.begun, rxq := lk.rxq
      credits := (List.range 8).map (fun ch =>
        let c := lk.credits.getD ch {}
        ({ adv := initAdv link flit ch, held := c.held, freed := c.freed } : Credit))
      offered := lk.offered }
  else
    let first := match lk.unacked with | f :: _ => f.fseq | [] => lk.nextSeq
    let d := seqDist first nexp
    let kept := if d ≤ lk.unacked.length then lk.unacked.drop d else lk.unacked
    let lk1 := { lk with unacked := kept, resend := kept.map (·.fseq), dropping := false, retryDue := false, replays := 0 }
    if resync then lk1
    else { lk1 with credits := lk1.credits.zipIdx.map (fun (x : Credit × Nat) =>
        { x.1 with adv := initAdv link flit x.2, partnerFreed := 0, used := 0 }) }

end Sys2Proof.Machine
end

