-- ==== Sys2Proof/Machine/Links.lean ====
section
/-! DEFINITION. Machine/Links.lean: requests that the device sends and their completions (§12.7, §10.3), requests that arrive
(Table 10.4), and the forwarding of packets between fabric ports (§13.6, §13.8). -/
namespace Sys2Proof.Machine

/-! ### Answers to requesters (R628 to R632, R705) -/

/-- R488: an error completion is counted by its status. -/
def State.countStatus (s : State) (st : Nat) : State := if st = 0 then s else s.bump 4 (40 + 2 * (st - 1)) 2 1

/-- A CPL with a status answers a request. -/
def State.answerCpl (s : State) (link tag sdev st : Nat) : State :=
  (s.countStatus st).sendToRequester link sdev (cplPacket tag st 0 (if link = 0 then 0 else sdev))

/-- R628, R629: the pieces of a read's answer: offset, length and whether the piece is a poisoned chunk. -/
def readPieces (spa len : Nat) (bad : List Nat) : Nat → Nat → List (Nat × Nat × Bool)
  | 0, _ => []
  | fuel + 1, off =>
    if len ≤ off then [] else
    let a := spa + off
    if bad.contains (a / 64 * 64) then
      let n := min (len - off) (64 - a % 64)
      (off, n, true) :: readPieces spa len bad fuel (off + n)
    else
      let stop := minD (spa + len) ((bad.filter (fun c => decide (a < c) && decide (c < spa + len))).map id)
      let n := min 512 (stop - a)
      (off, n, false) :: readPieces spa len bad fuel (off + n)

/-- R628, R629: a read is answered. -/
def State.answerRead (s : State) (link tag sdev spa : Nat) (data : List Byte) (bad : List Nat) : State :=
  let ps := readPieces spa data.length bad (data.length + 1) 0
  ps.zipIdx.foldl (fun s x =>
    let off := x.1.1
    let n := x.1.2.1
    let poison := x.1.2.2
    let ddev := if link = 0 then 0 else sdev
    let bytes := if poison then List.replicate n 0 else bytesAt data off n
    (s.countStatus (if poison then Code.stPoison else 0)).sendToRequester link sdev
      (cpldPacket tag (if poison then Code.stPoison else Code.stOk) (x.2 + 1 == ps.length) spa off ddev bytes)) s

/-! ### The end of a transaction -/

/-- The 64-byte chunks of a byte range. -/
def chunksOf (spa len : Nat) : List Nat := (List.range ((spa % 64 + len + 63) / 64)).map (fun i => spa / 64 * 64 + 64 * i)

/-- Table 16.6: WRITE_REFUSED. -/
def refusedPayload (seq opc st spa : Nat) : List Byte :=
  natLe 2 seq ++ [BitVec.ofNat 8 opc, BitVec.ofNat 8 st] ++ natLe 12 0 ++ natLe 7 spa

/-- R485, R486, R547, R631, R632: a transaction ends with a status: its data go to whoever asked. -/
def State.endTxn (s : State) (t : Txn) (data : List Byte) (bad : List Nat) (st : Nat) : State :=
  let isRead := t.kind == .read
  -- R1034: the response channel's cycles.
  let s1 := (s.modFabric (fun f => { f with
      txns := f.txns.filter (fun x => x.id != t.id)
      respPtrs := setAt f.respPtrs t.master ((t.target + 1) % 7) })).chargeCore
    (8 * (if isRead && st == 0 then ((chunksOf t.spa t.len).length + 7) / 8 else 1))
  let data := if st = 0 then data else List.replicate t.len 0
  let bad := if st = 0 then bad else chunksOf t.spa t.len
  let got : Got := { owner := t.owner, spa := t.spa, data := data, bad := bad, st := st }
  match t.owner with
  | .op c =>
    if isRead then s1.modFabric (fun f => { f with got := f.got ++ [got] })
    else if st = 0 then s1
    else s1.contextEvent c Code.writeRefused (refusedPayload t.seq t.opc st t.spa)
  | .walk _ _ => s1.modFabric (fun f => { f with got := f.got ++ [got] })
  | .record _ => if isRead then s1.modFabric (fun f => { f with got := f.got ++ [got] }) else if st = 0 then s1 else s1.recordLost 1
  | .device => if isRead || st == 0 then s1 else s1.recordLost 1
  | .aborted _ => s1
  | .transit _ _ => s1
  | .inbound link tag _ sdev =>
    if st ≠ 0 then s1.answerCpl link tag sdev st
    else match t.kind with
    | .read => s1.answerRead link tag sdev t.spa data bad
    | .write => s1.answerCpl link tag sdev Code.stOk
    | _ => s1.sendToRequester link sdev (cpldPacket tag Code.stOk true t.spa 0 (if link = 0 then 0 else sdev) data)

/-! ### Requests that this device sends (R621 to R627, R704) -/

/-- R627: a tag that no outstanding request carries and that is not held. -/
def State.freeTag (s : State) : Option Nat :=
  (List.range 4096).find? (fun t => !(s.links.out.any (fun r => r.tag == t)) && !(s.links.tagHold.any (fun h => h.2.1 == t)))

/-- The packet type of a transaction (Table 12.5, R637). -/
def Txn.pktType (t : Txn) (host : Bool) : Nat :=
  match t.kind with
  | .read => tMrd
  | .write =>
    match t.owner with
    | .record _ => if host then tRwr else tMwr
    | .device => if host then tRwr else tMwr
    | .inbound _ _ pt _ => if pt = tRwr then tRwr else tMwr
    | _ => tMwr
  | .fetchAdd _ => tMfa
  | .compareSwap _ _ => tMcs

/-- Table 12.6: `rkind` of a record that this device writes. -/
def Txn.recordKind (t : Txn) : Nat :=
  match t.owner with
  | .inbound _ _ _ _ => t.rkind
  | _ => if t.len = 64 then 0 else if t.len = 32 then 1 else if t.master = masterSre then 3 else 2

/-- The data of a request packet. -/
def Txn.pktData (t : Txn) : List Byte :=
  match t.kind with
  | .read => []
  | .write => t.data
  | .fetchAdd x => natLe 8 x
  | .compareSwap c w => natLe 8 c ++ natLe 8 w

/-- R515, R535, R621: the parts that one transaction is sent as, each an offset from its first byte and a length: a write takes several MWR
of at most 512 bytes, cut where no 64-byte chunk is. -/
def Txn.parts (t : Txn) : List (Nat × Nat) :=
  if t.isWrite then (List.range ((t.spa % 64 + t.len + 511) / 512)).map (fun i =>
    (512 * i - t.spa % 64, min (512 * (i + 1) - t.spa % 64) t.len - (512 * i - t.spa % 64)))
  else [(0, t.len)]

/-- R535: the first byte and the bytes that the packet of a part names: a read names its whole burst. -/
def Txn.named (t : Txn) (part : Nat × Nat) : Nat × Nat := if t.kind == .read then (t.burstSpa, t.burstLen) else (t.spa + part.1, part.2)

/-- The slots that the request packets of a transaction take. -/
def Txn.slots (t : Txn) : Nat :=
  (t.parts.map (fun p => if t.isWrite then 1 + ((t.spa + p.1) % 16 + p.2 + 15) / 16 else 1 + (t.pktData.length + 15) / 16)).foldl (· + ·) 0

/-- R727: a request of this device is ordered in the fabric: a record write, or a request that arrived with `ord` 1. -/
def Txn.ordered (t : Txn) : Bool := t.pktType (bitAt t.spa 51) == tRwr || t.ord.isSome

/-- The stream of this device to `d` (R729). -/
def State.stream (s : State) (d : Nat) : Stream := (s.links.streams.find? (fun x => x.dest == d)).getD { dest := d }

/-- The stream of this device to a destination changed; it is made when it is first used. -/
def State.modStream (s : State) (d : Nat) (f : Stream → Stream) : State :=
  let known := s.links.streams.any (fun x => x.dest == d)
  { s with links := { s.links with streams :=
      if known then s.links.streams.map (fun x => if x.dest = d then f x else x)
      else s.links.streams ++ [f { dest := d, epoch := s.links.epochs.getD d 0 }] } }

/-- A request packet as a fabric port sends it: virtual network, turned aside, and route epoch (Table 13.8). -/
def withHop (p : List Byte) (vn : Nat) (altd : Bool) (repoch : Option Nat) : List Byte :=
  let b1 := byteAt p 1 % 64 + 64 * vn + 128 * b2n altd
  let b3 := match repoch with | some e => byteAt p 3 % 16 + 16 * e | none => byteAt p 3
  (p.take 1) ++ [BitVec.ofNat 8 b1] ++ ((p.drop 2).take 1) ++ [BitVec.ofNat 8 b3] ++ p.drop 4

/-- R718: the choice for a destination of a packet that arrived on link `a` (0 for one from inside): the port, and whether it is a
turn aside and an `alt` port. -/
def State.route (s : State) (d a : Nat) : Option (Nat × Bool × Bool) :=
  let r := s.profile.routes.getD d {}
  let up := fun n => (s.fport n).st.isUp
  if r.v && up r.pri && r.pri + 1 != a then some (r.pri, false, false)
  else if r.v && r.altv && up r.alt && r.alt + 1 != a then some (r.alt, !(up r.pri && r.pri + 1 == a), true)
  else none

/-- One part of a transaction is sent on a link. -/
def State.sendPart (s : State) (t : Txn) (link vn : Nat) (turn : Bool) (part : Nat × Nat) : State :=
  match s.freeTag with
  | none => s
  | some tag =>
    let host := link == 0
    let pt := t.pktType (bitAt t.spa 51)
    let d := spaDev t.spa
    let spa := (t.named part).1
    let size := (t.named part).2
    let data := if t.isWrite then bytesAt t.data part.1 part.2 else t.pktData
    let ord := if host then t.ord else if t.ord.isSome then some (t.ord.getD 0) else none
    let base := requestPacket pt tag spa size ord (if host then 0 else s.devId) (if pt = tRwr then t.recordKind else 0) data
    let ordered := !host && t.ordered
    let epoch := if ordered then (s.stream d).epoch else s.links.epochs.getD d 0
    let pkt := if host then base else withHop base vn turn (some epoch)
    let s1 := s.enqueue link (if host then 1 else 4 * vn + 1) pkt
    let s2 : State := { s1 with links := { s1.links with out := s1.links.out ++
      [{ tag := tag, link := link, ptype := pt, spa := spa, size := size, txn := t.id, sentAt := s1.now
         stream := if ordered then some d else none }] } }
    if ordered then s2.modStream d (fun x => { x with open_ := x.open_ ++ [(tag, x.epoch)] }) else s2

/-- A granted transaction goes out on a link. -/
def State.sendTxn (s : State) (t : Txn) (link vn : Nat) (turn : Bool) : State :=
  let s1 := s.modFabric (fun f => { f with txns := f.txns.map (fun x => if x.id = t.id then { x with state := .sent, atPort := false } else x) })
  t.parts.foldl (fun s p => s.sendPart t link vn turn p) s1

/-- The path of a transaction at target FPO: the port and channel data of R718 and R719. -/
def State.fpoPath (s : State) (t : Txn) : Option (Nat × Nat × Bool) :=
  (s.route (spaDev t.spa) 0).map (fun r => (r.1, if r.2.2 then 1 else 0, r.2.1))

/-- A request of another device that crosses from FPI to FPO. -/
def Txn.isTransit (t : Txn) : Bool := match t.owner with | .transit _ _ => true | _ => false

/-- R549: a request is eligible at HLO or FPO: the link is ACTIVE with credit and tags for it, or it is to end at once.  A transit request
waits for its credit among the held packets of §13.6 (DESIGN CHOICE, log entry 60). -/
def State.outEligible (s : State) (t : Txn) : Bool :=
  if t.target = 4 then
    s.links.host.st == .failed ||
      (s.links.host.st == .active && s.links.host.lk.room 1 t.slots && s.freeTag.isSome)
  else if t.isTransit then true
  else
    match s.fpoPath t with
    | none => true
    | some (n, vn, _) =>
      s.linkActive (n + 1) && (s.fport n).lk.room (4 * vn + 1) t.slots && s.freeTag.isSome && !(t.ordered && (s.stream (spaDev t.spa)).holding)

/-- R718, R722: a packet waits to be forwarded. -/
def State.holdPacket (s : State) (h : Held) : State := { s with links := { s.links with held := s.links.held ++ [h] } }

/-- R475, R532, R670, R720: a transaction is granted at HLO or FPO; a transit request joins the held packets. -/
def State.grantOut (s : State) (t : Txn) : State :=
  if t.target = 4 then
    (if s.links.host.st = .failed then s.endTxn t [] [] Code.stHostRefused else s.sendTxn t 0 0 false)
  else match t.owner with
  | .transit link since =>
    (s.modFabric (fun f => { f with txns := f.txns.filter (fun x => x.id != t.id) })).holdPacket
      { bytes := t.data, arrived := link, vc := chanOf link t.data, dest := spaDev t.spa, since := since }
  | _ =>
    match s.fpoPath t with
    | none => (s.bump 4 56 2 1).endTxn t [] [] Code.stUnroutable
    | some (n, vn, turn) => s.sendTxn t (n + 1) vn turn

/-! ### Completions that arrive (R613, R628 to R632, R641) -/

/-- A request leaves the outstanding ones; its stream moves on (R729). -/
def State.closeOut (s : State) (r : OutReq) (st : Nat) : State :=
  let s1 : State := { s with links := { s.links with out := s.links.out.filter (fun x => x.tag != r.tag) } }
  match r.stream with
  | none => s1
  | some d =>
    let s2 := s1.modStream d (fun x => { x with open_ := x.open_.filter (fun o => o.1 != r.tag) })
    if st = 0 then s2 else s2.advanceStream d

/-- A request has its last completion: its transaction ends once every part of it has (R547). -/
def State.finishOut (s : State) (r : OutReq) (data : List Byte) (bad : List Nat) (st : Nat) : State :=
  let s1 := s.closeOut r (if bad.isEmpty then st else Code.stPoison)
  match s1.fabric.txns.find? (fun t => t.id == r.txn) with
  | none => s1
  | some t =>
    if t.isWrite then
      let st1 := if t.st = 0 then st else t.st
      if s1.links.out.any (fun x => x.txn == t.id) then
        s1.modFabric (fun f => { f with txns := f.txns.map (fun x => if x.id = t.id then { x with st := st1 } else x) })
      else s1.endTxn t [] [] st1
    else s1.endTxn t (if t.kind == .read then bytesAt data (t.spa % 64) t.len else data) bad st

/-- R1029, R1035: whose access a transaction of a context is: that of the operation that runs, of an internal routine, or of an operation
that has completed, which no routine meets any more. -/
def State.metBy (s : State) (t : Txn) (c : Nat) (i : FaultInfo) : FaultInfo :=
  if t.opc = 0x82 ∨ t.opc = 0x83 then { i with routine := some t.opc }
  else match (s.entry c).headOp with
    | some op => if seqOf op.pkt = t.seq ∧ opcOf op.pkt = t.opc then i else { i with unmet := true }
    | none => { i with unmet := true }

/-- Table 12.12, FAULT (R1018): the context on whose behalf the request was made faults; a request of no context ends as with
HOST_REFUSED. -/
def State.faultOut (s : State) (r : OutReq) (code : Nat) : State :=
  let fault := fun (i : Nat → FaultInfo → FaultInfo) (c lvl : Nat) (w : Bool) (va : Nat) =>
    let s1 := s.closeOut r Code.stHostRefused
    let s2 := s1.modFabric (fun f => { f with txns := f.txns.filter (fun x => x.id != r.txn) })
    s2.faultContext c (i c { code := Code.reqFault, aux := code, spa := r.spa, lvl := lvl, write := w, va := va })
  match s.fabric.txns.find? (fun t => t.id == r.txn) with
  | some t =>
    match t.owner with
    | .op c => fault (s.metBy t) c 0 t.isWrite t.va
    | .aborted c => fault (fun _ i => { i with unmet := true }) c 0 t.isWrite t.va
    | .walk c va => fault (fun _ i => i) c t.seq false va
    | _ => s.finishOut r [] [] Code.stHostRefused
  | none => s.closeOut r Code.stHostRefused

/-- The outstanding request that a completion on a link answers. -/
def State.outOf (s : State) (link tag : Nat) : Option OutReq :=
  s.links.out.find? (fun r => r.tag == tag && ((r.link == 0) == (link == 0)))

/-- R640, Table 12.13: the status of a completion, with an unlawful one taken as HOST_REFUSED. -/
def State.takeStatus (s : State) (link : Nat) (p : List Byte) : State × Nat :=
  let st := cplSt p
  let lawful := if link = 0 then st == 0 || st == Code.stPoison || st == Code.stHostRefused else decide (st ≤ 8)
  if lawful then (s, st) else (s.violatePkt link Code.pvCplStatus p, Code.stHostRefused)

/-- Table 12.7: the reserved bits and values of a completion: a CPL gives 0 in `boff` and `cnt`, a CPLD carries 1 to 512 bytes. -/
def cplReserved (link : Nat) (p : List Byte) : Bool :=
  (link == 0 && byteAt p 1 / 64 != 0) || (bitsAt (byteAt p 3) 4 4 != 0 && link == 0) || byteAt p 5 / 2 != 0 ||
  natAt p 6 2 / 4096 != 0 || natAt p 8 2 / 1024 != 0 || (natAt p 10 2 != 0 && cplSt p != Code.stReqBad) ||
  (if link = 0 then natAt p 12 4 != 0 else natAt p 12 4 / 128 != 0) ||
  (if pktType p = tCpl then cplBoff p != 0 || cplCnt p != 0 else cplCnt p == 0 || decide (512 < cplCnt p))

/-- R630, R631: a CPL answers its request. -/
def State.takeCpl (s : State) (link : Nat) (p : List Byte) : State :=
  match s.outOf link (pktTag p) with
  | none => s.violatePkt link Code.pvCplTag p
  | some r =>
    let x := s.takeStatus link p
    let write := r.ptype == tMwr || r.ptype == tRwr
    let read := r.ptype == tMrd
    -- R630: no status OK without the data asked for, no POISON of a read without its bytes, and no CPL after a CPLD.
    if !cplLast p || (!write && x.2 == 0) || (read && (x.2 == Code.stPoison || !r.got.isEmpty)) then
      (x.1.violatePkt link Code.pvCplLen p).faultOut r Code.pvCplLen
    else x.1.finishOut r [] [] x.2

/-- R628, R629, R632: a CPLD answers its request, or a part of it. -/
def State.takeCpld (s : State) (link : Nat) (p : List Byte) : State :=
  match s.outOf link (pktTag p) with
  | none => s.violatePkt link Code.pvCplTag p
  | some r =>
    let st := cplSt p
    let off := cplBoff p
    let n := cplCnt p
    let data := pktData p ((r.spa + off) % 16) n
    let got := r.got ++ data.zipIdx.map (fun x => (off + x.2, x.1))
    let bad := if st = Code.stPoison then r.bad ++ chunksOf (r.spa + off) n else r.bad
    let atomic := r.ptype == tMfa || r.ptype == tMcs
    let bytes := if r.ptype = tMrd then r.size else 8
    let fits := (r.ptype == tMrd || atomic) && (st == 0 || (st == Code.stPoison && !atomic)) && decide (off + n ≤ bytes) &&
      !(r.got.any (fun x => decide (off ≤ x.1) && decide (x.1 < off + n))) && (cplLast p || !atomic) &&
      (!cplLast p || got.length == bytes)
    if pktNsl p ≠ nslCpld r.spa off n then s.discard link Code.pvLen p
    else if !fits then (s.violatePkt link Code.pvCplLen p).faultOut r Code.pvCplLen
    else if cplLast p then
      let all := (List.range bytes).map (fun i => (got.find? (fun x => x.1 == i)).elim 0 (·.2))
      s.finishOut r all bad 0
    else { s with links := { s.links with out := s.links.out.map (fun x => if x.tag = r.tag then { x with got := got, bad := bad } else x) } }

/-! ### Forwarding (§13.6, §13.8) -/

/-- A packet leaves its receive queue with its slots still held. -/
def State.unqueue (s : State) (link : Nat) (p : List Byte) : State :=
  s.modLykel link (fun lk =>
    match lk.rxq.find? (fun x => x.1 == chanOf link p) with
    | some x => if x.2 = p then { lk with rxq := lk.rxq.erase x } else lk
    | none => lk)

/-- A packet that arrived on a fabric port for another device, or an OPR from the host for one, waits to be forwarded. -/
def State.hold (s : State) (link : Nat) (p : List Byte) (dest : Nat) : State :=
  let s1 := s.unqueue link p
  s1.holdPacket { bytes := p, arrived := link, vc := chanOf link p, dest := dest, since := s1.now }

/-- The slots of a held packet are freed on the link on which it arrived (R612). -/
def State.freeHeld (s : State) (h : Held) : State :=
  if h.freed then s
  else if h.arrived ≠ 0 then s.freeSlots h.arrived h.vc (h.bytes.length / 16)
  else if pktType h.bytes = tOpr then s.freeSlots 0 0 (h.bytes.length / 16)
  else s

/-- A held packet leaves the list. -/
def State.dropHeld (s : State) (h : Held) : State :=
  ({ s with links := { s.links with held := s.links.held.erase h } }).freeHeld h

/-- R721, R735, Table 13.12: a packet that arrived on a link (0 the host link or inside) is discarded, counted under a reason of
R720 and answered. -/
def State.discardPacket (s : State) (p : List Byte) (arrived reason : Nat) : State :=
  let s1 := s.bump 4 (56 + 2 * (reason - 1)) 2 1
  if isRequest p then
    if reqSdev p = s1.devId then
      match s1.links.out.find? (fun r => r.tag == pktTag p && r.link != 0) with
      | some r => s1.finishOut r [] [] Code.stUnroutable
      | none => s1
    else s1.answerCpl 1 (pktTag p) (reqSdev p) Code.stUnroutable
  else if pktType p = tOpr ∧ arrived = 0 then s1.discard 0 Code.pvUnroutable p     -- R735
  else if pktType p = tOpr then
    s1.deviceEvent Code.oprUnrouted none (natLe 2 (natAt p 18 2) ++ natLe 2 (natAt p 20 2) ++ [BitVec.ofNat 8 (arrived - 1)])
  else s1

/-- R721: a held packet is discarded. -/
def State.discardHeld (s : State) (h : Held) (reason : Nat) : State := (s.dropHeld h).discardPacket h.bytes h.arrived reason

/-- R727, R731: the sending device of the stream of a held packet.  An OPR names none: its port of arrival stands for it (DEDUCED, log entry
33). -/
def Held.sender (h : Held) : Nat := if pktType h.bytes = tOpr then h.arrived else reqSdev h.bytes

/-- R731: the pin of an ordered packet that is forwarded. -/
def State.pinOf (s : State) (h : Held) : Option Pin :=
  let p := h.bytes
  s.links.pins.find? (fun x => x.vc == (vcOfType (pktType p)).getD 0 && x.sender == h.sender && x.dest == h.dest && x.repoch == pktRepoch p)

/-- What a held packet can do now. -/
inductive Forward where
  | wait
  | send (port : Nat) (alt turn : Bool)
  | drop (reason : Nat)
  deriving DecidableEq, Repr

/-- R718 to R722, R731, R732: the choice for a held packet. -/
def State.forwardChoice (s : State) (h : Held) : Forward :=
  let pinned := isOrdered h.bytes && h.arrived != 0
  let r := s.profile.routes.getD h.dest {}
  match (match h.waitsFor with | some n => some n | none => if pinned then (s.pinOf h).map (·.port) else none) with
  | some n =>
    if (s.fport n).st.isUp then
      let alt := r.altv && r.alt == n && r.pri != n
      .send n alt (alt && !((s.fport r.pri).st.isUp && r.pri + 1 == h.arrived) && !pktAltd h.bytes)
    else .wait
  | none =>
    match s.route h.dest h.arrived with
    | none => .drop (if r.v && (s.fport r.pri).st.isUp then 3 else 1)
    | some (n, turn, alt) =>
      if turn && pktAltd h.bytes then .drop 2
      else if pinned && decide (1024 ≤ s.links.pins.length) then .wait
      else .send n alt turn

/-- R719: the virtual network on which a packet leaves. -/
def State.vnOut (s : State) (h : Held) (alt : Bool) : Nat :=
  let globalIn := h.arrived != 0 && (s.profile.portCfg.getD (h.arrived - 1) {}).global
  if (h.arrived != 0 && decide (4 ≤ h.vc)) || globalIn || alt then 1 else 0

/-- A held packet leaves on a port (R719, R728 to R731). -/
def State.sendHeld (s : State) (h : Held) (n : Nat) (alt turn : Bool) : State :=
  let vn := s.vnOut h alt
  let vc := (vcOfType (pktType h.bytes)).getD 0
  let inside := h.arrived = 0
  let stamp := if inside ∧ h.waitsFor = none then some (if isOrdered h.bytes && isRequest h.bytes then (s.stream h.dest).epoch else s.links.epochs.getD h.dest 0)
               else none
  let p := withHop h.bytes vn (turn || pktAltd h.bytes) stamp
  let s1 := (s.dropHeld h).enqueueHeld (n + 1) (4 * vn + vc) p h
  if isOrdered h.bytes && h.arrived != 0 then
    match s.pinOf h with
    | some pin =>
      { s1 with links := { s1.links with pins := s1.links.pins.map (fun x => if x = pin then { x with lastLeft := s1.now } else x) } }
    | none =>
      { s1 with links := { s1.links with pins := s1.links.pins ++
        [{ vc := vc, sender := h.sender, dest := h.dest, repoch := pktRepoch h.bytes, port := n, lastLeft := s1.now }] } }
  else s1

/-- The first held packet that can leave, on a port that is ACTIVE, or must be discarded, in the order in which packets arrived (R722). -/
def State.nextForward (s : State) : List Held → List (Nat × Nat × Nat) → Option (Held × Forward)
  | [], _ => none
  | h :: rest, blocked =>
    match s.forwardChoice h with
    | .drop r => some (h, .drop r)
    | .wait => s.nextForward rest blocked
    | .send n alt turn =>
      let key := (h.arrived, h.vc, n)
      let ch := 4 * s.vnOut h alt + (vcOfType (pktType h.bytes)).getD 0
      if !blocked.contains key && s.linkActive (n + 1) && (s.fport n).lk.room ch (h.bytes.length / 16) then some (h, .send n alt turn)
      else s.nextForward rest (key :: blocked)

/-- PACKET_FORWARD (R718 to R722, R728 to R732). -/
def execPacketForward (s : State) : Out :=
  .next (match s.nextForward s.links.held [] with
    | some (h, .send n alt turn) => s.sendHeld h n alt turn
    | some (h, .drop r) => s.discardHeld h r
    | _ => s)

/-- FORWARD_HOLD_EXPIRY (R720, R721): the packet held longest has been held for 1 ms. -/
def execForwardHoldExpiry (s : State) : Out :=
  .next (match s.links.held with
    | [] => s
    | h :: _ => (s.advanceTo (h.since + 1000000)).discardHeld h 4)

/-- PIN_LAPSE (R731): 10 ms after its last packet has left, a pin lapses. -/
def execPinLapse (index : Nat) (s : State) : Out :=
  .next (match s.links.pins.drop index with
    | [] => s
    | p :: _ =>
      let s1 := s.advanceTo (p.lastLeft + 10000000)
      { s1 with links := { s1.links with pins := s1.links.pins.erase p } })

/-- STREAM_EPOCH_RESUME (R729): every packet of the earlier epochs has its completion. -/
def execStreamEpochResume (dest : Nat) (s : State) : Out :=
  if 128 ≤ dest then .fault (.noSuchUnit "device" dest) else
  .next (s.modStream dest (fun x => if x.open_.isEmpty then { x with holding := false } else x))

/-! ### Requests that arrive (Table 10.4, Table 12.13) -/

/-- Tables 12.6 and 13.8: the reserved bits of a request. -/
def reqReserved (link : Nat) (p : List Byte) : Bool :=
  (link == 0 && (byteAt p 1 / 64 != 0 || byteAt p 3 / 16 != 0 || natAt p 4 8 / 2 ^ 53 != 0)) || natAt p 4 8 / 2 ^ 60 != 0 ||
  natAt p 12 2 / 8192 != 0 || (!reqOrd p && reqStag p != 0) || byteAt p 15 / 4 != 0 ||
  (pktType p != tRwr && reqRkind p != 0)

/-- R622, Table 12.6: the size of a request is lawful. DESIGN CHOICE (log entry 77): the spec fixes the size of an MFA
and of an MCS at 8 and names no answer to another (Table 12.13's PV_SIZE row names only MRD, MWR and RWR, R13 asks
nothing of it); the model answers PV_SIZE, not PV_PKT_RSVD. -/
def reqSizeOk (p : List Byte) : Bool :=
  let t := pktType p
  let n := reqSize p
  let within := decide (reqSpa p % 4096 + n ≤ 4096)
  if t = tMrd then decide (1 ≤ n) && decide (n ≤ 4096) && within
  else if t = tMwr then decide (1 ≤ n) && decide (n ≤ 512) && within
  else if t = tRwr then (n == 8 || n == 32 || n == 64) && decide (reqSpa p % n = 0)
  else n == 8

/-- A request with this tag of this requester is outstanding (R626). -/
def State.tagBusy (s : State) (link sdev tag : Nat) : Bool :=
  s.fabric.txns.any (fun t => match t.owner with
    | .inbound l g _ d => ((l == 0) == (link == 0)) && g == tag && d == sdev
    | _ => false) ||
  (link == 0 && (s.links.host.lk.txq.getD 2 []).any (fun o => pktTag o.bytes == tag && cplLast o.bytes))

/-- The kind of transaction that a request asks for, and its data. -/
def requestKind (p : List Byte) : TxnKind × List Byte :=
  let t := pktType p
  if t = tMrd then (.read, [])
  else if t = tMfa then (.fetchAdd (natAt p 16 8), [])
  else if t = tMcs then (.compareSwap (natAt p 16 8) (natAt p 24 8), [])
  else (.write, pktData p (reqSpa p % 16) (reqSize p))

/-- A request enters the memory fabric. -/
def State.postInbound (s : State) (link : Nat) (p : List Byte) (target : Nat) (notify : Bool) : State :=
  let kd := requestKind p
  let sdev := if link = 0 then 0 else reqSdev p
  let ordered := reqOrd p || (link != 0 && pktType p == tRwr)
  let key := if link = 0 then reqStag p else sdev
  -- R520, R634, R733: requests of one ordered stream at other points of serialisation must have taken effect first; at one HBM target, or
  -- towards one device, they keep their order.
  let before := s.fabric.txns.filter (fun t => ordered && t.ord == some key &&
    (t.target != target || (target == 5 && spaDev t.spa != spaDev (reqSpa p))) &&
    (match t.owner with | .inbound l _ _ _ => (l == 0) == (link == 0) | _ => false))
  s.post { id := 0, master := if link = 0 then masterHli else masterFpi, target := target
           owner := .inbound link (pktTag p) (pktType p) sdev, kind := kd.1, spa := reqSpa p, len := reqSize p, data := kd.2
           notify := notify, rkind := reqRkind p, after := before.map (·.id)
           ord := if ordered then some key else none }

/-- R475, R487, R612, R670, R733, Table 10.4: a lawful request is issued or answered. -/
def State.serveRequest (s : State) (link : Nat) (p : List Byte) : State :=
  let spa := reqSpa p
  let sdev := if link = 0 then 0 else reqSdev p
  let answer := fun (st : Nat) => s.answerCpl link (pktTag p) sdev st
  if spaDev spa ≠ s.devId then s.postInbound link p 5 false      -- from the host link alone: transit packets are held
  else if !bitAt spa 51 then
    (if spaOff spa < Config.backedEnd then s.postInbound link p (stackOf (spaOff spa)) false else answer Code.stUnbacked)
  else if link = 0 then answer Code.stLoop
  else if s.links.host.st = .failed then answer Code.stUnroutable
  else match s.place spa with
  | .mem => s.postInbound link p 4 false
  | .notify =>
    if (pktType p = tMwr ∨ pktType p = tRwr) ∧ reqSize p = 8 ∧ spa % 8 = 0 then s.postInbound link p 4 true else answer Code.stNotify
  | _ => answer Code.stVoid

/-- R532, §11.10: a request of a peer for another device enters the fabric at FPI, for FPO. -/
def State.postTransit (s : State) (link : Nat) (p : List Byte) : State :=
  let s1 := s.unqueue link p
  s1.post { id := 0, master := masterFpi, target := 5, owner := .transit link s1.now, kind := (requestKind p).1, spa := reqSpa p, len := reqSize p, data := p }

/-- A memory request of one type is taken from VC1. -/
def State.takeRequest (s : State) (link t : Nat) (p : List Byte) : State :=
  if pktType p ≠ t || !s.running || decide (16 < link) || !s.inTurn link p then s
  else if link = 0 ∧ t = tRwr then (s.takePacket link p).discard link Code.pvDir p
  else
    let transit := decide (link ≠ 0 ∧ spaDev (reqSpa p) ≠ s.devId ∧ reqSdev p ≠ s.devId)
    if !transit && s.inSwitchRange (reqSpa p) then s else
    let s1 := s.takePacket link p
    if p.length ≠ 16 * (1 + pktNsl p) ∨ pktNsl p ≠ nslExpected p then s1.discard link Code.pvLen p
    else if link ≠ 0 ∧ reqSdev p = s.devId then (s1.violatePkt link Code.pvSrc p).lnak link Code.pvSrc p
    else if reqReserved link p then s1.discard link Code.pvPktRsvd p
    else if link = 0 ∧ 255 < pktTag p then s1.discard link Code.pvPktRsvd p
    else if !reqSizeOk p then s1.discard link Code.pvSize p
    else if (t = tMfa ∨ t = tMcs) ∧ reqSpa p % 8 ≠ 0 then s1.discard link Code.pvAtomicAlign p
    else if transit then s.postTransit link p
    else if s.tagBusy link (if link = 0 then 0 else reqSdev p) (pktTag p) then (s1.violatePkt link Code.pvTagBusy p).lnak link Code.pvTagBusy p
    else s1.serveRequest link p

/-- A link number is that of the host link or of a port. -/
def guardLink (link : Nat) (k : Out) : Out := if 17 ≤ link then .fault (.noSuchUnit "link" link) else k

/-- MRD (R475, R487, R622, R628 to R630, R738, R795, R850). -/
def execMrd (link : Nat) (pkt : List Byte) (s : State) : Out := guardLink link (.next (s.takeRequest link tMrd pkt))
/-- MWR (R475, R487, R622, R623, R631, R738, R795, R850). -/
def execMwr (link : Nat) (pkt : List Byte) (s : State) : Out := guardLink link (.next (s.takeRequest link tMwr pkt))
/-- MFA (R487, R525, R526, R624, R632, R795). -/
def execMfa (link : Nat) (pkt : List Byte) (s : State) : Out := guardLink link (.next (s.takeRequest link tMfa pkt))
/-- MCS (R487, R525, R527, R624, R632, R795). -/
def execMcs (link : Nat) (pkt : List Byte) (s : State) : Out := guardLink link (.next (s.takeRequest link tMcs pkt))
/-- RWR (R487, R622, R623, R631, R638, R733): from a fabric port; on the host link it travels from the device only. -/
def execRwr (link : Nat) (pkt : List Byte) (s : State) : Out := guardLink link (.next (s.takeRequest link tRwr pkt))

/-- A completion is taken from VC2, or held for the device that it is routed to (R613, R705). -/
def State.takeCompletion (s : State) (link t : Nat) (p : List Byte) (f : State → State) : State :=
  if pktType p ≠ t || !s.running || !s.inTurn link p then s
  else
    let s1 := s.takePacket link p
    if p.length ≠ 16 * (1 + pktNsl p) ∨ (t = tCpl ∧ pktNsl p ≠ 0) then s1.discard link Code.pvLen p
    else if cplReserved link p then s1.discard link Code.pvPktRsvd p
    else if link ≠ 0 ∧ cplDdev p ≠ s.devId then s.hold link p (cplDdev p)
    else f s1

/-- CPLD_RECEIVE (R242, R485, R613, R628, R641, R1018). -/
def execCpldReceive (link : Nat) (pkt : List Byte) (s : State) : Out :=
  guardLink link (.next (s.takeCompletion link tCpld pkt (fun s => s.takeCpld link pkt)))

/-- CPL_RECEIVE (R485, R486, R613, R630, R641, R729, R1018). -/
def execCplReceive (link : Nat) (pkt : List Byte) (s : State) : Out :=
  guardLink link (.next (s.takeCompletion link tCpl pkt (fun s => s.takeCpl link pkt)))

/-- HOST_COMPLETION_TIMEOUT (R633, R1018): 50 ms without the last completion of a request to the host; its tag is held. -/
def execHostCompletionTimeout (tag : Nat) (s : State) : Out :=
  .next (match s.outOf 0 tag with
    | none => s
    | some r =>
      if !r.onWire then s else
      let s1 := s.advanceTo (r.sentAt + 50000000)
      let s2 : State := { s1 with links := { s1.links with tagHold := s1.links.tagHold ++ [(0, tag, s1.now + 100000000)] } }
      (s2.violate 0 Code.pvCplTimeout r.ptype tag).faultOut r Code.pvCplTimeout)

/-- FABRIC_COMPLETION_TIMEOUT (R736): the request ends as with ADDR_UNROUTABLE; its tag is held. -/
def execFabricCompletionTimeout (link tag : Nat) (s : State) : Out :=
  guardLink link (.next (match s.links.out.find? (fun r => r.tag == tag && r.link == link && link != 0) with
    | none => s
    | some r =>
      if !r.onWire then s else
      let s1 := s.advanceTo (r.sentAt + 50000000)
      let s2 : State := { s1 with links := { s1.links with tagHold := s1.links.tagHold ++ [(link, tag, s1.now + 100000000)] } }
      (s2.bump (6 + link) 40 2 1).finishOut r [] [] Code.stUnroutable))

/-- TAG_HOLD_EXPIRY (R627): 100 ms after the timeout the tag may be used again. -/
def execTagHoldExpiry (link tag : Nat) (s : State) : Out :=
  guardLink link (.next (match s.links.tagHold.find? (fun h => h.1 == link && h.2.1 == tag) with
    | none => s
    | some h =>
      let s1 := s.advanceTo h.2.2
      { s1 with links := { s1.links with tagHold := s1.links.tagHold.erase h } }))

end Sys2Proof.Machine
end

