-- ==== Sys2Proof/WellFormed.lean ====
section
/-! DEFINITION. WellFormed.lean: the units that a command names, and the commands that name only units that the part has (chapter 01:
four quarters with four tracks, four slices with 34 banks and 8,192 working lines, four stacks, seven fabric targets, a host link of
eight modules and sixteen fabric ports of eight lanes, 512 context numbers and 128 device IDs).  What a packet or a flit holds is no
matter of form: a bad one is an input that the spec answers. -/
namespace Sys2Proof

/-- A unit that a command names. -/
inductive Unit_ where
  /-- A quarter (chapter 01). -/
  | quarter (n : Nat)
  /-- A track of a quarter (Table 7.3). -/
  | track (n : Nat)
  /-- A TRF slice (Table 3.1). -/
  | slice (n : Nat)
  /-- A port of a slice (Table 3.1). -/
  | slicePort (n : Nat)
  /-- A physical bank of a slice (Table 3.1). -/
  | bank (n : Nat)
  /-- A working line of a slice (R95). -/
  | line (n : Nat)
  /-- An HBM stack (R532). -/
  | stack (n : Nat)
  /-- A pseudo channel of the device (R561). -/
  | pseudoChannel (n : Nat)
  /-- A stack ID of a pseudo channel (R563). -/
  | stackId (n : Nat)
  /-- A bank of a stack ID (R563). -/
  | dramBank (n : Nat)
  /-- A target of the memory fabric (R532, Table 11.3). -/
  | target (n : Nat)
  /-- A quad of fabric ports (R920). -/
  | quad (n : Nat)
  /-- A link: 0 the host link, 1 + n port FPn. -/
  | link (n : Nat)
  /-- A fabric port (chapter 13). -/
  | port (n : Nat)
  /-- A lane of a fabric port (chapter 13). -/
  | lane (n : Nat)
  /-- A UCIe module of the host link (R586). -/
  | module (n : Nat)
  /-- A context number (Table 5.1). -/
  | context (n : Nat)
  /-- A device ID (R753). -/
  | device (n : Nat)
  /-- The unit in which an error is found. -/
  | found (f : Found)
  deriving DecidableEq, Repr, Inhabited

/-- A found error names a unit that exists. -/
def Found.wf : Found → Bool
  | .payload i l _ => decide (i < 4) && decide (l < 8192)
  | .metadata i l _ => decide (i < 4) && decide (l < 8192)
  | .lineMap i l _ => decide (i < 4) && decide (l < 8192)
  | .element q p e _ _ => decide (q < 4) && decide (p < 2) && decide (e < 65536)
  | .liveFlags q p _ _ => decide (q < 4) && decide (p < 2)
  | .peg q i _ => decide (q < 4) && decide (i < 16)
  | .lane q n => decide (q < 4) && decide (n < 256)
  | .micro a _ => decide (a < 0x20000)
  | .entry c _ => decide (c < 512)
  | .xlat c _ => decide (c < 512)
  | .profile n _ => decide (n < 8)

/-- The part has the unit. -/
def Unit_.present : Unit_ → Bool
  | .quarter n => decide (n < 4)
  | .track n => decide (n < 4)
  | .slice n => decide (n < 4)
  | .slicePort n => decide (n < 4)
  | .bank n => decide (n < 34)
  | .line n => decide (n < 8192)
  | .stack n => decide (n < 4)
  | .pseudoChannel n => decide (n < 128)
  | .stackId n => decide (n < 3)
  | .dramBank n => decide (n < 16)
  | .target n => decide (n < 7)
  | .quad n => decide (n < 4)
  | .link n => decide (n < 17)
  | .port n => decide (n < 16)
  | .lane n => decide (n < 8)
  | .module n => decide (n < 8)
  | .context n => decide (n < 512)
  | .device n => decide (n < 128)
  | .found f => f.wf

/-- The units that a command names. -/
def Instr.units : Instr → List Unit_
  | .pwrgoodFall => []
  | .resetAssert => []
  | .resetRelease _ => []
  | .strapLatch _ _ _ _ _ _ _ => []
  | .levelPinMeasure _ => []
  | .pllsLocked => []
  | .flashSfdpRead _ => []
  | .holdCleared => []
  | .imageCopyVerify _ _ => []
  | .microRamRemap => []
  | .bist _ => []
  | .bringupApply _ _ => []
  | .hbmTraining _ _ => []
  | .hbmInitialise => []
  | .fabricTrainingEnd => []
  | .readiness => []
  | .bringupPhaseTimeout => []
  | .statHoldExpiry => []
  | .pllLockLoss _ => []
  | .sdrefclkLoss quad => [.quad quad]
  | .energyInterval => []
  | .powerStepDecision _ => []
  | .imonSample _ => []
  | .imonTripHoldExpiry => []
  | .thermalCeilingUpdate => []
  | .staticBandEval => []
  | .sensorSample _ _ => []
  | .hbmTemperatureRead _ _ => []
  | .vidSettleTimeout => []
  | .vidLowerCode => []
  | .trfRefresh slice bank found => [.slice slice, .bank bank] ++ found.map .found
  | .trfRefreshUrgent slice bank found => [.slice slice, .bank bank] ++ found.map .found
  | .refIntervalChange => []
  | .bankRetire slice bank _ => [.slice slice, .bank bank]
  | .bankHandoverSwap slice => [.slice slice]
  | .bankEvacuate slice bank => [.slice slice, .bank bank]
  | .bankMarch slice bank _ => [.slice slice, .bank bank]
  | .bankReinstate slice bank => [.slice slice, .bank bank]
  | .portRound slice port found => [.slice slice, .slicePort port] ++ found.errors.map .found
  | .debugTransfer slice line => [.slice slice, .line line]
  | .allocatorRound slice => [.slice slice]
  | .arrayStepStart quarter => [.quarter quarter]
  | .fabricTargetRound target _ _ => [.target target]
  | .hbmReadReturn _ _ => []
  | .hbmBankRefresh dram => [.pseudoChannel dram.pseudo, .stackId dram.sid, .dramBank dram.bank]
  | .hbmRetrain => []
  | .hbmScrubRead stack _ _ => [.stack stack]
  | .storeScrub found => found.map .found
  | .trngRefill => []
  | .saltDrawResume ctx => [.context ctx]
  | .oprReceive link _ => [.link link]
  | .nop ctx found => [.context ctx] ++ found.map .found
  | .att ctx found => [.context ctx] ++ found.map .found
  | .det ctx found => [.context ctx] ++ found.map .found
  | .spl ctx found => [.context ctx] ++ found.map .found
  | .frm ctx found => [.context ctx] ++ found.map .found
  | .fnc ctx found => [.context ctx] ++ found.map .found
  | .ntf ctx found => [.context ctx] ++ found.map .found
  | .ldt ctx found => [.context ctx] ++ found.map .found
  | .stt ctx found => [.context ctx] ++ found.map .found
  | .cpt ctx found => [.context ctx] ++ found.map .found
  | .zrt ctx found => [.context ctx] ++ found.map .found
  | .rls ctx found => [.context ctx] ++ found.map .found
  | .aop ctx found => [.context ctx] ++ found.map .found
  | .acl ctx found => [.context ctx] ++ found.map .found
  | .mma ctx found => [.context ctx] ++ found.map .found
  | .mms ctx found => [.context ctx] ++ found.map .found
  | .asd ctx found => [.context ctx] ++ found.map .found
  | .adr ctx found => [.context ctx] ++ found.map .found
  | .vad ctx found => [.context ctx] ++ found.map .found
  | .vmu ctx found => [.context ctx] ++ found.map .found
  | .vmx ctx found => [.context ctx] ++ found.map .found
  | .vmn ctx found => [.context ctx] ++ found.map .found
  | .vsc ctx found => [.context ctx] ++ found.map .found
  | .vex ctx found => [.context ctx] ++ found.map .found
  | .vrc ctx found => [.context ctx] ++ found.map .found
  | .vrs ctx found => [.context ctx] ++ found.map .found
  | .vrr ctx found => [.context ctx] ++ found.map .found
  | .vtr ctx found => [.context ctx] ++ found.map .found
  | .vrq ctx found => [.context ctx] ++ found.map .found
  | .smx ctx found => [.context ctx] ++ found.map .found
  | .nrm ctx found => [.context ctx] ++ found.map .found
  | .translationWalk ctx _ => [.context ctx]
  | .segmentCommit quarter track _ => [.quarter quarter, .track track]
  | .operationComplete ctx => [.context ctx]
  | .park ctx found => [.context ctx] ++ found.map .found
  | .unpark ctx found => [.context ctx] ++ found.map .found
  | .evict ctx found => [.context ctx] ++ found.map .found
  | .restore ctx found => [.context ctx] ++ found.map .found
  | .ismove ctx found => [.context ctx] ++ found.map .found
  | .candidateSlot => []
  | .contextRebind ctx => [.context ctx]
  | .periodStart => []
  | .frameDeadline ctx => [.context ctx]
  | .flitTransmit link => [.link link]
  | .flitReceive link _ => [.link link]
  | .retryReqReceive link _ => [.link link]
  | .retryReqRepeat link => [.link link]
  | .idleFlitSend link => [.link link]
  | .replayTimeout link => [.link link]
  | .replayLimit link => [.link link]
  | .creditStallTimeout link => [.link link]
  | .linkStateTimeout => []
  | .moduleActiveChange _ => []
  | .moduleRetrain module => [.module module]
  | .initReceive link _ => [.link link]
  | .initDoneReceive link _ => [.link link]
  | .mrd link _ => [.link link]
  | .mwr link _ => [.link link]
  | .mfa link _ => [.link link]
  | .mcs link _ => [.link link]
  | .rwr link _ => [.link link]
  | .cpldReceive link _ => [.link link]
  | .cplReceive link _ => [.link link]
  | .hostCompletionTimeout _ => []
  | .fabricCompletionTimeout link _ => [.link link]
  | .tagHoldExpiry link _ => [.link link]
  | .sealPacket link _ => [.link link]
  | .ringPacket link _ => [.link link]
  | .profilePacket link _ => [.link link]
  | .timePacket link _ => [.link link]
  | .haltPacket link _ => [.link link]
  | .haltCack => []
  | .resumePacket link _ => [.link link]
  | .linkViolationReport => []
  | .fpTrainingFrame port _ => [.port port]
  | .fpCodedStreamStart port => [.port port]
  | .fpMarkerLock port _ => [.port port]
  | .fpStateChange port => [.port port]
  | .fpStateTimeout port => [.port port]
  | .fpFailedRetry port => [.port port]
  | .fpUeRateRetrain port _ _ => [.port port]
  | .fpLaneFail port lane => [.port port, .lane lane]
  | .width port _ => [.port port]
  | .widthSwitch port => [.port port]
  | .fpLaneRetrain port lane _ => [.port port, .lane lane]
  | .fpLaneBerRemove port lane => [.port port, .lane lane]
  | .packetForward => []
  | .forwardHoldExpiry => []
  | .pinLapse _ => []
  | .streamEpochResume dest => [.device dest]
  | .pselSample _ => []
  | .pselDebounceDone => []
  | .profileSwitchStart => []
  | .rinseStart _ => []
  | .rinseTimeout => []
  | .profileApply => []
  | .rotationBoundary quarter _ => [.quarter quarter]
  | .shadowStep quarter => [.quarter quarter]
  | .shadowCompare quarter _ => [.quarter quarter]
  | .quarterRemove quarter _ => [.quarter quarter]
  | .debugBist _ => []
  | .healthRecord => []
  | .pwrgoodRise => []
  | .handshakeEntry => []
  | .jtagHaltInstrument _ _ => []

/-- A command is well-formed when it names only units that the part has. -/
def Instr.wf (i : Instr) : Bool := i.units.all Unit_.present

end Sys2Proof
end

