-- ==== Sys2Proof/Machine/Errors.lean ====
section
/-! DEFINITION. Machine/Errors.lean: what the device does with an error that it finds in a store or on a path (Tables 3.10, 7.7
and 16.1). -/
namespace Sys2Proof.Machine

/-- The context that a resident slot belongs to. -/
def State.slotCtx (s : State) (k : Nat) : Option Nat := (s.entries.find? (fun p => p.2.slot == some k)).map (·.1)

/-- The context that a line's use serves. -/
def State.ownerCtx (s : State) (o : LineOwner) : Option Nat :=
  match o with
  | .window k _ => s.slotCtx k
  | o => o.ctx?

/-- Table 16.6, TRF_UE: the tile and the use of a line. -/
def useOf : Option LineUse → Nat × Nat
  | none => (0, 4)
  | some u => match u.owner with
    | .window _ n => (n, 0)
    | .staged _ n => (n, 1)
    | .streamed _ _ _ => (0, 2)
    | .parked _ _ _ _ => (0, 3)
    | .restoring _ n => (n, 0)
    | .unread _ _ _ _ => (0, 3)

/-- Table 16.6: the TRF_UE event of a line. -/
def State.trfUeEvent (s : State) (i line : Nat) : State :=
  let sl := s.slice i
  let u := assocGet sl.lines line
  let handle := (u.bind (fun u => s.ownerCtx u.owner)).map s.handle
  (s.bump 2 28 2 1).deviceEvent Code.trfUe handle
    ([BitVec.ofNat 8 i, BitVec.ofNat 8 (sl.bankOf line)] ++ natLe 2 (line / 32) ++
     [BitVec.ofNat 8 (useOf u).1, BitVec.ofNat 8 (useOf u).2])

/-- Table 16.6: the PLANE_UE event, with its kind, for the context that a handle names; and the count of Table 16.8. -/
def State.planeUeFor (s : State) (q p e kind : Nat) (handle : Option Nat) : State :=
  let s1 := (s.bump 2 32 2 1).modQuarter q (fun u => { u with planeUes := s.now :: u.planeUes })
  s1.deviceEvent Code.planeUe handle ([BitVec.ofNat 8 q, BitVec.ofNat 8 p] ++ natLe 2 e ++ [BitVec.ofNat 8 kind])

/-- Table 16.6: the PLANE_UE event of a physical plane, for the context that it is held for. -/
def State.planeUeEvent (s : State) (q p e kind : Nat) : State :=
  s.planeUeFor q p e kind ((((s.quarter q).plane p).holder).map (fun h => s.handle h.1))

/-- A line is marked lost, and the pegs that name its tile are invalidated (R119, Table 3.10). -/
def State.loseLine (s : State) (i line : Nat) : State :=
  let sl := s.slice i
  let s1 := s.modSlice i (fun sl => { sl with lost := insertRising line sl.lost })
  match assocGet sl.lines line with
  | some u => match u.owner with
    | .window k n => s1.dropTilePegs k n
    | _ => s1
  | none => s1

/-- R143, R895: a single-bit error of a line is corrected and counted.  Once more than 1,024 lie within 10 s the bank is to retire. -/
def State.correctedLine (s : State) (i line : Nat) : State :=
  (s.bump 2 24 4 1).modSlice i (fun sl =>
    sl.modBank (sl.bankOf line) (fun b => { b with
      ceTimes := if 1024 < b.ceTimes.length then b.ceTimes else s.now :: b.ceTimes.filter (fun t => decide (s.now < t + 10000000000)) }))

/-- Table 3.10: an uncorrectable payload error.  It faults nothing (R145).  Once two lie within 1 h the bank is to retire (R895). -/
def State.payloadLost (s : State) (i line : Nat) : State :=
  let sl := s.slice i
  let parked := (useOf (assocGet sl.lines line)).2 == 3
  let s1 := (s.trfUeEvent i line).modSlice i (fun sl =>
    sl.modBank (sl.bankOf line) (fun b => { b with
      ueTimes := if 2 ≤ b.ueTimes.length then b.ueTimes else s.now :: b.ueTimes.filter (fun t => decide (s.now < t + 3600000000000)) }))
  if parked || !(sl.word line).zsrc then s1.loseLine i line else s1

/-- R1035, R875: a fault that error handling raises: `met` names the context whose routine met the error, and the opcode or
dispatch index of an internal routine. -/
def State.errorFault (s : State) (met : Option Nat) (routine : Option Nat) (c : Nat) (i : FaultInfo) : State :=
  s.faultContext c { i with unmet := met != some c, routine := if met = some c then routine else none }

/-- Table 3.10: an uncorrectable error of a line's metadata word or line map entry faults the context that it serves. -/
def State.mapFault (s : State) (met routine : Option Nat) (i line : Nat) : State :=
  let sl := s.slice i
  let s1 := s.bump 2 30 2 1
  match (assocGet sl.lines line).bind (fun u => s.ownerCtx u.owner) with
  | some c => s1.errorFault met routine c { code := Code.trfMapUe, aux := 256 * i + sl.bankOf line }
  | none => s1

/-- Table 3.10: the live flags of a plane are lost: every sub-block is live, and those that were not are all poison. -/
def lostFlagsBlocks (live : Nat) (blocks : List (Nat × List Af)) : List (Nat × List Af) :=
  (List.range 64).foldl (fun bs n => if bitAt live n then bs else assocPut bs n (List.replicate 1024 Af.bad)) blocks

/-- Element `e` of a set of blocks becomes poison. -/
def poisonElem (blocks : List (Nat × List Af)) (e : Nat) : List (Nat × List Af) :=
  let n := subOf (e / 256) (e % 256)
  assocPut blocks n (setAt ((assocGet blocks n).getD zeroBlock) (posOf (e / 256) (e % 256)) Af.bad)

/-- The live flags of the context that holds a physical plane are changed. -/
def State.modHolderLive (s : State) (q p : Nat) (f : Nat → Nat) : State :=
  match ((s.quarter q).plane p).holder with
  | some (c, pl) => s.modEntry c (fun e => e.modPlane pl (fun a => { a with live := f a.live }))
  | none => s

/-- The live flags of a physical plane's holder. -/
def State.holderLive (s : State) (q p : Nat) : Nat :=
  match ((s.quarter q).plane p).holder with
  | some (c, pl) => ((s.entry c).plane pl).live
  | none => 0

/-- Table 7.1: the word of the routine stores that a fetch of a micro-address reads, by its address before the remap; none where the address
is unmapped.  A fetch of an address that is write only reads no word, and counts as unmapped: DESIGN CHOICE (log entry 66). -/
def State.microWord (s : State) (addr : Nat) : Option Nat :=
  if s.straps.remapEn && s.boot.remapped then
    (if addr < 0x10000 then some (0x10000 + addr) else if addr < 0x14000 then some (addr - 0x10000) else none)
  else if addr < 0x4000 then some addr else none

/-- R320, R348, Table 7.7: a fetch that no copy gives, or from an unmapped address, is counted and faults the context of the routine. -/
def State.routineUe (s : State) (met routine : Option Nat) (addr : Nat) : State :=
  let s1 := s.bump 2 40 2 1
  match met with
  | some c => s1.faultContext c { code := Code.routineUe, spa := addr, routine := routine }
  | none => s1

/-- R348, §7.2: the errors that a routine meets as it starts: those found, and that of its dispatch word if it is marked bad. -/
def State.atDispatch (s : State) (d : Nat) (found : List Found) : List Found :=
  if (s.microWord d).any s.stores.bad.contains then .micro d 2 :: found else found

/-- R144, R348, R868: one error that is found.  `met` names the context whose routine met it, and `routine` the dispatch index of
an internal routine. -/
def State.applyFound (met routine : Option Nat) (s : State) (f : Found) : State :=
  match f with
  | .payload i line ok => if ok then s.correctedLine i line else s.payloadLost i line
  | .metadata i line ok =>
    if ok then s.correctedLine i line
    else if (assocGet (s.slice i).lines line).isNone then s.bump 2 24 4 1
    else (s.loseLine i line).mapFault met routine i line
  | .lineMap i line ok => if ok then s.bump 2 24 4 1 else s.mapFault met routine i line
  | .element q p e ckpt ok =>
    if ok then s.bump 2 24 4 1
    else (s.modPlane q p (fun pp => if ckpt then { pp with ckpt := poisonElem pp.ckpt e } else { pp with blocks := poisonElem pp.blocks e })).planeUeEvent
      q p e (b2n ckpt)
  | .liveFlags q p ckpt ok =>
    if ok then s.bump 2 24 4 1
    else if ckpt then
      (s.modPlane q p (fun pp => { pp with ckpt := lostFlagsBlocks pp.ckptLive pp.ckpt, ckptLive := 2 ^ 64 - 1 })).planeUeEvent q p 0 2
    else
      let live := s.holderLive q p
      ((s.modPlane q p (fun pp => { pp with blocks := lostFlagsBlocks live pp.blocks })).modHolderLive q p (fun _ => 2 ^ 64 - 1)).planeUeEvent q p 0 2
  | .peg q i ok =>
    if ok then s.bump 2 24 4 1
    else (s.bump 2 34 2 1).modQuarter q (fun u => ({ u with pegUes := s.now :: u.pegUes }).setPeg i { u.peg i with valid := false })
  | .lane q _ => (s.bump 2 36 2 1).modQuarter q (fun u => { u with pathUes := s.now :: u.pathUes })
  | .micro addr kind =>
    match s.microWord addr with
    | none => if met.isSome then s.routineUe met routine addr else s
    | some w =>
      if s.stores.bad.contains w then (if met.isSome then s.routineUe met routine addr else s)
      else if kind ≤ 1 then s.bump 2 38 2 1
      else ({ s with stores := { s.stores with bad := addOnce s.stores.bad w } }).routineUe met routine addr
  | .entry c ok => if ok then s else (s.bump 2 42 2 1).errorFault met routine c { code := Code.ctxStateUe }
  | .xlat c va =>
    let keep := fun (t : TlbEntry) => !(t.ctx == c && t.va / 2 ^ t.bits == va / 2 ^ t.bits)
    let s1 : State := { s with quarters := s.quarters.map (fun q => { q with tlb := q.tlb.filter keep }) }
    (s1.modFabric (fun f => { f with sharedTlb := f.sharedTlb.filter keep })).bump 2 50 2 1
  | .profile n ok => if ok then s else { s with profStore := assocPut s.profStore n [] }

/-- Every error of a list, in order. -/
def State.applyAll (s : State) (met routine : Option Nat) (fs : List Found) : State := fs.foldl (State.applyFound met routine) s

/-- A command that names errors of units that the part does not have faults; otherwise it goes on. -/
def guardFound (fs : List Found) (k : Out) : Out :=
  match fs.find? (fun f => !f.wf) with
  | some _ => .fault (.noSuchUnit "found" 0)
  | none => k

/-- STORE_SCRUB (R916): a millisecond of scrubbing ends, in which every plane element and checkpoint copy, a hundredth of the micro-stores and a
tenth of the attach entries were read; what is found is handled as a read would. -/
def execStoreScrub (found : List Found) (s : State) : Out :=
  guardFound found (.next (if !s.running then s else
    let s1 := s.advanceTo (s.stores.scrubAt + 1000000)
    ({ s1 with stores := { s1.stores with scrubAt := s1.now } }).applyAll none none found))

end Sys2Proof.Machine
end

