-- ==== Sys2Proof/Machine/Routine.lean ====
section
/-! DEFINITION. Machine/Routine.lean: what every routine of the routine engines shares: context states (Table 8.3), reserved work and
claims (§9.2, §9.4), the choice of the context that a track serves (R387 to R389, R450 to R452), the binding of planes (R267,
R268), port requests, staging lines, translation of the pages of a segment (R494 to R500) and its memory reads. -/
namespace Sys2Proof.Machine

/-! ### Context states (Table 8.3) -/

/-- Table 8.3: the state that the context's slot, routines and queue give it. -/
def State.settle (s : State) (c : Nat) : State :=
  s.modEntry c (fun e =>
    if e.state = .detached ∨ e.state = .faulted then e else
    let st : CtxState :=
      if e.slot.isNone || e.restore.isSome then .spilled
      else if (s.jobOf c).isSome then .running
      else match e.headOp with
        | none => .idle
        | some op => if op.stopped then .preempted else .runnable
    { e with state := st })

/-! ### Reserved work and claims -/

/-- R440: an operation's next segment would be reserved in the period in progress. -/
def State.opReserved (s : State) (e : Entry) (op : Op) : Bool :=
  e.deadlined && (match op.frame with
    | some p => decide (p ≤ Int.ofNat s.tick) && decide (e.chargeIn s.tick < e.desc.budget)
    | none => false)

/-- The context's queue holds reserved work of the period. -/
def State.hasReserved (s : State) (e : Entry) : Bool := e.queue.any (fun op => !op.done && s.opReserved e op)

/-- R449: resident contexts of quarter `q` that have reserved work queued. -/
def State.reservedOn (s : State) (q : Nat) : List Nat :=
  (s.entries.filter (fun p => p.2.quarter == some q && p.2.slot.isSome && p.2.restore.isNone && s.hasReserved p.2)).map (·.1)

/-- R449: a claim is in force on quarter `q`. -/
def State.claimed (s : State) (q : Nat) : Bool := (s.quarter q).claim && !(s.reservedOn q).isEmpty

/-- R450: a routine that a claim leaves alone. -/
def State.claimKeeps (s : State) (j : Job) : Bool :=
  j.reserved || (j.kind == .restore && s.hasReserved (s.entry j.ctx))

/-! ### Which context a track serves -/

/-- The plane that an operation reads or writes and that must be held in a physical plane (R267): MMA, MMS and ASD, and ADR of a
plane with a live sub-block. -/
def Entry.planeNeeded (e : Entry) (pkt : List Byte) : Option Nat :=
  let o := opcOf pkt
  let pl := (geomOf pkt).pl
  if !(e.plane pl).isOpen then none
  else if o = 0x21 ∨ o = 0x22 ∨ o = 0x25 then some pl
  else if o = 0x23 ∧ (e.plane pl).live ≠ 0 then some pl
  else none

/-- A park, an unpark or an ISMOVE of a context is in progress. -/
def State.movesOf (s : State) (c : Nat) : Bool := s.quarters.any (fun u => u.moves.any (fun m => m.ctx == c))

/-- A park or an unpark of a plane of a context is in progress on quarter `q`. -/
def State.planeMoving (s : State) (q c pl : Nat) : Bool :=
  (s.quarter q).moves.any (fun m => m.kind != .ismove && m.ctx == c && m.pl == pl)

/-- A physical plane of quarter `q` that holds nothing. -/
def State.freePlane (s : State) (q : Nat) : Option Nat := ([0, 1] : List Nat).find? (fun p => (((s.quarter q).plane p).holder).isNone)

/-- R267: an architectural plane is held in a physical plane of a quarter, and is not chosen to be parked. -/
def State.planeBound (s : State) (q c pl : Nat) : Bool :=
  (match ((s.entry c).plane pl).loc with | .phys q' _ => q' == q | _ => false) && (s.quarter q).parkChosen != some (c, pl) &&
  !s.planeMoving q c pl

/-- R266, R267: a plane is ready for a segment that needs it: it is bound, or it has no live sub-block and a physical plane is free for
it, which the segment takes as it starts. -/
def State.planeReady (s : State) (q c pl : Nat) : Bool :=
  s.planeBound q c pl || (((s.entry c).plane pl).live == 0 && ((s.entry c).plane pl).loc == .none && (s.freePlane q).isSome)

/-- A rinse keeps every track empty of operations (R786). -/
def State.rinsing (s : State) : Bool := s.switch.rinse && (s.switch.step == .rinsing || s.switch.step == .ready)

/-- A spill of context `c` has begun: it runs, or its first segment has drawn the salt. -/
def State.spillBegun (s : State) (c : Nat) : Bool :=
  (s.entry c).salt.isSome || ((s.jobOf c).map (fun x => x.2.kind)) == some .evict

/-- The contexts that the rinse has yet to spill; one that has faulted holds no slot (R788, R792). -/
def State.rinseLeft (s : State) : List Nat := s.switch.toSpill.filter (fun c => (s.entry c).slot.isSome)

/-- R787, R788: during a rinse the spills that it asks for run, each from its turn on, and those that were in progress. -/
def State.rinseAllows (s : State) (c : Nat) : Bool :=
  !s.rinsing || (s.rinseLeft.contains c && (s.spillBegun c || (s.rinseLeft.find? (fun d => !s.spillBegun d)) == some c))

/-- Quarter `q` leaves service with the staged profile (R790). -/
def State.leavesWithSwitch (s : State) (q : Nat) : Bool := s.inService q && !bitAt s.switch.staged.quarterMask q

/-- R786 to R790: the rinse has nothing left to do: every track is free, every spill is complete, and no live plane is held in a
quarter that leaves. -/
def State.rinseDone (s : State) : Bool :=
  (List.range 4).all (fun q => s.tracksFree q) && s.rinseLeft.isEmpty &&
  s.quarters.zipIdx.all (fun p => !s.leavesWithSwitch p.2 ||
    p.1.planes.all (fun x => match x.holder with | some (c, pl) => ((s.entry c).plane pl).live == 0 | none => true))

/-- R793, R917, R918, R923, R932: the relock of a CCLK change begins: CCLK is 800 MHz, and a higher voltage is asked for at once. -/
def State.beginRelock (s : State) : State :=
  let p := s.switch.staged
  if p.cclkMhz = s.profile.cclkMhz then s else
  let old := vidOf s.profile.cclkMhz
  let new := vidOf p.cclkMhz
  let s1 : State := { s with power := { s.power with cclk := 800, relocking := true } }
  if old < new then
    let s2 := s1.sendVid new
    { s2 with power := { s2.power with vCode := new, lower := none, rising := some (old, s2.power.strobeAt.getD s2.now) } }
  else s1

/-- A rinse that has nothing left to do goes on to the relock and the apply edge. -/
def State.rinseProgress (s : State) : State :=
  if s.switch.step == .rinsing && s.rinseDone then ({ s with switch := { s.switch with step := .ready } }).beginRelock else s

/-- Quarter `q` may start segments: it runs, is not halted and is not leaving service. -/
def State.quarterStarts (s : State) (q : Nat) : Bool :=
  s.running && s.ready && !(s.quarter q).halted && !(s.quarter q).leaving && s.inService q && !s.rinsing && !s.power.relocking

/-- An internal routine waits for the context that its operations must not pass. -/
def State.internalHolds (s : State) (c : Nat) : Bool :=
  s.internal.any (fun i => match i with
    | .evict d => d == c
    | .ismove d => d == c
    | .restore d => d == c
    | .park _ _ => false
    | .unpark d _ _ => d == c)

/-- R1035, Table 8.3: the operation that a resident context could run now, all but tracks and planes: its quarter and the operation. -/
def State.couldRun (s : State) (c : Nat) : Option (Nat × Op) :=
  let e := s.entry c
  match e.quarter, e.headOp with
  | some q, some op =>
    if e.slot.isSome && e.restore.isNone && e.moving.isNone && e.rebindTo.isNone && e.state != .detached && e.state != .faulted &&
       !op.done && s.quarterStarts q && (s.jobOf c).isNone && !s.internalHolds c then some (q, op) else none
  | _, _ => none

/-- The tracks of a list are free in quarter `q` (R313, R315). -/
def State.tracksOpen (s : State) (q : Nat) (ts : List Nat) : Bool :=
  !((s.quarter q).jobs.any (fun j => j.tracks.any ts.contains)) && !((s.quarter q).moves.any (fun m => m.tracks.any ts.contains))

/-- The planes of a context that are held in physical planes and have a live sub-block: a spill parks them first (R413). -/
def Entry.liveHeld (e : Entry) : List Nat :=
  ([0, 1] : List Nat).filter (fun pl => (e.plane pl).live != 0 && (match (e.plane pl).loc with | .phys _ _ => true | _ => false))

/-- A context that could start its next segment at once: tracks free, plane bound, or every plane parked for a spill, and reserved
while a claim is in force. -/
def State.startable (s : State) (c : Nat) : Option (Nat × Op) :=
  match s.couldRun c with
  | some (q, op) =>
    let e := s.entry c
    let bound := match e.planeNeeded op.pkt with
      | some pl => s.planeReady q c pl
      | none => opcOf op.pkt != 0x03 || e.liveHeld.isEmpty
    if bound && s.tracksOpen q (opcTracks (opcOf op.pkt)) && (!s.claimed q || s.opReserved e op) then some (q, op) else none
  | none => none

/-- R387, R388: the slot that a track serves next: the one that it served last goes on until its weight is spent and another waits; then
the others in rotation, the first that could start.  `slots` are those that could start at once, `waiting` all that wait. -/
def Track.next (t : Track) (weight : Nat → Nat) (slots waiting : List Nat) : Option Nat :=
  if slots.contains t.last && (decide (t.run < weight t.last) || waiting.all (· == t.last)) then some t.last
  else ((List.range 63).map (fun i => (t.last + 1 + i) % 64)).find? slots.contains

/-- The slots of the contexts with work for a track of quarter `q`, of those that a test admits; under a claim those of the earliest frame
(R452). -/
def State.trackSlots (s : State) (q track : Nat) (could : Nat → Option (Nat × Op)) : List Nat :=
  let ready := s.entries.filterMap (fun p =>
    match could p.1 with
    | some (q', op) =>
      if q' = q && (opcTracks (opcOf op.pkt)).contains track && (!s.claimed q || s.opReserved p.2 op) then p.2.slot.map (fun k => (k, op.frame.getD 0))
      else none
    | none => none)
  if s.claimed q then (ready.filter (fun x => ready.all (fun y => decide (x.2 ≤ y.2)))).map (·.1)
  else ready.map (·.1)

/-- The slots that could start on a track of quarter `q` at once. -/
def State.trackReady (s : State) (q track : Nat) : List Nat := s.trackSlots q track s.startable

/-- The slots that wait for a track of quarter `q` (R388): those that could start but for their other track or a bind.  One whose bind waits
for reserve lines does not count, since those lines may come from the context that holds the track: DESIGN CHOICE (log entry 68). -/
def State.trackWaits (s : State) (q track : Nat) : List Nat :=
  s.trackSlots q track (fun c => if (s.quarter q).parkFor == some c && (s.quarter q).parkSince.isSome then none else s.couldRun c)

/-- The rotation weight of the context in slot `k`. -/
def State.slotWeight (s : State) (k : Nat) : Nat := ((s.slotCtx k).map (fun c => (s.entry c).desc.wt)).getD 1

/-- R387 to R389, R452: it is the turn of context `c` on every track that its operation needs.  An operation of two tracks waits until it is
next on both: DESIGN CHOICE (log entry 68). -/
def State.hasTurn (s : State) (q c : Nat) (op : Op) : Bool :=
  (opcTracks (opcOf op.pkt)).all (fun t =>
    ((s.quarter q).tracks.getD t {}).next s.slotWeight (s.trackReady q t) (s.trackWaits q t) == (s.entry c).slot)

/-- The rotation state of a track after a segment of slot `k` starts on it. -/
def Track.serve (t : Track) (k : Nat) : Track := { last := k, run := if t.last = k then t.run + 1 else 1 }

/-! ### Claims (§9.4, §9.5) -/

/-- R438: the claim latency of a quarter ends: it is charged, `least` cclk or the time that it took, to every context whose reserved work
waited when the claim was raised. -/
def State.endLatency (s : State) (q least : Nat) : State :=
  match (s.quarter q).claimAt with
  | none => s
  | some t =>
    let units := chargeUnits (max least ((s.now - t) * s.power.cclk / 1000))
    let s1 := s.modQuarter q (fun u => { u with claimAt := none, claimFor := [] })
    (s.quarter q).claimFor.foldl (fun s c => (s.chargeDl c s.tick units none).noteOverrun c s.tick) s1

/-- R438, §9.5: the claim latency of a quarter ends at the first instant at which a context that the claim serves could start: its tracks
are free and its planes are bound (DESIGN CHOICE, log entry 70). -/
def State.noteLatency (s : State) (q least : Nat) : State :=
  if (s.quarter q).claimFor.any (fun c => (s.startable c).isSome) then s.endLatency q least else s

/-- R438, R448, R451: a deadline claim is raised on quarter `q`: every routine that it does not keep is preempted, and the claim latency
begins.  An abort takes the 6 cclk of R332. -/
def State.raiseClaim (s : State) (q : Nat) : State :=
  -- R657: on a halted quarter a claim raises nothing.
  let meets := if (s.quarter q).halted then [] else (s.quarter q).jobs.filter (fun j => !s.claimKeeps j)
  let waits := (s.reservedOn q).filter (fun c => match s.jobOf c with | some (_, j) => !j.reserved | none => true)
  let s1 := s.modQuarter q (fun u => { u with claim := true, claimAt := if waits.isEmpty then none else some s.now, claimFor := waits })
  let s2 := meets.foldl (fun s j => s.preemptJob q j .claim false) s1
  let s3 := meets.foldl (fun s j => s.settle j.ctx) s2
  s3.noteLatency q (if meets.isEmpty then 0 else 6)

/-- R448: reserved work that reaches a quarter with no claim in force raises one. -/
def State.claimOnWork (s : State) (c : Nat) : State :=
  let e := s.entry c
  match e.quarter with
  | some q =>
    if e.slot.isSome && e.restore.isNone && s.hasReserved e && !(s.quarter q).claim then s.raiseClaim q else s
  | none => s

/-- R449: a claim ends with the reserved work of its period. -/
def State.endClaims (s : State) : State :=
  { s with quarters := s.quarters.zipIdx.map (fun p =>
      if (s.reservedOn p.2).isEmpty then { p.1 with claim := false, claimAt := none, claimFor := [] } else p.1) }

/-! ### Planes (R266 to R268) -/

/-- The physical planes of quarter `q` that a segment in progress uses, or a park or an unpark moves. -/
def State.planesInUse (s : State) (q : Nat) : List Nat :=
  (s.quarter q).jobs.filterMap (·.phys) ++ ((s.quarter q).moves.filter (fun m => m.kind != .ismove)).map (·.phys)

/-- The rank of a context in the order in which contexts last ran a segment on a quarter: greater is longer ago. -/
def Quarter.age (u : Quarter) (c : Nat) : Nat := (u.recent.findIdx? (· == c)).getD u.recent.length

/-- R268: the physical plane to park. -/
def State.parkChoice (s : State) (q : Nat) : Option (Nat × Nat) :=
  let u := s.quarter q
  let open_ := ([0, 1] : List Nat).filter (fun p => !(s.planesInUse q).contains p)
  let held := open_.filterMap (fun p => ((u.plane p).holder).map (fun h => (p, h)))
  match held with
  | [] => none
  | x :: rest => some (rest.foldl (fun b y => if u.age b.2.1 < u.age y.2.1 then y else b) x).2

/-- An internal routine is queued, once. -/
def State.queueInternal (s : State) (i : Internal) : State :=
  if s.internal.contains i then s else { s with internal := s.internal ++ [i] }

/-- R386, R413, R790: the live planes of a context that are held in physical planes are to be parked. -/
def State.parkAll (s : State) (c : Nat) : State := (s.entry c).liveHeld.foldl (fun s pl => s.queueInternal (.park c pl)) s

/-- R267, R268: a plane with a live sub-block is bound: a parked one is unparked into a free physical plane; with none free a plane is
chosen and parked, and where segments in progress use both the bind waits for a commit point.  Of two free physical planes it is the
lower-numbered one that is taken: DESIGN CHOICE (log entry 71). -/
def State.bindPlane (s : State) (q c pl : Nat) : State :=
  if s.planeBound q c pl || s.planeMoving q c pl then s else
  let a := (s.entry c).plane pl
  match a.loc with
  | .phys _ _ => s
  | _ =>
    match s.freePlane q with
    | some p => if a.live = 0 then s else s.queueInternal (.unpark c pl p)
    | none =>
      if (s.quarter q).parkChosen.isSome then s else
      match s.parkChoice q with
      | some (d, dl) => (s.modQuarter q (fun u => { u with
          parkChosen := some (d, dl), parkFor := some c, parkSince := none, bindWaits := u.bindWaits.erase (c, pl) })).queueInternal (.park d dl)
      | none => s.modQuarter q (fun u => { u with bindWaits := addOnce u.bindWaits (c, pl) })

/-- R268: at a commit point the binds that wait are tried again, in the order in which they came. -/
def State.retryBinds (s : State) (q : Nat) : State := (s.quarter q).bindWaits.foldl (fun s b => s.bindPlane q b.1 b.2) s

/-- The physical plane that holds an architectural plane. -/
def Entry.physOf (e : Entry) (pl : Nat) : Option Nat := match (e.plane pl).loc with | .phys _ p => some p | _ => none

/-! ### Progress of a routine -/

/-- A routine runs on, or it stops here: at a wait, at its commit point or at a fault. -/
inductive Prog where
  | go (s : State)
  | stop (s : State)

/-- The state that a run of a routine leaves. -/
def Prog.state : Prog → State
  | .go s => s
  | .stop s => s

/-- The next part of a routine, if it runs on. -/
def Prog.andThen (p : Prog) (f : State → Prog) : Prog :=
  match p with
  | .go s => f s
  | .stop s => .stop s

/-- Wait until a condition holds. -/
def Prog.until (b : Bool) (s : State) : Prog := if b then .go s else .stop s

/-! ### Ports and lanes (§4.1, §4.2) -/

/-- The port of tile `n`'s window line, when a read of it makes a transfer (R91, R92). -/
def State.readPort (s : State) (c n : Nat) : Option Nat :=
  match s.tileLine c n with
  | some (i, l) => if ((s.slice i).flags l).zsrc then none else some (portOfLine i l)
  | none => none

/-- The tiles that a crossbar lane of quarter `q` delivers uncorrectable. -/
def laneBad (q : Nat) (found : List Found) : List Nat :=
  found.filterMap (fun f => match f with | .lane q' n => if q' = q then some n else none | _ => none)

/-- R91, R868: a tile as a client of quarter `q` receives it: a structural zero makes no transfer, and no lane loses it. -/
def State.readFor (s : State) (q c : Nat) (found : List Found) (n : Nat) : Tile :=
  if (laneBad q found).contains n && (s.readPort c n).isSome then Tile.poisoned else s.readTile c n

/-! ### Staging lines (Table 3.5, R125, R183) -/

/-- A use of a basket line by context `c`: a floor line at once, or a wait at the allocator of the slice. -/
def State.takeLine (s : State) (c slice port lane cls : Nat) (o : LineOwner) : State :=
  let sl := s.slice slice
  if (sl.lineOf o).isSome || sl.waiting.any (fun w => w.owner == o) then s else
  let k := (s.entry c).slot.getD 0
  match sl.takeFloor k port o with
  | some sl1 => s.modSlice slice (fun _ => sl1)
  | none => s.modSlice slice (fun sl => { sl with waiting := sl.waiting ++ [{ lane := lane, cls := cls, slot := k, owner := o, port := port }] })

/-- Staging lines for a list of tiles, from write lane `lane` of quarter `q`; the routine runs on once all have theirs. -/
def State.stageLines (s : State) (q c lane kind : Nat) (tiles : List Nat) : Prog :=
  let e := s.entry c
  let s1 := tiles.foldl (fun s n => s.takeLine c (e.sliceOf n) (e.portOf n) (8 * q + lane) (s.prioOf kind c) (.staged c n)) s
  Prog.until (tiles.all (fun n => ((s1.slice (e.sliceOf n)).lineOf (.staged c n)).isSome)) s1

/-- The staging line of a tile. -/
def State.stagedLine (s : State) (c n : Nat) : Option Nat := (s.slice ((s.entry c).sliceOf n)).lineOf (.staged c n)

/-- The port of a tile's staging line. -/
def State.stagedPort (s : State) (c n : Nat) : Nat := portOfLine ((s.entry c).sliceOf n) ((s.stagedLine c n).getD 0)

/-- A staged line is written: its payload, and a word that is no structural zero (R97). -/
def State.fillStaged (s : State) (c n : Nat) (rows : Tile) : State :=
  match s.stagedLine c n with
  | some l => s.modSlice ((s.entry c).sliceOf n) (fun sl => (sl.writePayload l rows).writeWord l { live := true, zero := false, zsrc := false, tile := n })
  | none => s

/-- A value write of tile `n` that waits for its commit. -/
def State.stagedTile (s : State) (c n : Nat) (rows : Tile) : StagedTile := { tile := n, line := s.stagedLine c n, rows := rows }

/-- The routine of context `c` on quarter `q` has its effects staged: the commit point is next. -/
def State.toCommit (s : State) (q c : Nat) (f : Job → Job) : State := s.modJob q c (fun j => { f j with stage := .staged })

/-! ### Translation (§10.5) -/

/-- What a lookup answers. -/
inductive Xlat where
  | at_ (spa : Nat)
  | miss
  | fault (i : FaultInfo)
  deriving DecidableEq, Repr

/-- R494: a cached leaf translates an address of a context. -/
def TlbEntry.covers (t : TlbEntry) (c va : Nat) : Bool := t.ctx == c && t.va / 2 ^ t.bits == va / 2 ^ t.bits

/-- The level of a leaf by its page size. -/
def leafLevel (bits : Nat) : Nat := (bits - 12) / 9 + 1

/-- R496: an access through a leaf. -/
def TlbEntry.use (t : TlbEntry) (va : Nat) (write : Bool) : Xlat :=
  if (if write then t.wr else t.rd) then .at_ (t.page + va % 2 ^ t.bits)
  else .fault { code := Code.xlatPerm, lvl := leafLevel t.bits, write := write, va := va }

/-- An entry is added to a cache of `n` entries; a full one loses the entry that the free value names (R501, log entry 6). -/
def fillCache {α : Type} (n pick : Nat) (xs : List α) (x : α) : List α :=
  if xs.length < n then xs ++ [x] else xs.eraseIdx (Config.victim pick % n) ++ [x]

/-- The quarter TLB takes an entry. -/
def State.fillTlb (s : State) (q : Nat) (t : TlbEntry) : State :=
  let s1 := s.modQuarter q (fun u => { u with tlb := fillCache 256 s.free.picks u.tlb t })
  { s1 with free := { s1.free with picks := s1.free.picks + 1 } }

/-- R494 to R497: a lookup by quarter `q` for context `c`; a miss in both TLBs starts a walk if one can start. -/
def State.xlat (s : State) (q c va : Nat) (write : Bool) : State × Xlat :=
  if 2 ^ 48 ≤ va then (s, .fault { code := Code.xlatRange, write := write, va := va }) else
  match (s.quarter q).tlb.find? (fun t => t.covers c va) with
  | some t => (s, t.use va write)
  | none =>
    match s.fabric.sharedTlb.find? (fun t => t.covers c va) with
    | some t => (s.fillTlb q t, t.use va write)
    | none =>
      let ws := s.fabric.walks
      if ws.any (fun w => w.ctx == c && w.va / 4096 == va / 4096) || decide (32 ≤ ws.length) ||
         decide (8 ≤ (ws.filter (fun w => w.quarter == q)).length) then (s, .miss)
      else (s.modFabric (fun f => { f with walks := f.walks ++ [{ ctx := c, quarter := q, va := va, write := write }] }), .miss)

/-- A fault of the context's routine. -/
def State.routineFault (s : State) (c : Nat) (i : FaultInfo) : State := s.faultContext c i

/-- The pages of a list of addresses, each once, in order. -/
def pagesOf (vas : List (Nat × Nat)) : List Nat :=
  ((vas.map (fun p => (pieces 4096 p.1 p.2).map (fun x => x.1))).flatten).foldl
    (fun acc a => if acc.any (fun b => b / 4096 == a / 4096) then acc else acc ++ [a]) []

/-- R507, R508: a walk of a context whose page has become known by another ends; a read of it under way comes back to no one. -/
def State.cancelWalk (s : State) (c va : Nat) : State :=
  s.modFabric (fun f =>
    let mine := fun (o : TxnOwner) => match o with | .walk d v => d == c && v / 4096 == va / 4096 | _ => false
    { f with
      walks := f.walks.filter (fun w => !(w.ctx == c && w.va / 4096 == va / 4096))
      got := f.got.filter (fun g => !mine g.owner)
      txns := (f.txns.filter (fun t => !(mine t.owner && t.state == .posted))).map (fun t => if mine t.owner then { t with owner := .device } else t) })

/-- R328, R500, R512: every page that a list of ranges touches is translated for the segment; the first fault stops the routine. -/
def State.needPages (s : State) (q c : Nat) (write : Bool) (ranges : List (Nat × Nat)) : Prog :=
  let known := fun (s : State) (a : Nat) => match s.jobOf c with | some (_, j) => j.pages.any (fun p => p.1 == a / 4096) | none => false
  let r := (pagesOf ranges).foldl (fun (acc : State × Bool × Bool) a =>
    if acc.2.2 || known acc.1 a then acc else
    match acc.1.xlat q c a write with
    | (s1, .at_ spa) =>
      ((s1.cancelWalk c a).modJob q c (fun j => { j with pages := j.pages ++ [(a / 4096, spa / 4096)] }), acc.2.1, false)
    | (s1, .miss) => (s1, true, false)
    | (s1, .fault i) => (s1.routineFault c i, true, true)) (s, false, false)
  Prog.until (!r.2.1) r.1

/-- The SPA of an address whose page the segment has translated. -/
def Job.spaOf (j : Job) (va : Nat) : Nat := ((j.pages.find? (fun p => p.1 == va / 4096)).map (·.2)).getD 0 * 4096 + va % 4096

/-- The routine of a context. -/
def State.job (s : State) (c : Nat) : Job := ((s.jobOf c).map (·.2)).getD { ctx := c, tracks := [] }

/-- The ordinals of the segment in progress. -/
def Job.ordinals (j : Job) : List Nat := (List.range j.len).map (fun d => j.base + d)

/-- The line transfers of a segment are posted once. -/
def State.postOnce (s : State) (q c : Nat) (post : State → State) : State :=
  if (s.job c).fetched then s else (post s).modJob q c (fun j => { j with fetched := true })

/-- The first ordinals of a list, each of which takes the line transfers that `cost` gives, for which `made` transfers suffice. -/
def readyOrds (cost : Nat → Nat) : Nat → List Nat → List Nat
  | _, [] => []
  | made, o :: rest => if cost o ≤ made then o :: readyOrds cost (made - cost o) rest else []

/-- Ranges cut at page boundaries, with their SPAs. -/
def Job.places (j : Job) (ranges : List (Nat × Nat)) : List (Nat × Nat × Nat) :=
  ((ranges.map (fun p => pieces 4096 p.1 p.2)).flatten).map (fun p => (p.1, j.spaOf p.1, p.2))

/-- R481, R794, R1033, Table 10.3: accesses by SPA are classified as they are issued: while a switch holds one of them back the routine waits;
one that may not be made faults the context with what `info` says of it.  A doorbell may reach a NOTIFY window (R230). -/
def State.classifyAt (s : State) (c : Nat) (doorbell : Bool) (places : List (Nat × Nat × Nat)) (info : FaultInfo) : Prog :=
  if places.any (fun p => s.inSwitchRange p.2.1) then .stop s else
  match places.find? (fun p => !((s.place p.2.1).plain || (doorbell && s.place p.2.1 == .notify))) with
  | some (va, spa, _) => .stop (s.routineFault c { info with code := Code.windowFault, va := va, spa := spa })
  | none => .go s

/-- Table 10.3: the accesses of a list of ranges are classified, each page as the segment has translated it. -/
def State.classify (s : State) (c : Nat) (write doorbell : Bool) (ranges : List (Nat × Nat)) : Prog :=
  s.classifyAt c doorbell ((s.job c).places ranges) { code := Code.windowFault, write := write }

/-- R328, R481, R1033: the writes of a class W segment are classified once, before the first of them. -/
def State.classifyWrites (s : State) (q c : Nat) (doorbell : Bool) (ranges : List (Nat × Nat)) : Prog :=
  if (s.job c).classified then .go s else
  (s.classify c true doorbell ranges).andThen fun s => .go (s.modJob q c (fun j => { j with classified := true }))

/-- Distinct reads, by SPA and length. -/
def readsOf (ps : List (Nat × Nat × Nat)) : List (Nat × Nat × Nat) :=
  ps.foldl (fun acc p => if acc.any (fun x => x.2 == p.2) then acc else acc ++ [p]) []

/-- R211: a write of an earlier operation of the context that has not taken effect, and that overlaps a read. -/
def Txn.racesWith (w t : Txn) : Bool :=
  w.isWrite && w.state == .posted && w.owner == t.owner && decide (w.opc < 0x80) && decide (t.spa < w.spa + w.len) && decide (w.spa < t.spa + t.len)

/-- R211: a read of an operation goes to the memory fabric.  Against a write of its own context to the same bytes that has not taken effect
it may go first: the free value says whether it does (log entry 4). -/
def State.postRacing (s : State) (t : Txn) : State :=
  if s.fabric.txns.any (fun w => w.racesWith t) then
    let s1 : State := { s with free := { s.free with races := s.free.races + 1 } }
    if Config.raceNew s.free.races then s1.post t
    else s1.modFabric (fun f => { f with
      txns := f.txns.takeWhile (fun w => !w.racesWith t) ++ [{ t with id := f.nextId, bus := t.busId f.nextId }] ++
        f.txns.dropWhile (fun w => !w.racesWith t)
      nextId := f.nextId + 1 })
  else s.post t

/-- The reads of a list of ranges are posted from the load/store engine of quarter `q`. -/
def State.postReads (s : State) (q c : Nat) (ranges : List (Nat × Nat)) : State :=
  let op := (s.entry c).headOp
  ((readsOf ((s.job c).places ranges)).map (fun p => ({
      id := 0, master := q, target := s.targetOf p.2.1, owner := .op c, kind := .read, spa := p.2.1, len := p.2.2, va := p.1
      seq := (op.map (fun o => seqOf o.pkt)).getD 0, opc := (op.map (fun o => opcOf o.pkt)).getD 0 } : Txn))).foldl State.postRacing s

/-- The data of a list of ranges, where every read of them has returned. -/
def State.gather (s : State) (c : Nat) (ranges : List (Nat × Nat)) : Option (List Piece) :=
  ((s.job c).places ranges).mapM (fun p =>
    (s.fabric.got.find? (fun g => g.owner == .op c && g.spa == p.2.1 && g.data.length == p.2.2)).map (fun g =>
      { va := p.1, spa := p.2.1, data := g.data, bad := g.bad }))

/-- Data fetched for a context are done with. -/
def State.dropGot (s : State) (c : Nat) : State := s.modFabric (fun f => { f with got := f.got.filter (fun g => g.owner != .op c) })

/-- R242: the poisoned chunks of a list of pieces, by SPA, with the VA of each. -/
def poisonedChunks (ps : List Piece) : List (Nat × Nat) :=
  ((ps.map (fun p => (p.bad.filter (fun b => decide (p.spa < b + 64) && decide (b < p.spa + p.data.length))).map
    (fun b => (b, p.va + b - p.spa)))).flatten).foldl (fun acc x => if acc.any (fun y => y.1 == x.1) then acc else acc ++ [x]) []

/-! ### The walk (§10.6) -/

/-- What a walk comes to. -/
inductive WalkRes where
  /-- The entry at this SPA, of this level, is to be read. -/
  | need (lvl spa : Nat)
  | bad (i : FaultInfo)
  | leaf (t : TlbEntry) (tables : List TableEntry)
  deriving DecidableEq, Repr

/-- Table 10.9: the sub-code of a walk read that a remote target answers with an error, or that reports an uncorrectable error. -/
def walkSub (st : Nat) (bad : Bool) : Option Nat :=
  if st = Code.stVoid then some Code.subVoid
  else if st = Code.stNotify then some Code.subNotify
  else if st = Code.stUnbacked then some Code.subUnbacked
  else if st = Code.stPoison then some Code.subUe
  else if st ≠ 0 then some Code.subRemote
  else if bad then some Code.subUe
  else none

/-- R503: the walk of `va` from `table` through the levels of a list, with the entries that have been read; `seen` collects the
tables found on the way. -/
def State.walkFrom (s : State) (w : Walk) : List Nat → Nat → List TableEntry → WalkRes
  | [], _, _ => .bad { code := Code.xlatFormat }
  | lvl :: rest, table, seen =>
    let lo := 12 + 9 * (lvl - 1)
    let a := table + 8 * bitsAt w.va lo 9
    let fault := fun (code sub spa : Nat) => WalkRes.bad { code := code, sub := sub, lvl := lvl, write := w.write, va := w.va, spa := spa }
    match s.fabric.tableCache.find? (fun t => t.ctx == w.ctx && t.level == lvl && t.tag == w.va / 2 ^ lo) with
    | some t => s.walkFrom w rest t.table seen
    | none =>
      match s.fabric.got.find? (fun g => g.owner == .walk w.ctx w.va && g.spa == a) with
      | none =>
        if s.inSwitchRange a then .need lvl a else
        match s.place a with
        | .void => fault Code.walkFault Code.subVoid a
        | .notify => fault Code.walkFault Code.subNotify a
        | .unbacked => fault Code.walkFault Code.subUnbacked a
        | _ => .need lvl a
      | some g =>
        match walkSub g.st (!g.bad.isEmpty) with
        | some sub => fault Code.walkFault sub a
        | none =>
          let e := leNat g.data
          if !bitAt e 0 then fault Code.xlatInvalid 0 0
          else if lvl = 4 ∧ bitAt e 1 then fault Code.xlatFormat 0 0
          else if lvl = 1 ∧ !bitAt e 1 then fault Code.xlatFormat 0 0
          else if !bitAt e 1 then
            let next := bitsAt e 12 40 * 4096
            s.walkFrom w rest next (seen ++ [{ ctx := w.ctx, level := lvl, tag := w.va / 2 ^ lo, table := next }])
          else if lo > 12 ∧ bitsAt e 12 (lo - 12) ≠ 0 then fault Code.xlatFormat 0 0
          else
            let page := bitsAt e lo (52 - lo) * 2 ^ lo
            if !bitAt page 51 && decide (Config.backedEnd ≤ bitsAt page 0 44) then fault Code.xlatUnbacked 0 0
            else .leaf { ctx := w.ctx, va := w.va, bits := lo, page := page, rd := bitAt e 2, wr := bitAt e 3 } seen

/-- A walk leaves the page walker. -/
def State.endWalk (s : State) (w : Walk) : State :=
  s.modFabric (fun f => { f with walks := f.walks.erase w, got := f.got.filter (fun g => g.owner != .walk w.ctx w.va) })

/-- R495: the caches take a walk's leaf and the tables that it read. -/
def State.fillFromWalk (s : State) (w : Walk) (t : TlbEntry) (tables : List TableEntry) : State :=
  let s1 := s.fillTlb w.quarter t
  let s2 := s1.modFabric (fun f => { f with sharedTlb := fillCache 8192 s1.free.picks f.sharedTlb t })
  tables.foldl (fun s x =>
    let s1 := s.modFabric (fun f => { f with tableCache := fillCache 512 s.free.picks f.tableCache x })
    { s1 with free := { s1.free with picks := s1.free.picks + 1 } }) s2

/-- TRANSLATION_WALK (R489 to R493, R495, R497, R503 to R508): the walk of an address runs on, up to its next read. -/
def execTranslationWalk (ctx va : Nat) (s : State) : Out :=
  if 512 ≤ ctx then .fault (.noSuchUnit "context" ctx) else
  .next (match s.fabric.walks.find? (fun w => w.ctx == ctx && w.va / 4096 == va / 4096) with
    | none => s
    | some w =>
      match s.walkFrom w [4, 3, 2, 1] (s.entry ctx).desc.troot [] with
      | .need lvl a =>
        if s.fabric.txns.any (fun t => t.owner == .walk ctx w.va) then s else
        s.post { id := 0, master := masterPwk, target := s.targetOf a, owner := .walk ctx w.va, kind := .read, spa := a, len := 8
                 seq := lvl, va := w.va }
      | .bad i => (s.endWalk w).routineFault ctx i
      | .leaf t tables => (s.endWalk w).fillFromWalk w t tables)

end Sys2Proof.Machine
end

