-- ==== Sys2Proof/Machine/Issue.lean ====
section
/-! DEFINITION. Machine/Issue.lean: the admission of operation packets (§5.2, §5.3, Table 8.5 order 1), frames of deadline contexts
(§9.1, §9.7), issue with its content checks (Table 5.2, R434), and the start of a segment on its tracks. -/
namespace Sys2Proof.Machine

/-! ### Frames (§9.1) -/

/-- R429: the first timebase instant, ns, that is not before the start of period `p`. -/
def periodStart (hz : Nat) (p : Int) : Nat := (p.toNat * 1000000000 + hz - 1) / hz

/-- A timebase instant as an instant of the device's own time (R470): for one to come the REFCLK edge at which the timebase reaches
it (R651); one that has passed before own time 0 is 0. -/
def State.ownInstant (s : State) (t : Nat) : Nat :=
  if s.timebase < t then s.now / 10 * 10 + (t - s.timebase + 9) / 10 * 10 else s.now + t - s.timebase

/-- R430: the period to which an FRM's frame number is bound at admission. -/
def State.bindFrame (s : State) (f : Nat) : Int :=
  let k := Int.ofNat s.period
  let d := (Int.ofNat f - k) % 65536
  if d ≤ 32767 then k + d else k + d - 65536

/-- R431, R470: the deadline of a frame bound to period `p`, fixed now. -/
def State.deadlineOf (s : State) (p : Int) : Nat := s.ownInstant (periodStart s.frameHz (p + 1))

/-- R432, R433, R435: the queue with each operation other than FRM given the frame of the FRM before it; an FRM whose period is not
later than that of the FRM before it opens none. -/
def retagFrom : Option Int → List Op → List Op
  | _, [] => []
  | cur, op :: rest =>
    if opcOf op.pkt = 0x05 then
      let valid := match cur, op.frame with | some c, some p => decide (c < p) | _, _ => true
      op :: retagFrom (if valid then op.frame else cur) rest
    else { op with frame := cur } :: retagFrom cur rest

/-- The FRMs of a queue that open frames, as the frames they open. -/
def openedFrom : Option Int → List Op → List Frame
  | _, [] => []
  | cur, op :: rest =>
    match op.frame with
    | some p =>
      if opcOf op.pkt == 0x05 && (match cur with | some c => decide (c < p) | none => true) then
        { num := frameOf op.pkt, bound := op.bound, period := p, deadline := op.deadline } :: openedFrom (some p) rest
      else openedFrom cur rest
    | none => openedFrom cur rest

/-- R430 to R433: the frames of a deadline context follow its queue: operations that have issued keep theirs, and an FRM that has issued and not
completed opens its frame. -/
def Entry.reframe (e : Entry) : Entry :=
  if !e.deadlined then e else
  let cur := e.curFrame.map (·.period)
  let issued := e.queue.takeWhile (·.issued)
  let rest := e.queue.dropWhile (·.issued)
  let opening := openedFrom cur issued
  let last := (opening.getLast?.map (·.period)).orElse (fun _ => cur)
  let opened := opening ++ openedFrom last rest
  let known := e.frames.filter (fun f => e.curFrame.any (fun c => decide (f.period ≤ c.period)) || opened.any (fun o => o.period == f.period))
  { e with
    queue := issued ++ retagFrom last rest
    frames := known ++ opened.filter (fun o => !(known.any (fun f => f.period == o.period))) }

/-- The operations of a context's queue that belong to a frame. -/
def Entry.frameOps (e : Entry) (p : Int) : List Op := e.queue.filter (fun op => op.frame == some p)

/-- R223, R457, R458: `seq` and committed segments of the first operation of a frame that has not completed: one that waits or runs, or one that
a context fault has ended. -/
def Entry.unfinished (e : Entry) (f : Frame) : Option (Nat × Nat) :=
  f.ended.orElse (fun _ => ((e.frameOps f.period).head?).map (fun op => (seqOf op.pkt, op.segs)))

/-- R458: one DL_MISS event for a missed frame.  A suspension named the period when one was told to the context for it. -/
def State.missFrame (s : State) (c : Nat) (f : Frame) : State :=
  let e := s.entry c
  match e.unfinished f with
  | none => s
  | some (seq, segs) =>
    if f.missed then s else
    let s1 := s.modEntry c (fun e => { e with frames := e.frames.map (fun x => if x.period = f.period then { x with missed := true, past := true } else x) })
    let suspended := e.suspensions.any (fun x => Int.ofNat x.1 == f.period)
    let charge := if 0 ≤ f.period then e.chargeIn f.period.toNat else 0
    s1.contextEvent c Code.dlMiss (natLe 2 f.num ++ natLe 2 seq ++ natLe 4 segs ++
      natLe 8 (f.bound % 2 ^ 64).toNat ++ natLe 4 charge ++ [BitVec.ofNat 8 (b2n s.profile.missDrop + 2 * b2n suspended)])

/-! ### Admission -/

/-- Table 16.6: the payload of CTX_UNKNOWN and of a NAK of ATT. -/
def nakPayload (pkt : List Byte) (code : Nat) : List Byte := [BitVec.ofNat 8 (opcOf pkt), 0] ++ natLe 2 (seqOf pkt) ++ natLe 2 code

/-- R206, R361: a NAK that only the device ring reports. -/
def State.ringNak (s : State) (pkt : List Byte) (code : Nat) : State :=
  s.deviceEvent code (some (ctxOf pkt)) (nakPayload pkt code)

/-- R375: an operation that only a resident context can run. -/
def needsResidence (op : Op) : Bool := opcOf op.pkt != 0x02 && opcOf op.pkt != 0x03

/-- R375, R376: a SPILLED context becomes a restore candidate, in its turn. -/
def State.makeCandidate (s : State) (c : Nat) : State :=
  let e := s.entry c
  if e.state = .spilled ∧ e.candidate.isNone ∧ e.slot.isNone ∧ (e.deadlined || e.queue.any needsResidence) then
    { (s.modEntry c (fun e => { e with candidate := some s.candidates, waitTold := false })) with candidates := s.candidates + 1 }
  else s

/-- R472, Table 9.4: reserved work admitted while a rinse goes on lies in a period that the rinse overlaps. -/
def State.suspendAdmitted (s : State) (c : Nat) : State :=
  let e := s.entry c
  match e.quarter with
  | some q => if s.rinsing && e.restore.isNone && s.hasReserved e then s.suspend q suspProfile else s
  | none => s

/-- R199, R430, R457: an operation is admitted. -/
def State.queueAdmitted (s : State) (c : Nat) (pkt : List Byte) : State :=
  let isFrm := (s.entry c).deadlined && opcOf pkt == 0x05
  let p := s.bindFrame (frameOf pkt)
  let op : Op := { pkt := pkt, frame := if isFrm then some (tickOf s.frameHz p) else none, bound := p, deadline := if isFrm then s.deadlineOf p else 0 }
  let s1 := s.endClaims.modEntry c (fun e => ({ e with queue := e.queue ++ [op], expSeq := (e.expSeq + 1) % 65536 }).reframe)
  let s2 := (((s1.makeCandidate c).settle c).claimOnWork c).suspendAdmitted c
  match (s2.entry c).queue.getLast? with
  | some op =>
    match (s2.entry c).frames.find? (fun f => some f.period == op.frame) with
    | some f => if f.deadline ≤ s2.now then s2.missFrame c f else s2
    | none => s2
  | none => s2

/-- R199 to R201, R203, R204, R206, R360, R366: the admission checks of a packet for this device. -/
def State.receiveOp (s : State) (pkt : List Byte) : State :=
  let c := ctxOf pkt % 512
  let e := s.entry c
  if opcOf pkt = 0x01 then
    if e.state != .detached || e.att.isSome then s.ringNak pkt Code.ctxExists
    else s.putEntry c { e with att := some pkt }
  else if e.state = .detached then s.ringNak pkt Code.ctxUnknown
  else if seqOf pkt ≠ e.expSeq then s.nakArrival c pkt Code.seqOrder
  else if 64 ≤ e.queue.length then s.nakArrival c pkt Code.queueFull
  else if e.state = .faulted ∧ opcOf pkt ≠ 0x02 then s.nakArrival c pkt Code.ctxFaulted
  else s.queueAdmitted c pkt

/-- OPR_RECEIVE (R195, R199 to R207, R350, R618 to R620, R734, R735, R850, R859): an OPR is taken from VC0 and admitted, or routed on.
Until readiness it stays in its buffer. -/
def execOprReceive (link : Nat) (pkt : List Byte) (s : State) : Out :=
  guardLink link (.next (
    if pktType pkt ≠ tOpr || !s.running || !s.ready || !s.inTurn link pkt then s else
    let dev := natAt pkt 18 2 / 512
    if pkt.length ≠ 80 ∨ pktNsl pkt ≠ 4 then (s.takePacket link pkt).discard link Code.pvLen pkt
    else if pktTag pkt ≠ 0 || !zeroAt pkt 4 12 || (link == 0 && (byteAt pkt 1 / 64 != 0 || byteAt pkt 3 / 16 != 0)) then
      (s.takePacket link pkt).discard link Code.pvPktRsvd pkt
    else if dev ≠ s.devId then
      (if link = 0 ∧ (s.route dev 0).isNone then (s.takePacket link pkt).discard link Code.pvUnroutable pkt else s.hold link pkt dev)
    else (s.takePacket link pkt).receiveOp (bytesAt pkt 16 64)))

/-! ### Issue -/

/-- R432 to R435, R462, R463: the frame checks of an operation of a deadline context, made after order 8. -/
def State.frameCheck (s : State) (e : Entry) (op : Op) : Option Nat :=
  if !e.deadlined then none
  else if opcOf op.pkt = 0x05 then
    match e.curFrame, op.frame with
    | some c, some p =>
      if p ≤ c.period then some Code.frameOrder
      else if s.profile.missDrop && decide (op.deadline ≤ s.now) then some Code.frameDropped else none
    | _, _ => if s.profile.missDrop && decide (op.deadline ≤ s.now) then some Code.frameDropped else none
  else match e.curFrame with
    | some f =>
      if frameOf op.pkt ≠ f.num then some Code.frameMismatch
      else if s.profile.missDrop && decide (f.deadline ≤ s.now) then some Code.frameDropped else none
    | none => none

/-- R203, R204, R369, R434: the content checks of an operation at issue; the SV-256 has every capacity of the architecture, so
OUT_OF_RANGE (order 7) never applies (R4). -/
def State.issueCheck (s : State) (c : Nat) (op : Op) : Option Nat :=
  let e := s.entry c
  let p := op.pkt
  if !opcKnown (opcOf p) || opcOf p == 0x01 then some Code.opcUnknown
  else if packetReserved p then some Code.fieldReserved
  else if tileRangeBad s.profile.tilesPerCtx p then some Code.tileRange
  else match s.frameCheck e op with
  | some n => some n
  | none =>
    if opcOf p = 0x03 then
      (if s.sealKey.isNone then some Code.sealAbsent else if e.desc.sepoch = 0xFFFFFFFF then some Code.epochExhausted else none)
    else ownCheck p (fun pl => (e.plane pl).isOpen)

/-- R463: a frame that a dropped FRM opens. -/
def State.openFrame (s : State) (c : Nat) (op : Op) : State :=
  s.modEntry c (fun e => { e with curFrame := e.frames.find? (fun f => some f.period == op.frame) })

/-- R200, R204, R207, R463: the first operation of a context is refused at issue. -/
def State.refuse (s : State) (c code : Nat) : State :=
  match (s.entry c).headOp with
  | none => s
  | some op =>
    let s0 := s.dropAhead c
    let s1 := if opcOf op.pkt = 0x05 ∧ code = Code.frameDropped then s0.openFrame c op else s0
    -- R407, R428: a spill that is not to go on gives its salt up, and the next one draws its own.
    let s2 := if opcOf op.pkt = 0x03 then s1.modEntry c (fun e => { e with salt := none, spillAt := 0 }) else s1
    (((s2.nakIssue c code).modEntry c Entry.reframe).settle c).endClaims

/-- R460, R461: a missed frame of a context ends: from the head of the queue each operation of a missed frame is refused, up to the
first whose routine still holds a track. -/
def State.dropMissed : Nat → State → Nat → State
  | 0, s, _ => s
  | n + 1, s, c =>
    let e := s.entry c
    match e.headOp with
    | none => s
    | some op =>
      let missed := e.frames.any (fun f => f.missed && some f.period == op.frame)
      if !missed || (s.jobOf c).isSome then s
      else State.dropMissed n (s.refuse c Code.frameDropped) c

/-- R460, R461: under DROP, what a commit point or a deadline leaves of the missed frames of a context. -/
def State.dropFrames (s : State) (c : Nat) : State :=
  if s.profile.missDrop && (s.entry c).deadlined then s.dropMissed (s.entry c).queue.length c else s

/-- R104: the plane of a segment that writes one is copied in the segment's first cclk; a sub-block that is not live reads +0 from
then on (R51). -/
def State.checkpoint (s : State) (q c : Nat) (op : Op) : State :=
  let o := opcOf op.pkt
  let pl := (geomOf op.pkt).pl
  match (s.entry c).physOf pl with
  | some p => if o = 0x21 ∨ o = 0x22 ∨ o = 0x25 then 
      s.modPlane q p (fun x => ({ x with blocks := x.blocks.filter (fun b => bitAt ((s.entry c).plane pl).live b.1) } : PhysPlane).take
        ((s.entry c).plane pl).live) else s
  | none => s

/-- R266: a plane with no live sub-block takes a free physical plane as the segment that needs it starts. -/
def State.takePlane (s : State) (q c pl : Nat) : State :=
  if ((s.entry c).plane pl).loc != .none then s else
  match s.freePlane q with
  | some p => (s.modPlane q p (fun _ => { holder := some (c, pl) })).modEntry c (fun e => e.modPlane pl (fun a => { a with loc := .phys q p }))
  | none => s

/-- R313, R330, R387, R436, R440, Table 8.3: the next segment of a context's first operation takes its tracks.  A reserved one ends the claim
latency (R438). -/
def State.startSegment (s : State) (q c : Nat) (op : Op) : State :=
  let o := opcOf op.pkt
  let pl := (geomOf op.pkt).pl
  let reserved := s.opReserved (s.entry c) op
  let needed := ((s.entry c).planeNeeded op.pkt).isSome
  let len := segmentLen op.pkt s.profile.segSteps op.ord
  let ahead := (s.entry c).ahead.filter (fun a => a.base == op.ord && a.len == len)
  let sa := if ahead.isNone then s.dropAhead c else s
  let sb := if reserved then sa.endLatency q 0 else sa
  let sp := if needed then sb.takePlane q c pl else sb
  let e := sp.entry c
  let writes := o == 0x21 || o == 0x22 || o == 0x25
  let job : Job :=
    { ctx := c, tracks := opcTracks o, base := op.ord, len := len, takenAt := sp.now
      reserved := reserved, period := sp.tick, saved := writes
      phys := if needed then e.physOf pl else none, writesDone := op.ord
      asked := ahead.isSome, fetched := ahead.any (·.moved) }
  let s1 := sp.checkpoint q c op
  let s2 := s1.modQuarter q (fun u => { u with
    jobs := u.jobs ++ [job]
    recent := c :: u.recent.filter (· != c)
    bindWaits := u.bindWaits.filter (fun b => b.1 != c)
    tracks := u.tracks.zipIdx.map (fun t => if (opcTracks o).contains t.2 then t.1.serve (e.slot.getD 0) else t.1) })
  let s3 := s2.modHeadOp c (fun x => { x with issued := true, stopped := false, pepoch := if x.issued then x.pepoch else sp.pepoch })
  s3.modEntry c (fun e => { e with state := .running })

/-- R371, R375, R1031: the DET or SPL at the head of the queue of a context that holds no slot, or of one whose restore is between
segments, runs on the control track of the lowest-numbered quarter in service. -/
def State.beginUnslotted (s : State) (c : Nat) : State :=
  let e := s.entry c
  match e.headOp, s.quartersUp.head? with
  | some op, some q =>
    if (e.state != .spilled && e.state != .faulted) || (opcOf op.pkt != 0x02 && opcOf op.pkt != 0x03) || op.done || (s.jobOf c).isSome ||
       !s.quarterStarts q || !s.tracksOpen q [trackControl] || (s.claimed q && !s.opReserved e op) then s else
    match (if op.issued then none else s.issueCheck c op) with
    | some code => s.refuse c code
    | none =>
      let job : Job := { ctx := c, tracks := [trackControl], len := 1, takenAt := s.now, reserved := s.opReserved e op, period := s.tick }
      (s.modQuarter q (fun u => { u with jobs := u.jobs ++ [job] })).modHeadOp c (fun x =>
        { x with issued := true, stopped := false, pepoch := if x.issued then x.pepoch else s.pepoch })
  | _, _ => s

/-- R267: what the first operation of a context needs before its segment can start: its plane bound, or every plane parked for a spill. -/
def State.askBind (s : State) (q c : Nat) (op : Op) : State :=
  match (s.entry c).planeNeeded op.pkt with
  | some pl => s.bindPlane q c pl
  | none => if opcOf op.pkt = 0x03 then s.parkAll c else s

/-- An operation of a context at its track: it is refused, its plane is bound, or its segment starts.  The bind is asked for while the
operation's own tracks are taken too, so that the choice of R268 falls at the first commit point that leaves a plane. -/
def State.beginSegment (s : State) (c : Nat) : State :=
  match s.couldRun c with
  | none => s.beginUnslotted c
  | some (q, op) =>
    if s.claimed q && !s.opReserved (s.entry c) op then s
    else if !s.tracksOpen q (opcTracks (opcOf op.pkt)) then
      (if op.issued || (s.issueCheck c op).isNone then s.askBind q c op else s)
    else
      match (if op.issued then none else s.issueCheck c op) with
      | some code => s.refuse c code
      | none =>
        let s1 := s.askBind q c op
        match s1.startable c with
        | some _ => if s1.hasTurn q c op then s1.startSegment q c op else s1
        | none => s1

/-- R202, R209: the routine of a context's first operation runs on, up to its next wait or commit point.  `first` is what it does before it
meets the errors found, and `body` what it does after (R345).  An operation with an absent opcode is refused whichever routine is asked
for (R197). -/
def State.runOpWith (s : State) (opc c : Nat) (found : List Found) (first : State → Nat → Job → Op → State)
    (body : State → Nat → Job → Op → Prog) : State :=
  match (s.entry c).headOp with
  | none => s
  | some op =>
    if op.done || (opcOf op.pkt != opc && opcKnown (opcOf op.pkt)) then s else
    let s1 := if (s.jobOf c).isSome then s else s.beginSegment c
    match s1.jobOf c, (s1.entry c).headOp with
    | some (q0, j0), some op0 =>
      if j0.kind != .op || j0.stage != .gather || j0.awaitsSalt then s1 else
      let found := if (s.jobOf c).isSome then found else s1.atDispatch opc found
      let s2 := (if found.isEmpty then s1 else first s1 q0 j0 op0).applyAll (some c) none found
      match s2.jobOf c, (s2.entry c).headOp with
      | some (q, j), some op => (body s2 q j op).state
      | _, _ => s2
    | _, _ => s1

/-- The routine of an operation that issues no memory write meets the errors found first. -/
def State.runOp (s : State) (opc c : Nat) (found : List Found) (body : State → Nat → Job → Op → Prog) : State :=
  s.runOpWith opc c found (fun s _ _ _ => s) body

/-- An operation command: its context number and the errors found must name units that exist. -/
def opCommand (c : Nat) (found : List Found) (s : State) : Out :=
  if 512 ≤ c then .fault (.noSuchUnit "context" c) else guardFound found (.next s)

end Sys2Proof.Machine
end

