-- ==== Sys2Proof/Machine/Spill.lean ====
section
/-! DEFINITION. Machine/Spill.lean: the save/restore engine: SPL and EVICT (§8.9), the salt draw (R407, R558, R559), RESTORE, and PARK,
UNPARK and ISMOVE (§3.4, §8.6).  Each command runs its routine on, up to its next wait, its commit point or a fault. -/
namespace Sys2Proof.Machine

/-! ### Internal routines take their tracks -/

/-- The dispatch indices of the internal routines (Table 7.3). -/
def dispatchPark : Nat := 0x80
def dispatchUnpark : Nat := 0x81
def dispatchEvict : Nat := 0x82
def dispatchRestore : Nat := 0x83
def dispatchIsmove : Nat := 0x84

/-- Quarter `q` may start an internal routine: it runs and is not halted; during a rinse only spills and parks run (R787); under a
claim only the routines that R450 names; on a quarter that is leaving service only parks (R908). -/
def State.internalStarts (s : State) (q : Nat) (rinseToo leaveToo claimToo : Bool) : Bool :=
  s.running && s.ready && !(s.quarter q).halted && (!(s.quarter q).leaving || leaveToo) && s.inService q && !s.power.relocking &&
  (rinseToo || !s.rinsing) && (claimToo || !s.claimed q)

/-- An internal routine of context `c` takes its tracks. -/
def State.startInternal (s : State) (q c : Nat) (kind : JobKind) (base : Nat) : State :=
  (s.modQuarter q (fun u => { u with jobs := u.jobs ++ [({ kind := kind, ctx := c, tracks := [trackData], base := base, takenAt := s.now
                                                           period := s.tick, writesDone := base } : Job)] })).settle c

/-- A routine's commands run its part before the errors met (R345), apply those, then run its body if the routine still stands. -/
def State.runInternal (s : State) (c dispatch : Nat) (kind : JobKind) (found : List Found) (first : State → Nat → State)
    (body : State → Nat → Prog) : State :=
  match s.jobOf c with
  | none => s
  | some (q0, j0) =>
    if j0.kind != kind || j0.stage != .gather || j0.awaitsSalt then s else
    let s1 := (if found.isEmpty then s else first s q0).applyAll (some c) (some dispatch) found
    match s1.jobOf c with
    | some (q, _) => (body s1 q).state
    | none => s1

/-! ### Spill (R413 to R419) -/

/-- R407, R558, R559: the salt is drawn at the first run; a pool that is short makes the routine give its track up, with the time for which
it held it. -/
def State.drawSalt (s : State) (q c : Nat) : Prog :=
  if (s.entry c).salt.isSome then .go s
  else if s.hbm.pool < 48 then .stop (s.modJob q c (fun j => { j with awaitsSalt := true, tracks := [], heldBefore := s.heldSoFar j }))
  else
    let s1 : State := { s with hbm := { s.hbm with pool := s.hbm.pool - 48 }, free := { s.free with salts := s.free.salts + 1 } }
    .go (s1.modEntry c (fun e => { e with salt := some (Config.salt s.free.salts) }))

/-- The ports of the line transfers that a record makes (R165): its window line, or its seven parked lines. -/
def State.recordPorts (s : State) (c : Nat) : Rec → List Nat
  | .tile n => (s.readPort c n).toList
  | .sub pl n => (List.range 7).filterMap (fun q => (s.parkedLine c pl n q).map (fun x => portOfLine x.1 x.2))

/-- R328, R481, Table 10.3: the spill area's pages are classified by SPA; the first range that may not be accessed faults the context. -/
def State.classifySpa (s : State) (c dispatch : Nat) (write : Bool) (ranges : List (Nat × Nat)) : Prog :=
  s.classifyAt c false (((ranges.map (fun r => pieces 4096 r.1 r.2)).flatten).map (fun p => (0, p.1, p.2)))
    { code := Code.windowFault, write := write, routine := if dispatch = 0x03 then none else some dispatch }

/-- A write of the spill area is issued, in pieces that no page boundary cuts (R327). -/
def State.postSpill (s : State) (c opc spa : Nat) (bs : List Byte) : State :=
  let seq := (((s.entry c).headOp).map (fun o => seqOf o.pkt)).getD (s.entry c).done
  (pieces 4096 spa bs.length).foldl (fun s p =>
    s.post { id := 0, master := masterSre, target := s.targetOf p.1, owner := .op c, kind := .write, spa := p.1, len := p.2
             data := bytesAt bs (p.1 - spa) p.2, seq := seq, opc := opc }) s

/-- R354, R418: bytes 40 to 47 of the descriptor are written as one write. -/
def State.writeDescriptor (s : State) (c : Nat) : State :=
  let d := (s.entry c).desc
  s.writeRecord masterSre (.record c) (d.dspa + 40) (natLe 4 (d.sepoch + 1) ++ natLe 4 1) []

/-- Table 3.10: a lost parked line of a sub-block poisons elements in its spill record, or as the plane is unparked: PLANE_UE, kind 3, for
the first of them.  A record has no physical plane, and names 0: DESIGN CHOICE (log entry 72). -/
def State.parkedPoison (s : State) (q p c pl n : Nat) : State :=
  (List.range 7).foldl (fun s k =>
    match s.parkedLine c pl n k with
    | some (i, l) =>
      if (s.slice i).lost.contains l then
        let e := (overlapping k).headD 0
        s.planeUeFor q p (256 * (32 * (n / 8) + e / 32) + 32 * (n % 8) + e % 32) 3 (some (s.handle c))
      else s
    | none => s) s

/-- One record of a spill is issued. -/
def State.spillRecord (s : State) (q c dispatch ord : Nat) (r : Rec) (nt : Nat) : State :=
  let s1 := match r with
    | .sub pl n => s.parkedPoison q 0 c pl n
    | .tile _ => s
  (s1.postSpill c dispatch ((s.entry c).desc.sarea + recOffset nt ord) ((s.sealer c).record r ord (s.plaintext c r))).modJob q c (fun j =>
    { j with issued := true, writesDone := ord + 1 })

/-- The records of the segment of a spill that starts at record `base`: record and ordinal (R416). -/
def State.spillSegment (s : State) (c base : Nat) : List (Rec × Nat) :=
  ((takeUnits s.profile.segSteps ((s.spillRecs c).drop base)).zipIdx).map (fun r => (r.1, base + r.2))

/-- R326, R327: a spill issues each record as soon as its lines have been read, in ascending ordinal. -/
def State.spillIssue (s : State) (q c dispatch : Nat) : State :=
  let j := s.job c
  if !j.classified || !j.fetched then s else
  let seg := s.spillSegment c j.base
  let cost := fun (k : Nat) => (((seg.find? (fun r => r.2 == k)).map (fun r => (s.recordPorts c r.1).length))).getD 0
  let ords := seg.map (·.2)
  let ready := readyOrds cost ((ords.map cost).sum - s.laneLeft q laneLsRead c .routine) ords
  let nt := tileCount (s.spillRecs c)
  (seg.filter (fun r => ready.contains r.2 && decide (j.writesDone ≤ r.2))).foldl (fun s r => s.spillRecord q c dispatch r.2 r.1 nt) s

/-- R165, R326, R328, R411 to R416: a segment of a spill: its pages are classified, its lines are read and its records issued. -/
def State.spillRun (s : State) (q c dispatch : Nat) : Prog :=
  (s.drawSalt q c).andThen fun s =>
  let recs := s.spillRecs c
  let seg := s.spillSegment c (s.job c).base
  let upTo := (s.job c).base + seg.length
  let sarea := (s.entry c).desc.sarea
  let places := seg.map (fun r => (sarea + recOffset (tileCount recs) r.2, r.1.len))
  (if (s.job c).classified then .go s else
    (s.classifySpa c dispatch true (places ++ (if upTo == recs.length then [(sarea, 128)] else []))).andThen fun s =>
      .go (s.modJob q c (fun j => { j with classified := true }))).andThen fun s =>
  let s1 := s.postOnce q c (fun s => s.postFor q laneLsRead
    { port := 0, left := 0, kind := kindSvr, ctx := c, by_ := (s.entry c).displacedBy.getD c } ((seg.map (fun r => s.recordPorts c r.1)).flatten))
  let s2 := s1.spillIssue q c dispatch
  (Prog.until (decide (upTo ≤ (s2.job c).writesDone)) s2).andThen fun s =>
  .stop (s.toCommit q c (fun j => { j with len := seg.length }))

/-- SPL (R369 to R374, R413 to R419): of a resident context it spills; of one that is SPILLED it has no effect. -/
def execSpl (ctx : Nat) (found : List Found) (s : State) : Out :=
  let away := fun (s : State) => (s.entry ctx).slot.isNone || (s.entry ctx).restore.isSome
  opCommand ctx found (s.runOpWith 0x03 ctx found
    (fun s q _ _ => if away s then s else s.spillIssue q ctx 0x03)
    (fun s q _ _ =>
      if away s then .stop (s.toCommit q ctx (fun j => { j with len := 0 })) else s.spillRun q ctx 0x03))

/-- The victim of an eviction is made ready: its routines are preempted and its planes parked (R377 to R381). -/
def State.displace (s : State) (c : Nat) : State :=
  match s.jobOf c with
  | some (q, j) => if j.kind = .op then (s.preemptJob q j .displacement true).settle c else s
  | none => s.parkAll c

/-- The EVICT of a victim that runs nothing and whose planes are parked takes its track. -/
def State.beginEvict (s : State) (c : Nat) : State :=
  let e := s.entry c
  if !s.internal.contains (.evict c) then s
  else match e.quarter with
  | some q =>
    let s1 := s.displace c
    let e1 := s1.entry c
    if (s1.jobOf c).isNone && !s1.movesOf c && e1.liveHeld.isEmpty && s1.rinseAllows c && s1.internalStarts q true false false && s1.tracksOpen q [trackData]
    then s1.startInternal q c .evict e1.spillAt else s1
  | none => s

/-- EVICT (R377, R413 to R419, R1030). -/
def execEvict (ctx : Nat) (found : List Found) (s : State) : Out :=
  if 512 ≤ ctx then .fault (.noSuchUnit "context" ctx) else
  guardFound found (.next (
    let s1 := if ((s.jobOf ctx).map (fun x => x.2.kind)) == some .evict then s else s.beginEvict ctx
    let found := if (s.jobOf ctx).isSome then found else s1.atDispatch dispatchEvict found
    s1.runInternal ctx dispatchEvict .evict found (fun s q => s.spillIssue q ctx dispatchEvict) (fun s q => s.spillRun q ctx dispatchEvict)))

/-- SALT_DRAW_RESUME (R558, R559): the pool has the bits and the track is free: the draw is made and the issue goes on. -/
def execSaltDrawResume (ctx : Nat) (s : State) : Out :=
  if 512 ≤ ctx then .fault (.noSuchUnit "context" ctx) else
  .next (match s.jobOf ctx with
    | some (q, j) =>
      if j.awaitsSalt && decide (48 ≤ s.hbm.pool) && s.tracksOpen q [trackData] then
        ((s.modJob q ctx (fun j => { j with awaitsSalt := false, tracks := [trackData], takenAt := s.now })).drawSalt q ctx).state
      else s
    | none => s)

/-! ### Restore (R420 to R426) -/

/-- The data of a range of the image, where every read of it has returned: its bytes, and whether one was uncorrectable. -/
def State.imageBytes (s : State) (c spa len : Nat) : Option (List Byte × Bool) :=
  ((pieces 4096 spa len).mapM (fun p => s.fabric.got.find? (fun g => g.owner == .op c && g.spa == p.1 && g.data.length == p.2))).map
    (fun gs => ((gs.map (·.data)).flatten,
      gs.any (fun g => g.bad.any (fun b => decide (g.spa < b + 64) && decide (b < g.spa + g.data.length)))))

/-- Reads of the image are posted, in pieces that no page boundary cuts. -/
def State.readImage (s : State) (c : Nat) (ranges : List (Nat × Nat)) : State :=
  s.postAll (((ranges.map (fun r => pieces 4096 r.1 r.2)).flatten).map (fun p =>
    { id := 0, master := masterSre, target := s.targetOf p.1, owner := .op c, kind := .read, spa := p.1, len := p.2, opc := dispatchRestore }))

/-- Table 8.13: a restore fails. -/
def State.restoreFault (s : State) (c code spa : Nat) : Prog :=
  .stop (s.routineFault c { code := code, spa := spa, routine := some dispatchRestore })

/-- R421: the header is read and verified before any record. -/
def State.restoreHeader (s : State) (q c : Nat) (k : State → List Byte → Prog) : Prog :=
  let e := s.entry c
  let r := (e.restore.getD {})
  if !r.header.isEmpty then k s r.header
  else if !(s.job c).header.isEmpty then k s (s.job c).header
  else
    let spa := e.desc.sarea
    (if (s.job c).mapAsked then .go s else (s.classifySpa c dispatchRestore false [(spa, 128)]).andThen fun s =>
      .go ((s.readImage c [(spa, 128)]).modJob q c (fun j => { j with mapAsked := true }))).andThen fun s1 =>
    match s1.imageBytes c spa 128 with
    | none => .stop s1
    | some (h, bad) =>
      let key := recordKey (s.sealKey.getD 0) e.desc.shdl e.desc.sepoch
      if bad then s1.restoreFault c Code.memUe spa
      else if !headerGood key h e.desc.shdl e.desc.sepoch then s1.restoreFault c Code.spillAuth 0
      else if (headerRecs h).any (fun x => match x with | .tile n => decide (s.profile.tilesPerCtx ≤ n) | .sub _ _ => false) then
        s1.restoreFault c Code.spillFit 0
      else k (s1.modJob q c (fun j => { j with header := h })) h

/-- The reserve line that a RESTORE has filled with line `k` of a sub-block and holds unreadable (R422). -/
def State.unreadLine (s : State) (c pl n k : Nat) : Option (Nat × Nat) :=
  let i := (s.entry c).parkSlice n
  ((s.slice i).lineOf (.unread c pl n k)).map (fun l => (i, l))

/-- R126, R127, R422: the reserve lines of a sub-block's record: taken once all of a segment's slices hold enough.  They stay unreadable until
the final commit (R423). -/
def State.reserveFor (s : State) (c : Nat) (subs : List (Nat × Nat)) : Prog :=
  let e := s.entry c
  let need := subs.filter (fun x => (s.unreadLine c x.1 x.2 0).isNone)
  let short := (List.range 4).any (fun i =>
    decide ((s.slice i).reserveFree < 7 * (need.filter (fun x => e.parkSlice x.2 == i)).length))
  if short then .stop s else
  .go (need.foldl (fun s x => (List.range 7).foldl (fun s q =>
    s.modSlice (e.parkSlice x.2) (fun sl => (sl.takeReserve (q % 4) (.unread c x.1 x.2 q)).getD sl)) s) s)

/-- The seven lines of a sub-block are written (R107). -/
def State.fillParked (s : State) (c pl n : Nat) (b : List Af) : State :=
  ((parkLines b).zipIdx).foldl (fun s x =>
    match s.parkedLine c pl n x.2 with
    | some (i, l) => s.modSlice i (fun sl => (sl.writePayload l x.1).writeWord l { live := false, zero := false, zsrc := false })
    | none => s) s

/-- The seven lines of a sub-block's record are written, unreadable (R422). -/
def State.fillUnread (s : State) (c pl n : Nat) (b : List Af) : State :=
  ((parkLines b).zipIdx).foldl (fun s x =>
    match s.unreadLine c pl n x.2 with
    | some (i, l) => s.modSlice i (fun sl => sl.writePayload l x.1)
    | none => s) s

/-- The window line that a restore holds for a tile (R422). -/
def State.restoringLine (s : State) (c n : Nat) : Option (Nat × Nat) :=
  let i := (s.entry c).sliceOf n
  ((s.slice i).lineOf (.restoring c n)).map (fun l => (i, l))

/-- R422, R423: a verified record goes into its lines, still unreadable; of a tile the job keeps the metadata word. -/
def State.placeRecord (s : State) (q c : Nat) (r : Rec) (plain : List Byte) : State :=
  match r with
  | .tile n =>
    let s1 := match s.restoringLine c n with
      | some (i, l) => s.modSlice i (fun sl => sl.writePayload l (Tile.ofNat plain))
      | none => s
    s1.modJob q c (fun j => { j with words := j.words ++ [(n, Meta.ofBytes (bytesAt plain 1056 4))] })
  | .sub pl n => s.fillUnread c pl n (unpackSub (bytesAt plain 0 6528))

/-- R421 to R423: a segment of a restore: its records are read, verified and placed. -/
def State.restoreRun (s : State) (q c : Nat) : Prog :=
  if !(s.entry c).desc.img then .stop (s.toCommit q c id) else
  s.restoreHeader q c fun s h =>
  let recs := headerRecs h
  let base := (s.job c).base
  let units := s.profile.segSteps - (if ((s.entry c).restore.getD {}).header.isEmpty then 1 else 0)
  let seg := takeUnits units (recs.drop base)
  let e := s.entry c
  let places := seg.zipIdx.map (fun r => (e.desc.sarea + recOffset (tileCount recs) (base + r.2), r.1.len))
  (if (s.job c).asked then .go s else (s.classifySpa c dispatchRestore false places).andThen fun s =>
    .go ((s.readImage c places).modJob q c (fun j => { j with asked := true }))).andThen fun s1 =>
  match places.mapM (fun p => (s1.imageBytes c p.1 p.2).map (fun x => (p.1, x))) with
  | none => .stop s1
  | some datas =>
    match datas.find? (fun d => d.2.2) with
    | some d => s1.restoreFault c Code.memUe d.1
    | none =>
      let k := headerSealer (recordKey (s.sealKey.getD 0) e.desc.shdl e.desc.sepoch) h
      match (seg.zipIdx.zip datas).mapM (fun x => (k.open_ x.1.1 (base + x.1.2) x.2.2.1).map (fun plain => (x.1.1, plain))) with
      | none => s1.restoreFault c Code.spillAuth 0
      | some opened =>
        (s1.reserveFor c (seg.filterMap (fun r => match r with | .sub pl n => some (pl, n) | .tile _ => none))).andThen fun s =>
        let ports := (seg.map (fun r => match r with
          | .tile n => ((s.restoringLine c n).map (fun x => portOfLine x.1 x.2)).toList
          | .sub pl n => (List.range 7).filterMap (fun k => (s.unreadLine c pl n k).map (fun x => portOfLine x.1 x.2)))).flatten
        let s2 := s.postOnce q c (fun s => s.postLines q laneLsWrite kindSvr c ports)
        (Prog.until (s2.lanesDone q c) s2).andThen fun s =>
        let s3 := opened.foldl (fun s x => s.placeRecord q c x.1 x.2) s
        .stop ((s3.toCommit q c (fun j => { j with len := seg.length })).dropGot c)

/-- R437, R450: a RESTORE runs while a claim is in force on its quarter. -/
def State.noteClaim (s : State) (q c : Nat) : State :=
  if s.claimed q then s.modJob q c (fun j => { j with underClaim := true }) else s

/-- The RESTORE of a context that holds a slot takes its track; the writes of its spill are visible by then (log entry 21). -/
def State.beginRestore (s : State) (c : Nat) : State :=
  let e := s.entry c
  if !s.internal.contains (.restore c) then s
  else match e.quarter, e.restore with
  | some q, some r =>
    let reserved := e.deadlined && s.hasReserved e
    if (s.jobOf c).isNone && e.moving.isNone && s.internalStarts q false false reserved && s.tracksOpen q [trackData] && !s.writesPending c &&
       (!e.desc.img || s.sealKey.isSome) then s.startInternal q c .restore r.records else s
  | _, _ => s

/-- RESTORE (R420 to R426, R1030). -/
def execRestore (ctx : Nat) (found : List Found) (s : State) : Out :=
  if 512 ≤ ctx then .fault (.noSuchUnit "context" ctx) else
  guardFound found (.next (
    let s1 := if (s.jobOf ctx).isSome then s else s.beginRestore ctx
    let found := if (s.jobOf ctx).isSome then found else s1.atDispatch dispatchRestore found
    s1.runInternal ctx dispatchRestore .restore found (fun s _ => s) (fun s q => (s.noteClaim q ctx).restoreRun q ctx)))

/-! ### PARK and UNPARK (R107 to R111) -/

/-- R127: every slice concerned holds enough free reserve lines. -/
def State.reserveEnough (s : State) (c : Nat) (subs : List Nat) : Bool :=
  let e := s.entry c
  (List.range 4).all (fun i => decide (7 * (subs.filter (fun n => e.parkSlice n == i)).length ≤ (s.slice i).reserveFree))

/-- R450: the first operation of a context is reserved: its binds go on under a claim. -/
def State.reservedHead (s : State) (c : Nat) : Bool := (s.entry c).headOp.any (fun op => !op.done && s.opReserved (s.entry c) op)

/-- R437: what the bind of a context's plane needs is charged to it. -/
def State.chargeBind (s : State) (c : Option Nat) (units : Nat) : State :=
  match c with
  | some c => (s.chargeDl c s.tick units none).noteOverrun c s.tick
  | none => s

/-- The move of a plane of a context on quarter `q`, if one is in progress. -/
def State.moveOf (s : State) (q c : Nat) (kind : MoveKind) (pl : Nat) : Option MoveJob :=
  (s.quarter q).moves.find? (fun m => m.kind == kind && m.ctx == c && m.pl == pl)

/-- A park, an unpark or an ISMOVE takes its tracks, and its line transfers are posted: lane and ports (R84, R109). -/
def State.startMove (s : State) (q : Nat) (m : MoveJob) (by_ : Nat) (lanes : List (Nat × List Nat)) : State :=
  let s1 := s.modQuarter q (fun u => { u with moves := u.moves ++ [m] })
  lanes.foldl (fun s l => s.postFor q l.1 { port := 0, left := 0, kind := kindSvr, ctx := m.ctx, by_ := by_, use := .move, pl := m.pl } l.2) s1

/-- A move whose line transfers are all made is at its commit point. -/
def State.stageMove (s : State) (q : Nat) (m : MoveJob) : State :=
  if (s.quarter q).lanes.any (fun l => l.any (fun r => r.use == .move && r.ctx == m.ctx && r.pl == m.pl)) then s
  else s.modQuarter q (fun u => { u with moves := u.moves.map (fun x => if x = m then { x with staged := true } else x) })

/-- R109: the lines of a plane's sub-blocks in two streams, that two lanes move together: each lane with the ports of its lines. -/
def State.planeLanes (s : State) (c pl lane0 lane1 : Nat) (subs : List Nat) : List (Nat × List Nat) :=
  let ports := ((subs.map (fun n => (List.range 7).filterMap (fun k => (s.parkedLine c pl n k).map (fun x => portOfLine x.1 x.2)))).flatten).zipIdx
  let side := fun (b : Nat) => (ports.filter (fun p => p.2 % 2 == b)).map (·.1)
  [(lane0, side 0), (lane1, side 1)]

/-- The reserve lines of a plane's sub-blocks are given back, and a park of it in progress stops: it is to start anew. -/
def State.cancelPark (s : State) (c pl : Nat) : State :=
  let s1 := s.dropMoves (fun m => m.kind == .park && m.ctx == c && m.pl == pl)
  { s1 with slices := s1.slices.map (fun sl =>
      sl.releaseWhere (fun o => match o with | .parked c' pl' _ _ => c' == c && pl' == pl | _ => false)) }

/-- R165: the context whose class a park carries: the one whose bind or slot displaces the plane's, else its own. -/
def State.parkBy (s : State) (q c pl : Nat) : Nat :=
  if (s.quarter q).parkChosen == some (c, pl) then (s.quarter q).parkFor.getD c else (s.entry c).displacedBy.getD c

/-- R107, R108, R126, R127, R1027: a park starts, once every slice concerned holds enough reserve lines; a plane with no live sub-block is only
let go (R266). -/
def State.beginPark (s : State) (q p c pl : Nat) : State :=
  let e := s.entry c
  let subs := maskBits 64 (e.plane pl).live
  if subs.isEmpty then
    ((s.modPlane q p (fun _ => {})).modEntry c (fun e => e.modPlane pl (fun a => { a with loc := .none }))).dropInternal (fun i => i == .park c pl)
  else if !s.reserveEnough c subs then s.modQuarter q (fun u => { u with parkSince := some (u.parkSince.getD s.now) })
  else
    let s1 := subs.foldl (fun s n => (List.range 7).foldl (fun s k =>
      s.modSlice (e.parkSlice n) (fun sl => (sl.takeReserve (k % 4) (.parked c pl n k)).getD sl)) s) s
    s1.startMove q { kind := .park, ctx := c, pl := pl, phys := p, subs := subs, tracks := [trackVector, trackData], takenAt := s.now }
      (s1.parkBy q c pl) (s1.planeLanes c pl laneDvWrite laneLsWrite subs)

/-- A park runs on: it starts when every track that it takes is free; one whose live sub-blocks an error has changed starts anew; with its
lines moved it is at its commit point. -/
def State.runPark (s : State) (c pl : Nat) (found : List Found) : State :=
  match ((s.entry c).plane pl).loc with
  | .phys q p =>
    let needed := (s.quarter q).parkChosen == some (c, pl) && (s.quarter q).parkFor.any s.reservedHead
    let may := s.internalStarts q true true needed && s.tracksOpen q [trackVector, trackData] && !(s.planesInUse q).contains p
    if (s.moveOf q c .park pl).isNone && !may then s else
    let found := if (s.moveOf q c .park pl).isNone then s.atDispatch dispatchPark found else found
    let s1 := s.applyAll (some c) (some dispatchPark) found
    match ((s1.entry c).plane pl).loc with
    | .phys _ _ =>
      match s1.moveOf q c .park pl with
      | some m => if m.subs = maskBits 64 ((s1.entry c).plane pl).live then s1.stageMove q m else (s1.cancelPark c pl).beginPark q p c pl
      | none => s1.beginPark q p c pl
    | _ => s1.dropInternal (fun i => i == .park c pl)
  | _ => s.dropInternal (fun i => i == .park c pl)

/-- PARK (R84, R107 to R109, R126, R127, R154, R165, R267, R268): the first park queued for the context runs on. -/
def execPark (ctx : Nat) (found : List Found) (s : State) : Out :=
  if 512 ≤ ctx then .fault (.noSuchUnit "context" ctx) else
  guardFound found (.next (match s.internal.findSome? (fun i => match i with | .park c pl => if c = ctx then some pl else none | _ => none) with
    | some pl => s.runPark ctx pl found
    | none => s))

/-- R109, R267: an unpark starts: the matrix track is free, and a physical plane of the quarter holds nothing. -/
def State.beginUnpark (s : State) (q p c pl : Nat) : State :=
  let subs := maskBits 64 ((s.entry c).plane pl).live
  let s1 := s.modPlane q p (fun _ => { holder := some (c, pl) })
  s1.startMove q { kind := .unpark, ctx := c, pl := pl, phys := p, subs := subs, tracks := [trackMatrix], takenAt := s.now } c
    (s1.planeLanes c pl laneA laneB subs)

/-- An unpark runs on, on the quarter to which its context is bound (R1030): into the physical plane that its bind took, or another that holds
nothing; with none free the bind is asked for anew. -/
def State.runUnpark (s : State) (c pl p : Nat) (found : List Found) : State :=
  let e := s.entry c
  let drop := fun (s : State) => s.dropInternal (fun i => match i with | .unpark d l _ => d == c && l == pl | _ => false)
  match (e.plane pl).loc, e.quarter with
  | .parked, some q =>
    match s.moveOf q c .unpark pl with
    | some m =>
      let s1 := s.applyAll (some c) (some dispatchUnpark) found
      if (s1.moveOf q c .unpark pl).isSome then s1.stageMove q m else drop s1
    | none =>
      let needed := s.reservedHead c && (e.headOp.bind (fun op => e.planeNeeded op.pkt)) == some pl
      if !s.internalStarts q false false needed || !s.tracksOpen q [trackMatrix] then s else
      match (if (((s.quarter q).plane p).holder).isNone then some p else s.freePlane q) with
      | none => s.bindPlane q c pl
      | some p' =>
        let s1 := s.applyAll (some c) (some dispatchUnpark) (s.atDispatch dispatchUnpark found)
        match ((s1.entry c).plane pl).loc with
        | .parked => s1.beginUnpark q p' c pl
        | _ => drop s1
  | _, _ => drop s

/-- UNPARK (R84, R109 to R111, R154, R165, R267, R1030): the first unpark queued for the context runs on. -/
def execUnpark (ctx : Nat) (found : List Found) (s : State) : Out :=
  if 512 ≤ ctx then .fault (.noSuchUnit "context" ctx) else
  guardFound found (.next (match s.internal.findSome? (fun i => match i with | .unpark c pl p => if c = ctx then some (pl, p) else none | _ => none) with
    | some x => s.runUnpark ctx x.1 x.2 found
    | none => s))

/-- The commit of a park: the lines hold the sub-blocks, the physical plane holds nothing, and the bind that chose it is charged (R437). -/
def State.commitPark (s : State) (q held : Nat) (m : MoveJob) : State :=
  let s1 := m.subs.foldl (fun s n => s.fillParked m.ctx m.pl n (((s.quarter q).plane m.phys).block n)) s
  let s2 := (s1.modPlane q m.phys (fun _ => {})).modEntry m.ctx (fun e => e.modPlane m.pl (fun a => { a with loc := .parked }))
  let chosen := (s2.quarter q).parkChosen == some (m.ctx, m.pl)
  let wait := match (s2.quarter q).parkSince with | some t => chargeUnits ((m.takenAt - t) * s2.power.cclk / 1000) | none => 0
  let s3 := if chosen then s2.chargeBind (s2.quarter q).parkFor (chargeUnits held + wait) else s2
  (s3.modQuarter q (fun u => if chosen then { u with parkChosen := none, parkFor := none, parkSince := none } else { u with parkSince := none })).dropInternal
    (fun i => i == .park m.ctx m.pl)

/-- The commit of an unpark: the plane holds the sub-blocks, elements that overlap a lost line are poison (Table 3.10), and the parked lines are
returned (R110, R111). -/
def State.commitUnpark (s : State) (q held : Nat) (m : MoveJob) : State :=
  let blocks := m.subs.map (fun n => (n, s.parkedBlock m.ctx m.pl n))
  let s1 := m.subs.foldl (fun s n => s.parkedPoison q m.phys m.ctx m.pl n) s
  let s2 := s1.modPlane q m.phys (fun _ => { holder := some (m.ctx, m.pl), blocks := blocks })
  let s3 : State := { s2 with slices := s2.slices.map (fun sl =>
    sl.releaseWhere (fun o => match o with | .parked c' pl' _ _ => c' == m.ctx && pl' == m.pl | _ => false)) }
  let s4 := s3.modEntry m.ctx (fun e => e.modPlane m.pl (fun a => { a with loc := .phys q m.phys }))
  ((s4.notePlaneWriter q m.ctx).chargeBind (some m.ctx) (chargeUnits held)).dropInternal
    (fun i => match i with | .unpark d l _ => d == m.ctx && l == m.pl | _ => false)

/-! ### ISMOVE (R393) -/

/-- One tile's line goes from slice `a` to slice `b`, with its value as a read delivers it and its word as it stands. -/
def State.moveTile (s : State) (c k a b n : Nat) : State :=
  let sl := s.slice a
  -- Of a context whose RESTORE has not committed, the line that it holds unreadable (R422).
  let at_ := match sl.lineOf (.window k n) with
    | some l => some (l, LineOwner.window k n)
    | none => (sl.lineOf (.restoring c n)).map (fun l => (l, LineOwner.restoring c n))
  match at_ with
  | none => s
  | some (l, owner) =>
    let rows := if sl.lost.contains l then Tile.poisoned else (assocGet sl.payload (sl.payKey l)).getD Tile.zero
    let word := sl.flags l
    let s1 := s.modSlice a (fun sl => { sl with lines := assocDel sl.lines l })
    match (s1.slice b).pick (n % 4) with
    | some m => s1.modSlice b (fun sl => ((sl.use m owner .window).writePayload m rows).writeWord m word)
    | none => s1

/-- R393: the window and the floor of slot `k` move from slice `a` to slice `b`, whose shared part has given the lines. -/
def State.moveWindow (s : State) (c k a b : Nat) : State :=
  let t := s.profile.tilesPerCtx
  let f := s.profile.basketFloor
  let s1 := s.modSlice b (fun sl => { sl with floorFree := assocPut sl.floorFree k f })
  let s2 := (List.range t).foldl (fun s n => s.moveTile c k a b n) s1
  let s3 := s2.modSlice a (fun sl => ({ sl with floorFree := assocDel sl.floorFree k }).freeShared (t + f))
  (s3.modEntry c (fun e => { e with moving := none })).suspend b suspRebind

/-- The ports of the line transfers of an ISMOVE: the window lines that hold a value are read in slice `a` and written in slice `b`. -/
def State.windowLanes (s : State) (c k a b : Nat) : List (Nat × List Nat) :=
  let lines := (List.range s.profile.tilesPerCtx).filterMap (fun n =>
    (((s.slice a).lineOf (.window k n)).orElse (fun _ => (s.slice a).lineOf (.restoring c n))).bind (fun l =>
      if ((s.slice a).flags l).zsrc then none else some (n, l)))
  [(laneLsRead, lines.map (fun x => portOfLine a x.2)), (laneLsWrite, lines.map (fun x => 4 * b + x.1 % 4))]

/-- An ISMOVE runs on: it starts once the new slice's shared part holds the window and the floor; with its lines moved it is at its commit
point. -/
def State.runIsmove (s : State) (c k a b : Nat) (found : List Found) : State :=
  match s.moveOf b c .ismove 0 with
  | some m =>
    let s1 := s.applyAll (some c) (some dispatchIsmove) found
    if (s1.moveOf b c .ismove 0).isSome then s1.stageMove b m else s1
  | none =>
    if !s.internalStarts b false false false || !s.tracksOpen b [trackData] || (s.jobOf c).isSome ||
      decide ((s.slice b).sharedFree < s.profile.tilesPerCtx + s.profile.basketFloor) then s
    else
      let s1 := s.applyAll (some c) (some dispatchIsmove) (s.atDispatch dispatchIsmove found)
      if (s1.entry c).slot.isNone then s1 else
      (s1.modSlice b (fun sl => sl.takeShared (s.profile.tilesPerCtx + s.profile.basketFloor))).startMove b
        { kind := .ismove, ctx := c, phys := b, tracks := [trackData], takenAt := s1.now } c (s1.windowLanes c k a b)

/-- ISMOVE (R84, R393, R1030). -/
def execIsmove (ctx : Nat) (found : List Found) (s : State) : Out :=
  if 512 ≤ ctx then .fault (.noSuchUnit "context" ctx) else
  guardFound found (.next (
    let e := s.entry ctx
    if !s.internal.contains (.ismove ctx) then s
    else match e.moving, e.quarter, e.slot with
    | some a, some b, some k =>
      if a = b then (s.modEntry ctx (fun e => { e with moving := none })).dropInternal (fun i => i == .ismove ctx)
      else s.runIsmove ctx k a b found
    | _, _, _ => s.dropInternal (fun i => i == .ismove ctx)))

/-- The commit of an ISMOVE (R393). -/
def State.commitIsmove (s : State) (m : MoveJob) : State :=
  match (s.entry m.ctx).moving, (s.entry m.ctx).slot with
  | some a, some k => (s.moveWindow m.ctx k a m.phys).dropInternal (fun i => i == .ismove m.ctx)
  | _, _ => s

end Sys2Proof.Machine
end

