-- ==== Sys2Proof/Machine/Residency.lean ====
section
/-! DEFINITION. Machine/Residency.lean: binding and rebinding of contexts (§8.5, §8.6), restore candidates and their slots (R375 to
R381), and the eviction of a victim. -/
namespace Sys2Proof.Machine

/-! ### Binding (R382, R390) -/

/-- Contexts that hold a slot and are bound to quarter `q`, less one.  A context whose RESTORE has not committed counts for R382 and R384, since
the quarter is chosen for it already: DESIGN CHOICE (log entry 40). -/
def State.boundTo (s : State) (q but : Nat) : List Nat :=
  (s.entries.filter (fun p => p.2.quarter == some q && p.2.slot.isSome && p.1 != but)).map (·.1)

/-- R382, R385, R390: the quarter that a context is bound to, and whether its affinity is lost. -/
def State.quarterFor (s : State) (c : Nat) : Option (Nat × Bool) :=
  let e := s.entry c
  if e.isolated then
    ((s.quartersUp.filter (fun q => bitAt e.desc.qaff q && bitAt s.profile.isoAllow q)).head?).map (fun q => (q, false))
  else
    match argMin (fun q => (s.boundTo q c).length) (s.quartersUp.filter (bitAt e.desc.qaff)) with
    | some q => some (q, false)
    | none => s.quartersUp.head?.map (fun q => (q, true))

/-- R382, R385: AFFINITY_LOST. -/
def State.affinityLost (s : State) (c q : Nat) : State :=
  s.deviceEvent Code.affinityLost (some (s.handle c)) [BitVec.ofNat 8 q]

/-- R471, R472: a rebind that leaves D(q) above B_max: the period in progress is suspended.  A context that is still bound to the quarter that
leaves counts there. -/
def State.noteOvercommit (s : State) (q : Nat) : State :=
  let d := s.demand (fun _ => true) q
  if d ≤ s.bMax then s else
  ((s.modQuarter q (fun u => { u with overcommit := true })).deviceEvent Code.dlOvercommit none
    ([BitVec.ofNat 8 q] ++ natLe 15 0 ++ natLe 4 d ++ natLe 4 s.bMax)).suspend q suspOvercommit

/-- R266: a context's planes with no live sub-block hold no physical plane any more. -/
def State.freeEmptyPlanes (s : State) (c : Nat) : State :=
  let empty := fun (pl : Nat) => ((s.entry c).plane pl).live == 0
  let s1 : State := { s with quarters := s.quarters.map (fun u => { u with
    planes := u.planes.map (fun p => match p.holder with | some (d, pl) => if d == c && empty pl then {} else p | none => p) }) }
  ([0, 1] : List Nat).foldl (fun s pl => if empty pl then s.modEntry c (fun e => e.modPlane pl (fun a => { a with loc := .none })) else s) s1

/-- R386, R393, R499: a context that runs nothing is bound to quarter `q` in place of its own: pegs and translations of the old
quarter go, live planes are to be parked, and the window of an IS context waits for ISMOVE. -/
def State.rebindNow (s : State) (c q : Nat) (lost leaving : Bool) : State :=
  let e := s.entry c
  let k := e.slot.getD 0
  let s1 := match e.quarter with
    | some old => s.modQuarter old (fun u => { (u.dropPegs (fun g => g.slot == k)) with
        tlb := u.tlb.filter (fun t => t.ctx != c), recent := u.recent.filter (· != c) })
    | none => s
  let s2 := ((s1.dropAhead c).freeEmptyPlanes c).parkAll c
  let from_ := e.isoSlice
  let s3 := s2.modEntry c (fun e => { e with quarter := some q, rebindTo := none, moving := if e.isolated then some from_ else none })
  let s4 := if e.isolated then s3.queueInternal (.ismove c) else s3
  let s5 := if lost then s4.affinityLost c q else s4
  if e.deadlined && leaving then (s5.suspend q suspRebind).noteOvercommit q else s5

/-- R385, R393, R394: a context whose quarter leaves service, or is denied to it, is displaced and bound to another. -/
def State.rebindAway (s : State) (c : Nat) : State :=
  let e := s.entry c
  match s.quarterFor c with
  | none => if e.isolated then s.faultContext c { code := Code.isoLost, unmet := true } else s
  | some (q, lost) =>
    match s.jobOf c with
    | none => if s.movesOf c then s.modEntry c (fun e => { e with rebindTo := some q }) else s.rebindNow c q lost true
    | some (q0, j) =>
      let s1 := (s.modEntry c (fun e => { e with rebindTo := some q })).preemptJob q0 j .displacement true
      if (s1.jobOf c).isNone && !s1.movesOf c then ((s1.settle c).rebindNow c q lost true) else s1

/-- A context that must leave its quarter (R385, R393). -/
def State.mustLeave (s : State) (e : Entry) : Bool :=
  match e.quarter with
  | some q => e.slot.isSome && (!s.inService q || (e.isolated && !bitAt s.profile.isoAllow q))
  | none => false

/-- A rebind that waited for a commit point takes effect (R386). -/
def State.takeRebind (s : State) (c : Nat) : State :=
  let e := s.entry c
  match e.rebindTo with
  | some q =>
    if (s.jobOf c).isSome || s.movesOf c || e.slot.isNone then s else
    if s.mustLeave e then
      match s.quarterFor c with
      | some (q', lost) => s.rebindNow c q' lost true
      | none => if e.isolated then s.faultContext c { code := Code.isoLost, unmet := true } else s
    else s.rebindNow c q false false
  | none => s

/-- R384: the BE contexts bound to a quarter that have queued work. -/
def State.busyBe (s : State) (q : Nat) : List Nat :=
  (s.entries.filter (fun p => p.2.quarter == some q && p.2.slot.isSome && p.2.restore.isNone && p.2.desc.cls == 0 && !p.2.queue.isEmpty)).map (·.1)

/-- R384: the quarter in service with no context that a BE context moves to, and the context: the one with the highest slot. -/
def State.spread (s : State) : Option (Nat × Nat) :=
  s.quartersUp.findSome? (fun q =>
    if !(s.boundTo q 512).isEmpty || s.entries.any (fun p => p.2.rebindTo == some q) then none else
    let movers := ((s.quartersUp.filter (fun x => decide (2 ≤ (s.busyBe x).length))).map s.busyBe).flatten.filter (fun c =>
      bitAt (s.entry c).desc.qaff q && (s.entry c).rebindTo.isNone)
    (argMin (fun c => 64 - (s.entry c).slot.getD 0) movers).map (fun c => (q, c)))

/-- CONTEXT_REBIND (R383 to R386, R393, R394, R471, R499). -/
def execContextRebind (ctx : Nat) (s : State) : Out :=
  if 512 ≤ ctx then .fault (.noSuchUnit "context" ctx) else
  .next (
    let e := s.entry ctx
    if !s.running || !s.ready then s
    else if e.rebindTo.isSome then s.takeRebind ctx
    else if s.mustLeave e then s.rebindAway ctx
    else match s.spread with
    | some (q, c) =>
      if c ≠ ctx then s
      else if (s.jobOf ctx).isSome || s.movesOf ctx then s.modEntry ctx (fun e => { e with rebindTo := some q })
      else s.rebindNow ctx q false false
    | none => s)

/-! ### Candidates and slots (R375 to R381, R1032) -/

/-- The restore candidates that hold no slot, in the order in which they became candidates (R376). -/
def State.candidateList (s : State) : List Nat :=
  ((s.entries.filter (fun p => p.2.slot.isNone && p.2.state == .spilled)).foldl (fun l p =>
    match p.2.candidate with
    | some n => assocPut l n p.1
    | none => l) ([] : List (Nat × Nat))).map (·.2)

/-- R1032, Table 8.13: a slot is all that a candidate lacks. -/
def State.slotCures (s : State) (c : Nat) : Bool :=
  let e := s.entry c
  match s.quarterFor c with
  | some (q, _) =>
    (!e.isolated || decide (3 * (s.profile.tilesPerCtx + s.profile.basketFloor) / 4 ≤ (s.slice q).sharedFree)) &&
    (!e.desc.img || s.sealKey.isSome)
  | none => false

/-- R94: the lowest-numbered free slot. -/
def State.freeSlotNo (s : State) : Option Nat := (List.range s.ceilingNow).find? (fun k => (s.slotCtx k).isNone)

/-- R94, R95, R96, R123, R382, R390, R392, R422: a candidate takes slot `k`: its quarter, floors and window lines. -/
def State.giveSlot (s : State) (c k : Nat) : State :=
  match s.quarterFor c with
  | none => s
  | some (q, lost) =>
    let iso := (s.entry c).isolated
    let s1 := (s.modEntry c (fun e => { e with slot := some k, quarter := some q, restore := some {}, waitTold := false
                                               planes := [{}, {}] })).takeFloors k (if iso then some q else none)
    let e := s1.entry c
    let s2 := (List.range s.profile.tilesPerCtx).foldl (fun s n => s.modSlice (e.sliceOf n) (fun sl =>
      match sl.pick (e.portOf n) with
      | some l => sl.use l (.restoring c n) .window
      | none => sl)) s1
    let s3 := if lost then s2.affinityLost c q else s2
    s3.queueInternal (.restore c)

/-- R378: the resident contexts that may be evicted. -/
def State.evictable (s : State) : List Nat :=
  (s.residents.filter (fun x =>
    let e := s.entry x.2
    let spl := match e.headOp with | some op => opcOf op.pkt == 0x03 && op.issued | none => false
    e.restore.isNone && !e.deadlined && e.desc.sepoch != 0xFFFFFFFF && s.sealKey.isSome && !spl && !s.internal.contains (.evict x.2))).map (·.2)

/-- R377: the victim. -/
def State.victim (s : State) : Option Nat :=
  let cs := s.evictable
  match argMin (fun c => (s.entry c).lastTrack) (cs.filter (fun c => (s.entry c).state == .idle)) with
  | some c => some c
  | none => argMin (fun c => (s.entry c).lastRestore) (cs.filter (fun c => !(s.entry c).queue.isEmpty && (s.entry c).committedSince))

/-- R379, Table 8.13: a wait is told once. -/
def State.tellWait (s : State) (c code : Nat) : State :=
  if (s.entry c).waitTold then s else
  (s.modEntry c (fun e => { e with waitTold := true })).deviceEvent code (some (s.handle c)) [0xFF]

/-- R379: the code of a wait that R378 leaves no victim for: no seal is held; else the epoch, whatever bars the residents.  The rule names these
two codes only: where neither cause holds of any resident, EPOCH_EXHAUSTED is a DESIGN CHOICE (log entry 69). -/
def State.noVictimCode (s : State) : Nat := if s.sealKey.isNone then Code.sealAbsent else Code.epochExhausted

/-- CANDIDATE_SLOT (R94, R165, R376 to R381, R390, R392, R422, R426, R1032): the first candidate that a slot would serve takes a free one, or a
victim is evicted for it; every other candidate whose wait nothing cures is told so once. -/
def execCandidateSlot (s : State) : Out :=
  .next (
    if !s.running || !s.ready || s.rinsing then s else
    let s := (s.candidateList.filter (fun c => (s.entry c).desc.img && s.sealKey.isNone)).foldl (fun s c => s.tellWait c Code.sealAbsent) s
    match s.candidateList.filter s.slotCures with
    | [] => s
    | c :: rest =>
      match s.freeSlotNo with
      | some k => s.giveSlot c k
      | none =>
        let evicting := (s.internal.filter (fun i => match i with | .evict _ => true | _ => false)).length
        -- Those for whom no eviction is under way yet.
        match (c :: rest).drop evicting with
        | [] => s
        | d :: more =>
          match s.victim with
          | some v => (((s.modEntry v (fun e => { e with displacedBy := some d })).queueInternal (.evict v)).displace v)
          | none => if s.evictable.isEmpty then (d :: more).foldl (fun s c => s.tellWait c s.noVictimCode) s else s)

end Sys2Proof.Machine
end

