-- ==== Sys2Proof/Machine/Attach.lean ====
section
/-! DEFINITION. Machine/Attach.lean: ATT and DET (§8.2, §8.4): the checks of Table 8.5, the descriptor, and the filling of the attach
entry. -/
namespace Sys2Proof.Machine

/-- `dspa` of an ATT (Table 8.4). -/
def attDspa (p : List Byte) : Nat := bitsAt (natAt p 8 7) 0 52

/-- Table 8.5, order 2: a reserved field of an ATT is non-zero. -/
def attReserved (p : List Byte) : Bool := byteAt p 1 / 4 != 0 || byteAt p 14 / 16 != 0 || byteAt p 15 != 0 || !zeroAt p 16 48

/-- Table 8.1: the descriptor that 256 bytes spell, read from `spa`. -/
def parseDesc (b : List Byte) (spa : Nat) : Desc :=
  { dspa := spa, dver := byteAt b 0, cls := bitsAt (byteAt b 1) 0 2, qaff := bitsAt (byteAt b 2) 0 4, wt := byteAt b 3, tcnt := natAt b 4 2
    shdl := natAt b 6 2, troot := bitsAt (natAt b 8 7) 0 52, ppage := bitsAt (natAt b 16 7) 0 52, ering := bitsAt (natAt b 24 7) 0 52
    ersz := byteAt b 30 / 16, sarea := bitsAt (natAt b 32 7) 0 52, sepoch := natAt b 40 4, img := bitAt (byteAt b 44) 0
    budget := natAt b 48 4 }

/-- Table 8.5, order 5: a range lies whole in one MEM window or in backed memory of one device. -/
def State.extentGood (s : State) (spa len : Nat) : Bool :=
  if bitAt spa 51 then
    let lo := bitsAt spa 12 39
    let hi := bitsAt (spa + len - 1) 12 39
    bitAt (spa + len - 1) 51 &&
    match s.profile.windows.zipIdx.find? (fun w => w.1.en && decide (w.1.first ≤ lo) && decide (lo ≤ w.1.last)) with
    | some w => w.1.wcls == 0 && decide (hi ≤ w.1.last) &&
        !((s.profile.windows.take w.2).any (fun v => v.en && decide (v.first ≤ hi) && decide (lo ≤ v.last)))
    | none => false
  else decide (bitsAt spa 0 44 + len ≤ Config.backedEnd)

/-- Table 8.5, order 5. -/
def State.descGood (s : State) (d : Desc) : Bool :=
  d.dver == 1 && d.cls != 3 && d.qaff != 0 && decide (1 ≤ d.wt) && decide (d.wt ≤ 16) && decide (1 ≤ d.tcnt) && decide (d.tcnt ≤ 256) &&
  decide (d.ersz ≤ 10) && (d.cls == 1 || d.budget == 0) &&
  ([d.troot, d.ppage, d.ering, d.sarea].all (fun a => a % 4096 == 0)) &&
  s.extentGood d.troot 4096 && s.extentGood d.ppage 4096 && s.extentGood d.ering (64 * 2 ^ (d.ersz + 6)) &&
  s.extentGood d.sarea (128 + 1104 * d.tcnt + 6560 * 128)

/-- Table 8.5, order 10: the admission of a context of class DL (R381, R446). -/
def State.dlAdmits (s : State) (d : Desc) : Bool :=
  let dls := (s.entries.filter (fun p => p.2.deadlined && p.2.state != .detached)).length + 1
  decide (dls ≤ 16) && decide (dls + 1 ≤ s.profile.residentCtx) &&
  (s.quartersUp.filter (bitAt d.qaff)).all (fun q => decide (s.demand s.inService q + d.budget ≤ s.bMax))

/-- Table 8.5, orders 5 to 10, of a descriptor that has been read.  The SV-256 holds 256 tiles, so order 6 never applies (R4). -/
def State.descCheck (s : State) (d : Desc) : Option Nat :=
  if !s.descGood d then some Code.descBad
  else if s.profile.tilesPerCtx < d.tcnt then some Code.ctxTiles
  else if (s.quartersUp.filter (bitAt d.qaff)).isEmpty then some Code.affinityEmpty
  else if d.cls = 2 ∧ (s.quartersUp.filter (fun q => bitAt d.qaff q && bitAt s.profile.isoAllow q)).isEmpty then some Code.isoDenied
  else if d.cls = 1 ∧ !s.dlAdmits d then some Code.dlAdmit
  else none

/-- R360, R361: an ATT is refused: the device ring reports it, and the context number is free again. -/
def State.refuseAtt (s : State) (c : Nat) (pkt : List Byte) (code : Nat) : State :=
  let s1 := match s.jobOf c with | some (q, _) => (s.withdraw c).dropJob q c | none => s
  (s1.dropEntry c).ringNak pkt code

/-- R351, R360, R483: the descriptor's 256 bytes, once the read of them has returned; the second part is true of an error. -/
def State.descBytes (s : State) (c spa : Nat) : Option (List Byte × Bool) :=
  (s.fabric.got.find? (fun g => g.owner == .record c && g.spa == spa && g.data.length == 256)).map (fun g => (g.data, !g.bad.isEmpty))

/-- R363, R783: an admitted ATT takes the control track of the lowest-numbered quarter in service; none issues during a switch. -/
def State.beginAtt (s : State) (c : Nat) : State :=
  match s.quartersUp.head? with
  | some q =>
    if !s.quarterStarts q || s.switch.step != .idle || s.claimed q || !s.tracksOpen q [trackControl] then s
    else s.modQuarter q (fun u => { u with jobs := u.jobs ++ [({ kind := .attach, ctx := c, tracks := [trackControl], len := 1, takenAt := s.now
                                                                 period := s.tick } : Job)] })
  | none => s

/-- ATT (R198, R349 to R353, R359 to R363, R381, R446): the checks of Table 8.5 up to the commit point. -/
def execAtt (ctx : Nat) (found : List Found) (s : State) : Out :=
  if 512 ≤ ctx then .fault (.noSuchUnit "context" ctx) else
  guardFound found (.next (
    match (s.entry ctx).att with
    | none => s
    | some pkt =>
      let s1 := if (s.jobOf ctx).isSome then s else s.beginAtt ctx
      match s1.jobOf ctx with
      | none => s1
      | some (_, j0) =>
        if j0.stage != .gather then s1 else
        let s2 := s1.applyAll (some ctx) none found
        match s2.jobOf ctx with
        | none => s2
        | some (q, j) =>
          let spa := attDspa pkt
          if attReserved pkt then s2.refuseAtt ctx pkt Code.fieldReserved
          else if spa % 256 ≠ 0 then s2.refuseAtt ctx pkt Code.descBad
          else if !(s2.place spa).plain then s2.refuseAtt ctx pkt Code.descFault
          else if !j.asked then
            (s2.post { id := 0, master := masterSre, target := s2.targetOf spa, owner := .record ctx, kind := .read, spa := spa, len := 256 }).modJob
              q ctx (fun j => { j with asked := true })
          else match s2.descBytes ctx spa with
          | none => s2
          | some (b, bad) =>
            if bad then s2.refuseAtt ctx pkt Code.descFault
            else match s2.descCheck (parseDesc b spa) with
            | some code => s2.refuseAtt ctx pkt code
            | none => s2.toCommit q ctx id))

/-- R198, R261, R349, R351, R357, R362, R375: the entry of an ATT that passes its checks. -/
def State.commitAtt (s : State) (c : Nat) : State :=
  match (s.entry c).att with
  | none => s
  | some pkt =>
    let spa := attDspa pkt
    let b := ((s.descBytes c spa).map (·.1)).getD []
    let e : Entry := { state := .spilled, desc := parseDesc b spa, expSeq := (seqOf pkt + 1) % 65536, done := seqOf pkt }
    let s1 := (s.putEntry c e).modFabric (fun f => { f with got := f.got.filter (fun g => g.owner != .record c) })
    let s2 := if rspOf pkt then (s1.respond c pkt respDone 0 0 s1.pepoch []).writeProgress c [] else s1
    if e.deadlined then s2.makeCandidate c else s2

/-- DET (R365 to R368, R1031): its effect comes with its completion. -/
def execDet (ctx : Nat) (found : List Found) (s : State) : Out :=
  opCommand ctx found (s.runOp 0x02 ctx found (fun s q _ _ => .stop (s.toCommit q ctx id)))

end Sys2Proof.Machine
end

