-- ==== Sys2Proof/Machine/Bringup.lean ====
section
/-! DEFINITION. Machine/Bringup.lean: supplies, resets and thermal shutdown, the bring-up phases of Table 15.2, image verification (Table 14.9),
BIST (Table 15.3), the bring-up apply, HBM training and readiness (chapters 14 and 15). -/
namespace Sys2Proof.Machine

/-! ### Reset and shutdown -/

/-- The lawful writes to local memory that still wait in the VC1 buffers of the links, oldest first on each. -/
def State.bufferedWrites (s : State) : List (List Byte) :=
  ((List.range 17).map (fun l => ((s.lykel l).rxq.map (·.2)).filter (fun p =>
    (pktType p == tMwr || (pktType p == tRwr && l != 0)) && pktNsl p == nslExpected p && !reqReserved l p && reqSizeOk p &&
    spaDev (reqSpa p) == s.devId && !bitAt (reqSpa p) 51 && decide (spaOff (reqSpa p) < Config.backedEnd)))).flatten

/-- R818: the HBM writes that were issued and not admitted may or may not take effect: each, posted or in its buffer, as a free value says. -/
def State.settleWrites (s : State) : State :=
  let ts := s.fabric.txns.filter (fun t => t.isWrite && decide (t.target < 4) && t.state == .posted)
  let ws := ts.map (fun t => (spaOff t.spa, t.data, t.enables)) ++
    s.bufferedWrites.map (fun p => (spaOff (reqSpa p), pktData p (reqSpa p % 16) (reqSize p), []))
  let h := ws.zipIdx.foldl (fun h p =>
    if Config.keptWrite (s.free.picks + p.2) then h.write p.1.1 p.1.2.1 p.1.2.2 [] [] else h) s.hbm
  { s with hbm := h, free := { s.free with picks := s.free.picks + ws.length }, fabric := { s.fabric with txns := [] } }

/-- R964: thermal shutdown: everything stops, the links are DOWN, the seal is lost, STAT shows 0xE and VID is 0x50.  The
HBM queues are served and the stacks enter self-refresh: pieces admitted have taken effect already (R566). -/
def State.goShutdown (s : State) : State :=
  let s1 := s.settleWrites.linksDown.stopRoutines
  let s2 : State := { s1 with
    sealKey := none
    boot := { s1.boot with phase := 0xE, selfRefreshDone := true }
    thermal := { s1.thermal with shutdown := true, thermN := true }
    hbm := { s1.hbm with pieces := [], retraining := none, hbmStacks := s1.hbm.hbmStacks.map (fun k => { k with selfRefresh := true }) } }
  (s2.sendVidNow 0x50).showStat 0xE

/-- Table 15.6: what the repair state of a slice keeps across a reset. -/
def Slice.afterReset (sl : Slice) : Slice :=
  { ({} : Slice) with
    serves := sl.serves, gone := sl.gone
    banks := sl.banks.map (fun b => { b with ueTimes := [], ceTimes := [], refRow := 0, refSweep := 1 }) }

/-- Table 15.6: what the repair state of a quarter keeps across a reset. -/
def Quarter.afterReset (q : Quarter) : Quarter :=
  { ({} : Quarter) with
    removed := q.removed, removeCause := q.removeCause, untested := q.untested
    rotation := { ({} : Rotation) with roles := q.rotation.roles, testDarned := q.rotation.roles.contains .darned } }

/-- R817 to R820, R401, R862: the device at an assertion of RESET_N, or of PWRGOOD falling when `powerLost`. -/
def State.assertReset (s : State) (powerLost : Bool) : State :=
  let s1 := if powerLost then s else s.settleWrites
  { State.reset with
    pending := s.pending
    now := s.now
    fuses := s.fuses
    free := s1.free
    slices := s.slices.map Slice.afterReset
    quarters := s.quarters.map Quarter.afterReset
    hbm := if powerLost then {} else
      { ({} : Hbm) with mem := s1.hbm.mem, badWords := s1.hbm.badWords, ceWords := s1.hbm.ceWords,
                        hbmStacks := s1.hbm.hbmStacks.map (fun k => { ({} : Stack) with selfRefresh := k.trained || k.selfRefresh }) }
    power := { ({} : Power) with taken := s.power.taken }
    thermal := { ({} : Thermal) with readings := s.thermal.readings }
    boot := { ({} : Boot) with pwrgood := !powerLost, resetN := false, powerOn := powerLost || s.boot.powerOn && !s.boot.resetN,
                               statSince := s.now } }

/-- PWRGOOD_FALL (R815, R817, R820). -/
def execPwrgoodFall (s : State) : Out := .next (if s.boot.pwrgood then s.assertReset true else s)

/-- PWRGOOD_RISE (R815, R816): the reset that the next release ends is a power-on reset. -/
def execPwrgoodRise (s : State) : Out :=
  .next (if s.boot.pwrgood then s else { s with boot := { s.boot with pwrgood := true, powerOn := true } })

/-- RESET_ASSERT (R817 to R819). -/
def execResetAssert (s : State) : Out := .next (if s.boot.resetN then s.assertReset false else s)

/-- RESET_RELEASE (R816, R651, R821): the timebase is 0; STAT stays 0x0 until the straps are latched.  Whether every stack had
completed self-refresh entry decides the initialisation of R847. -/
def execResetRelease (selfRefreshed : Bool) (s : State) : Out :=
  .next (if s.boot.resetN || !s.boot.pwrgood then s else
    { s with
      now := 0, tbOffset := 0
      boot := { s.boot with resetN := true, phase := 0, phaseAt := 0, statSince := 0, statNext := none
                            selfRefreshDone := selfRefreshed, needInit := s.boot.powerOn || !selfRefreshed } })

/-! ### Phases -/

/-- R822: a phase of bring-up ends and the next begins; STAT shows it where it has a code. -/
def State.enterPhase (s : State) (p : Nat) : State :=
  let s1 := { s with boot := { s.boot with
    times := s.boot.times ++ [(s.boot.phase, s.now - s.boot.phaseAt)], phase := p, phaseAt := s.now } }
  if p < 0x10 then s1.showStat p else s1

/-- STRAP_LATCH (R739, R742, R853): the third REFCLK edge after the release. -/
def execStrapLatch (boot : Nat) (remapEn sealLocal pselLink testmode fuseOk trngOk : Bool) (s : State) : Out :=
  .next (
    if !s.boot.resetN || s.boot.latched || s.boot.phase != 0 then s else
    let s1 := s.advanceTo 30
    let s2 := { s1 with
      straps := { boot := boot % 4, remapEn := remapEn, sealLocal := sealLocal, pselLink := pselLink, testmode := testmode }
      boot := { s1.boot with latched := true, trngOk := trngOk, holding := boot % 4 == 3 } }
    let s3 := s2.enterPhase 1
    if fuseOk then s3 else s3.goFatal Code.fuseFail)

/-- Table 14.3: the lower thresholds of levels 1 to 15, mV. -/
def levelThresholds : List Nat := [25, 75, 127, 182, 242, 307, 376, 450, 525, 606, 690, 779, 878, 990, 1250]

/-- R749: sixteen times the voltage of a pin, whose 16 samples are in mV. -/
def samplesSum (xs : List Nat) : Nat := ((List.range 16).map (fun i => xs.getD i 0)).foldl (· + ·) 0

/-- R749, R750: the level that the mean of a pin's samples decides. -/
def decideLevel (xs : List Nat) : Nat := (levelThresholds.filter (fun t => decide (16 * t ≤ samplesSum xs))).length

/-- R751: the measured voltage lies within 8 mV of a threshold of its level. -/
def levelMargin (mv : Nat) : Bool := levelThresholds.any (fun t => decide (mv ≤ t + 8) && decide (t ≤ mv + 8))

/-- LEVEL_PIN_MEASURE (R749 to R757): the samples of each pin.  The voltage that HEALTH shows is the mean rounded down (DESIGN CHOICE, log entry
80). -/
def execLevelPinMeasure (samples : List (List Nat)) (s : State) : Out :=
  .next (
    if s.boot.phase != 1 || s.levels.measured then s else
    let v := (List.range 4).map (fun i => samples.getD i [])
    let s1 := (s.advanceTo (s.boot.phaseAt + 260000))
    let s2 := { s1 with levels := { mv := v.map (fun xs => samplesSum xs / 16), level := v.map decideLevel, measured := true } }
    if decide (8 ≤ s2.levels.level.getD 0 0) || decide (s2.nMax ≤ s2.devId) then s2.goFatal Code.lvlInvalid
    else s2.enterPhase 2)

/-- True when BIST runs in this bring-up (R837). -/
def State.bistRuns (s : State) : Bool := s.boot.powerOn || s.straps.boot == 1

/-- The phase after the images: BIST where it runs, else the bring-up apply (R832). -/
def State.afterImages (s : State) : State := s.enterPhase (if s.bistRuns then 7 else 0x10)

/-- PLLS_LOCKED (R917, R922, R929): both PLLs lock, VID gets the boot code, and STAT 0x3 begins; a device that reads no flash goes
on at once (R823). -/
def execPllsLocked (s : State) : Out :=
  .next (
    if s.boot.phase != 2 then s else
    let s1 := { s with
      boot := { s.boot with ioLock := true, coreLock := true }
      power := { s.power with cclk := 800, vCode := 0x78 } }
    let s2 := (s1.enterPhase 3).sendVid 0x78
    if s2.straps.boot = 2 then s2.afterImages else s2)

/-- The ranges of steps over which a read passes: first step and number of steps, in order. -/
def passRanges : List Bool → Nat → List (Nat × Nat)
  | [], _ => []
  | false :: rest, i => passRanges rest (i + 1)
  | true :: rest, i =>
    match passRanges rest (i + 1) with
    | (a, n) :: more => if a = i + 1 then (i, n + 1) :: more else (i, 1) :: (a, n) :: more
    | [] => [(i, 1)]

/-- R985: the step at the centre of the widest range of the 21 steps from 0 to 10 ns; the lower of two middle steps, and the lowest of
equal ranges (DESIGN CHOICE, log entry 62). -/
def capturePoint (passes : List Bool) : Option Nat :=
  match passRanges (passes.take 21) 0 with
  | [] => none
  | r :: rs => let w := rs.foldl (fun b x => if b.2 < x.2 then x else b) r; some (w.1 + (w.2 - 1) / 2)

/-- FLASH_SFDP_READ (R760, R826, R971, R985): once in a bring-up, and under HOLD after the hold is cleared.  The read uses one data line.
Where the signature reads at no capture point, SFDP counts as absent. -/
def execFlashSfdpRead (found : SfdpRead) (s : State) : Out :=
  .next (
    if s.boot.phase != 3 || s.boot.holding || s.straps.boot == 2 then s else
    let c := capturePoint found.passes
    ({ s with boot := { s.boot with sfdp := some (if c.isNone then 0 else min found.mode 2), capture := c, spiHigh := true } }).enterPhase 4)

/-- HOLD_CLEARED (R825). -/
def execHoldCleared (s : State) : Out :=
  .next (if s.boot.holding then { s with boot := { s.boot with holding := false, holdEnd := s.now } } else s)

/-! ### Image copies -/

/-- Table 7.3: class W, dual, and the largest wa and wb, for each dispatch index that names a routine. -/
def dispatchLimits : List (Nat × (Bool × Bool × Nat × Nat)) :=
  ([0x00, 0x01, 0x02, 0x05, 0x06, 0x10, 0x12, 0x13, 0x14, 0x20, 0x21, 0x22, 0x23, 0x24, 0x25, 0x30, 0x31, 0x32, 0x33, 0x34,
    0x35, 0x36, 0x37, 0x38, 0x39, 0x3A, 0x40, 0x41, 0x83] : List Nat).map (fun d => (d, (false, false, 0, 0))) ++
  [(0x03, (true, true, 70, 9)), (0x07, (true, false, 22, 0)), (0x11, (true, false, 62, 8)), (0x80, (true, false, 896, 0)),
   (0x81, (true, false, 896, 0)), (0x82, (true, true, 70, 9)), (0x84, (true, false, 28, 0))]

/-- R321, Table 7.2: one dispatch word meets its checks. -/
def dispatchOk (d : Nat) (w : List Byte) : Bool :=
  match assocGet dispatchLimits d with
  | none => w.all (· == 0)
  | some (cls, dual, wa, wb) =>
    decide (natAt w 0 2 + 65536 * (byteAt w 2 % 2) ≤ 0x13FFF) && (bitAt (byteAt w 2) 1 == cls) && (bitAt (byteAt w 2) 2 == dual) &&
    decide (byteAt w 2 < 8) && decide (natAt w 3 2 ≤ wa) && decide (byteAt w 5 ≤ wb) && (w.drop 6).all (· == 0)

/-- The dispatch indices: 0x00 to 0x41 and 0x80 to 0x87 (§7.2). -/
def dispatchIndices : List Nat := List.range 0x42 ++ (List.range 8).map (· + 0x80)

/-- R321: every dispatch word of a micro-RAM section meets its checks. -/
def dispatchTableOk (section_ : List Byte) : Bool := dispatchIndices.all (fun d => dispatchOk d (bytesAt section_ (16 * d) 16))

/-- R766, Table 14.9: the first condition that a copy fails, in order; 0 for a copy that passes. -/
def State.copyOrder (s : State) (readOk : Bool) (copy : List Byte) : Nat :=
  let sig := 0x110000
  if !readOk || decide (copy.length < 0x110100) then 1
  else if decide (natAt copy 0 4 ≠ 0x4E564E48) || decide (byteAt copy 4 ≠ 1) then 2
  else if decide (byteAt copy 5 ≠ Config.member) then 3
  else if decide (natAt copy 8 4 < s.fuses.minIsvn) then 4
  else if decide (leNat (Crypto.sha384 (bytesAt copy sig 96)) ≠ s.fuses.keyHash) then 5
  else if !Crypto.ecdsaVerify (natAt copy sig 48) (natAt copy (sig + 48) 48) (natAt copy (sig + 128) 48) (natAt copy (sig + 176) 48)
      (Crypto.sha384 (copy.take sig)) then 6
  else if s.straps.remapEn && !dispatchTableOk (copy.drop 0x10000) then 7
  else 0

/-- R768: the records of a verified copy whose `pvalid` bit is set. -/
def storedRecords (copy : List Byte) : List (Nat × List Byte) :=
  ((List.range 8).filter (bitAt (byteAt copy 6))).map (fun n => (n, bytesAt copy (0x1000 + 0x1000 * n) 0x1000))

/-- IMAGE_COPY_VERIFY (R760, R766 to R769, R827 to R830): a copy has been read; the fallback follows a failed primary. -/
def execImageCopyVerify (readOk : Bool) (copy : List Byte) (s : State) : Out :=
  .next (
    if s.boot.phase != 4 || decide (2 ≤ s.boot.copies.length) then s else
    let order := s.copyOrder readOk copy
    let s1 := { s with
      stores := if s.straps.remapEn then { s.stores with micro := bytesAt copy 0x10000 0x100000 } else s.stores
      -- R971: command 0x03 uses one data line; the 1-1-4 and 1-4-4 reads use four.
      boot := { s.boot with copies := s.boot.copies ++ [order], spiHigh := s.boot.sfdp.getD 0 == 0 } }
    if order = 0 then
      let s2 := { s1 with
        profStore := storedRecords copy
        boot := { s1.boot with copyUsed := some s.boot.copies.length, pdef := byteAt copy 7 % 8 } }
      ((s2.enterPhase 5).advanceTo (s2.now + 1000)).enterPhase 6
    else if s1.boot.copies.length = 2 then
      ((({ s1 with stores := { s1.stores with micro := [] } }).enterPhase 5).advanceTo (s1.now + 1000)).enterPhase 6
    else s1)

/-- MICRO_RAM_REMAP (R317, R318, R831): the end of STAT 0x6. -/
def execMicroRamRemap (s : State) : Out :=
  .next (
    if s.boot.phase != 6 then s else
    ({ s with boot := { s.boot with remapped := s.straps.remapEn && s.boot.copyUsed.isSome } }).afterImages)

/-! ### BIST -/

/-- R840: the spare state that BIST starts from: the fuses'. -/
def State.fuseState (s : State) : State :=
  { s with
    slices := s.slices.zipIdx.map (fun p =>
      (s.fuses.banks.filter (fun b => b.1 == p.2)).foldl (fun sl b => sl.failBank b.2) (({} : Slice)))
    quarters := s.quarters.map (fun _ => ({} : Quarter)) }

/-- The columns that the fuses record for the arrays, as findings. -/
def State.fuseFindings (s : State) : List Finding := s.fuses.columns.map (fun p => Finding.column p.1 p.2)

/-- R841: the findings of a full BIST are acted on. -/
def State.runBist (s : State) (findings : List Finding) : State :=
  let s1 := findings.foldl State.applyFinding s.fuseState
  let fs := s.fuseFindings ++ findings
  { s1 with quarters := s1.quarters.zipIdx.map (fun p => p.1.afterTest p.2 fs) }

/-- BIST (R838 to R841). -/
def execBist (findings : List Finding) (s : State) : Out :=
  .next (
    if s.boot.phase != 7 then s else
    let s1 := ((s.runBist findings).advanceTo (s.boot.phaseAt + 41943040))
    let s2 := ({ s1 with boot := { s1.boot with findings := findings } }).enterPhase 0x10
    if (List.range 4).all (fun q => (s2.quarter q).removed) then s2.goFatal Code.bistFail else s2)

/-! ### Applying a profile -/

/-- R129: the counts of every slice under a profile, with no resident context. -/
def State.setPartitions (s : State) (p : Profile) : State :=
  { s with slices := s.slices.map (fun sl =>
      let n := sharedOf p sl.gone.length
      { sl with sharedFree := n.toNat, owed := (-n).toNat, reserveFree := Config.parkReserve, floorFree := [] }) }

/-- The account at P_eff for 100 µs (R945): units of `Power`. -/
def State.accountCap (s : State) : Int := Int.ofNat (s.pEff * 50000 * energyUnit)

/-- R952, R945: power state at the bring-up apply. -/
def State.powerStart (s : State) : State :=
  let s1 := { s with power := { s.power with ptherm := 20 * s.capW, ptr := 0 } }
  { s1 with power := { s1.power with account := s1.accountCap } }

/-- Table 16.6: PROFILE_APPLIED. -/
def State.appliedEvent (s : State) (rinse : Bool) (spilled : Nat) : State :=
  s.deviceEvent Code.profileApplied none
    ([BitVec.ofNat 8 s.profNum, BitVec.ofNat 8 (b2n rinse)] ++ natLe 2 s.capW ++ natLe 2 spilled ++ [BitVec.ofNat 8 s.quartersMask])

/-- R832, R835, R798: a profile takes effect at the bring-up apply. -/
def State.applyAtBringUp (s : State) (p : Profile) (num : Nat) (rom : Bool) : State :=
  let s1 := { s with
    profile := p, profNum := num, profRom := rom, pepoch := 1
    power := { s.power with cclk := p.cclkMhz, relocking := false }
    refresh := { s.refresh with period := p.refIntervalUs }
    hbm := { s.hbm with retrainMs := p.rtMs }
    boot := { s.boot with applied := true } }
  let s2 := ((s1.newSweep s.now).setPartitions p).powerStart
  let code := vidOf p.cclkMhz
  -- Table 17.2: from the boot code 0x78 the code rises at once (R932) or falls 1 µs after the apply (R933).
  if 0x78 < code then
    let s3 := s2.sendVid code
    { s3 with power := { s3.power with vCode := code } }
  else if code < 0x78 then { s2 with power := { s2.power with lower := some (code, s.now + 1000) } }
  else s2

/-- R852: entry to STAT 0x8, with the local seal. -/
def State.enterHbm (s : State) : State :=
  let s1 := s.enterPhase 8
  if s.straps.sealLocal && !s.straps.testmode && s.boot.trngOk then
    { s1 with sealKey := some (Config.localSeal s.free.seals), sealUsed := true
              free := { s1.free with seals := s.free.seals + 1 } }
  else s1

/-- The profile that bring-up selects (R777). -/
def State.bringUpNumber (s : State) : Nat := if s.straps.pselLink then s.boot.pdef else s.switch.pselTaken.getD 0

/-- BRINGUP_APPLY (R832 to R836): `reached` tells for the selected profile, and `romReached` for the ROM profile, whether VDD_CORE
reaches the new voltage (R935). -/
def execBringupApply (reached romReached : Bool) (s : State) : Out :=
  .next (
    if s.boot.phase != 0x10 then s
    else if !s.straps.pselLink && s.switch.pselTaken.isNone then s   -- R834: the debounce is not complete
    else
      let n := s.bringUpNumber
      let chk := match s.checkRecord n true with
        | some r => some r
        | none => if reached then none else some { code := Code.vidSettle }
      match chk with
      | none =>
        (((s.applyAtBringUp (parseProfile ((assocGet s.profStore n).getD [])) n false).appliedEvent false 0)).enterHbm
      | some r =>
        let s1 := (s.rejectEvent n r)
        let s2 := { s1 with boot := { s1.boot with refused := r.code } }
        let rom : Profile := {}
        if (s2.checkStaged rom true).isNone && romReached then
          ((s2.applyAtBringUp rom 0 true).appliedEvent false 0).enterHbm
        else s2.goFatal Code.profileNone)

/-! ### HBM, links, readiness -/

/-- R848: entry to STAT 0x9. -/
def State.enterHostLink (s : State) : State :=
  (s.enterPhase 9).modHost (fun h => { h with st := .train, since := s.now, attempts := 0 })

/-- HBM_TRAINING (R578, R581, R843, R844, R846): the first retrain interval begins. -/
def execHbmTraining (attempts repaired : List Nat) (s : State) : Out :=
  .next (
    if s.boot.phase != 8 || s.boot.trained then s
    else if (List.range 4).any (fun k => decide (3 < attempts.getD k 1)) then s.goFatal Code.hbmTrainFail
    else
      let s1 := { s with
        boot := { s.boot with trained := true }
        hbm := { s.hbm with retrainFrom := s.now, hbmStacks := s.hbm.hbmStacks.zipIdx.map (fun (p : Stack × Nat) =>
          { p.1 with trained := true, selfRefresh := false, lanesRepaired := p.1.lanesRepaired + repaired.getD p.2 0 }) } }
      let s2 := s1.bump 3 58 1 (repaired.foldl (· + ·) 0)
      if s2.boot.needInit then s2 else s2.enterHostLink)

/-- HBM_INITIALISE (R845, R847). -/
def execHbmInitialise (s : State) : Out :=
  .next (
    if s.boot.phase != 8 || !s.boot.trained || !s.boot.needInit then s else
    ({ s with hbm := { s.hbm with mem := [], badWords := [], ceWords := [] }
              boot := { s.boot with initialised := true, needInit := false } }).enterHostLink)

/-- True when some fabric port is enabled (R823). -/
def State.fabricUsed (s : State) : Bool := s.profile.portCfg.any (fun c => c.cls != 0)

/-- R854: every enabled port enters TRAIN. -/
def State.trainPorts (s : State) : State :=
  (List.range 16).foldl (fun s n => if (s.profile.portCfg.getD n {}).cls = 0 then s else s.beginTrain n .train) s

/-- R848, R857: the host link has entered ACTIVE or FAILED; during STAT 0x9 bring-up moves on. -/
def State.hostLinkSettled (s : State) : State :=
  if s.boot.phase = 9 then
    (if s.fabricUsed then (s.enterPhase 0xA).trainPorts else s.enterPhase 0x11)
  else s.refreshStat

/-- FABRIC_TRAINING_END (R855): every enabled port is ACTIVE or FAILED, or a second has passed. -/
def execFabricTrainingEnd (s : State) : Out :=
  .next (
    if s.boot.phase != 0xA then s else
    let settled := (s.links.ports.zipIdx).all (fun p =>
      (s.profile.portCfg.getD p.2 {}).cls == 0 || p.1.st == .active || p.1.st == .failed)
    (if settled then s else s.advanceTo (s.boot.phaseAt + 1000000000)).enterPhase 0x11)

/-- Table 16.11: the pages of BRINGUP_REPORT. -/
def State.reportPages (s : State) : List (List Byte) :=
  let c := s.boot.copies
  let us := fun p => (s.boot.times.filter (fun x => x.1 == p)).foldl (fun n x => n + x.2) 0 / 1000
  [ List.take 12 (
      [BitVec.ofNat 8 (b2n (!s.boot.powerOn) + 2 * s.straps.boot), BitVec.ofNat 8 (s.boot.copyUsed.getD 0xFF),
       BitVec.ofNat 8 (c.getD 0 0), BitVec.ofNat 8 (c.getD 1 0), BitVec.ofNat 8 (b2n s.boot.remapped + 2 * b2n s.profRom),
       BitVec.ofNat 8 s.profNum] ++ natLe 2 s.boot.refused ++ [BitVec.ofNat 8 s.quartersMask, BitVec.ofNat 8 s.degraded] ++
      natLe 2 s.boot.findings.length),
    ((List.range 10).map (fun i => natLe 4 (us (i + 1)))).flatten ] ++ s.findingPages s.boot.findings

/-- R860: BRINGUP_REPORT, at the later of readiness and the first RING. -/
def State.writeReport (s : State) : State :=
  if s.ready && s.ring.valid && !s.boot.reported then
    ({ s with boot := { s.boot with reported := true } }).deviceEventParts Code.bringupReport none s.reportPages
  else s

/-- READINESS (R857 to R860, R912). -/
def execReadiness (s : State) : Out :=
  .next (
    if s.boot.phase != 0x11 then s else
    let s1 := { s with
      boot := { s.boot with phase := 0xB, times := s.boot.times ++ [(0x11, s.now - s.boot.phaseAt)], phaseAt := s.now }
      health := { s.health with startAt := s.now, dueAt := some (s.now + 1000000 * s.profile.healthMs) } }
    s1.refreshStat.writeReport)

/-- Table 15.2: the limit of each phase, ns. -/
def phaseLimit (p : Nat) : Nat :=
  if p = 1 then 300000 else if p = 3 then 1000000 else if p = 4 then 750000000 else if p = 7 then 45000000
  else if p = 8 then 155000000 else if p = 9 then 100000000 else if p = 0xA then 1000000000 else if p = 0x10 then 1000000 else 50000

/-- BRINGUP_PHASE_TIMEOUT (R822, Table 15.5).  The host link's and the fabric's phases end in the conditions of Table 15.4. -/
def execBringupPhaseTimeout (s : State) : Out :=
  .next (
    let p := s.boot.phase
    if p = 0 ∨ p = 0xB ∨ p = 0xE ∨ p = 0xF ∨ p = 0x11 ∨ (p = 3 ∧ s.boot.holding = true) ∨
        (p = 0x10 ∧ s.straps.pselLink = false ∧ s.switch.pselTaken = none) then s else
    let wait := if p = 3 then s.boot.holdEnd else if p = 0x10 then s.switch.pselFirst else 0
    let s1 := s.advanceTo (max s.boot.phaseAt wait + phaseLimit p)
    if p = 2 then s1.goFatal Code.pllLockFail
    else if p = 9 then (s1.modHost (fun h => { h with st := .failed, since := s1.now })).hostLinkSettled
    else if p = 0xA then s1.enterPhase 0x11
    else s1.goFatal Code.phaseTimeout)

/-- STAT_HOLD_EXPIRY (R987). -/
def execStatHoldExpiry (s : State) : Out :=
  .next (match s.boot.statNext with
    | none => s
    | some v =>
      let s1 := s.advanceTo (s.boot.statSince + 1000)
      { s1 with boot := { s1.boot with stat := v, statSince := s1.now, statNext := none } })

/-- PLL_LOCK_LOSS (R919): after STAT 0x2, the IOCLK PLL, or the core PLL outside a relock. -/
def execPllLockLoss (core : Bool) (s : State) : Out :=
  .next (
    if !s.running || !s.boot.ioLock || (core && s.power.relocking) then s else
    (if core then { s with boot := { s.boot with coreLock := false } }
      else { s with boot := { s.boot with ioLock := false } }).goFatal Code.pllLockFail)

end Sys2Proof.Machine
end

