-- ==== Sys2Proof/Machine/Commit.lean ====
section
/-! DEFINITION. Machine/Commit.lean: the commit point of a segment (R324, R326, §3.2, §3.3, §3.4) and the completion of an operation
(§5.4, §5.5). -/
namespace Sys2Proof.Machine

/-! ### Tiles -/

/-- R97: the staged line becomes the tile's window line, and the line before it goes back to the basket with the staged line's
charge. -/
def Slice.swap (sl : Slice) (k n line : Nat) : Slice :=
  match assocGet sl.lines line with
  | none => sl
  | some u =>
    let old := sl.lineOf (.window k n)
    let sl1 := match old with | some o => ({ sl with lines := assocDel sl.lines o }).setTile o 0 | none => sl
    ({ sl1 with lines := assocPut sl1.lines line { owner := .window k n, charge := .window } }).refund u.charge

/-- R88, R89, R97, R119: one tile write of a commit. -/
def State.commitTile (s : State) (c : Nat) (t : StagedTile) : State :=
  let e := s.entry c
  let k := e.slot.getD 0
  let i := e.sliceOf t.tile
  let old := s.tileWord c t.tile
  let s1 := match t.line with
    | some l => s.modSlice i (fun sl => (sl.swap k t.tile l).writeWord l (metaValue old t.tile t.rows))
    | none =>
      match (s.slice i).lineOf (.window k t.tile) with
      | some l =>
        let m := if t.release then metaRelease old t.tile else metaStructural old t.tile
        s.modSlice i (fun sl => { sl.writeWord l m with lost := sl.lost.filter (· != l) })
      | none => s
  s1.dropTilePegs k t.tile

/-! ### Planes -/

/-- R101, R263, R264, R266: AOP and ACL: the plane's state, its live flags and the lines and the physical plane that it held. -/
def State.resetPlane (s : State) (c pl : Nat) (isOpen : Bool) : State :=
  let s0 := s.dropMoves (fun m => m.kind != .ismove && m.ctx == c && m.pl == pl)
  let s1 : State := { s0 with
    slices := s0.slices.map (fun sl =>
      sl.releaseWhere (fun o => match o with | .parked c' pl' _ _ => c' == c && pl' == pl | _ => false))
    quarters := s0.quarters.map (fun u => { u with
      planes := u.planes.map (fun p => if p.holder = some (c, pl) then {} else p)
      parkChosen := if u.parkChosen = some (c, pl) then none else u.parkChosen
      bindWaits := u.bindWaits.erase (c, pl) }) }
  let s2 := s1.dropInternal (fun i => match i with
    | .park d l => d == c && l == pl
    | .unpark d l _ => d == c && l == pl
    | _ => false)
  s2.modEntry c (fun e => e.modPlane pl (fun _ => { isOpen := isOpen, live := 0, loc := .none }))

/-- R102, R103: the live flags that a segment sets. -/
def State.setLive (s : State) (c : Nat) (j : Job) (op : Op) : State :=
  let g := geomOf op.pkt
  let subs := if opcOf op.pkt = 0x25 then j.ordinals.map (fun o => g.sub (o / g.nt) (o % g.nt)) else g.subs
  s.modEntry c (fun e => e.modPlane g.pl (fun a => { a with live := liveWith a.live subs }))

/-! ### The commit of an operation's segment -/

/-- Tables 5.4 and 6.9: what a segment adds to `count`. -/
def segmentCount (j : Job) (opc : Nat) : Nat :=
  if opc = 0x21 ∨ opc = 0x22 then j.steps.length
  else if opc = 0x25 ∨ opc = 0x11 ∨ opc = 0x03 then j.len
  else if opc = 0x07 then 1
  else j.staged.length

/-- R49, R50: ACC_RANGE and VEC_DOMAIN, once per operation, at the first commit whose segment raised it.  Where one commit writes both,
ACC_RANGE comes first: DESIGN CHOICE (log entry 73). -/
def State.rangeEvents (s : State) (c : Nat) (j : Job) (op : Op) : State :=
  let payload := natLe 2 (seqOf op.pkt) ++ [BitVec.ofNat 8 (opcOf op.pkt), 0] ++ natLe 4 j.base
  let s1 := if j.accRange && !op.accDone then (s.contextEvent c Code.accRange payload).modHeadOp c (fun o => { o with accDone := true }) else s
  if j.vecDomain && !op.domDone then (s1.contextEvent c Code.vecDomain payload).modHeadOp c (fun o => { o with domDone := true }) else s1

/-- R242, R286: MEM_POISON, once per operation, at the first commit whose segment read a poisoned chunk. -/
def State.poisonEvent (s : State) (c : Nat) (j : Job) (op : Op) : State :=
  if decide (0 < j.poisoned) && !op.poisonDone then
    (s.contextEvent c Code.memPoison (natLe 2 (seqOf op.pkt) ++ [BitVec.ofNat 8 (opcOf op.pkt), 0] ++ natLe 4 j.poisoned ++
      natLe 8 j.poisonVa ++ natLe 7 j.poisonSpa)).modHeadOp c (fun o => { o with poisonDone := true })
  else s

/-- R354, R416 to R418: the commit of a segment of a spill; true of the last one, which issues the header and then the descriptor word at
its commit point, and advances the epoch.  The parked lines are returned as the slot is freed, so that a spill that is dropped leaves the
planes parked (DESIGN CHOICE, log entry 22). -/
def State.commitSpill (s : State) (c dispatch : Nat) (j : Job) : State × Bool :=
  let upTo := j.base + j.len
  let s1 := s.modEntry c (fun e => { e with spillAt := upTo })
  if (s.spillRecs c).length ≤ upTo then
    let s2 := (s1.postSpill c dispatch (s1.entry c).desc.sarea ((s1.sealer c).header (s1.headerBody c))).writeDescriptor c
    (s2.modEntry c (fun e => { e with desc := { e.desc with sepoch := e.desc.sepoch + 1, img := true }, salt := none, spillAt := 0 }), true)
  else (s1, false)

/-- Table 3.5: the lines staged for a segment that commits go, and the streamed lines of its ordinals; those staged ahead stay (R284). -/
def State.releaseCommitted (s : State) (c upTo : Nat) : State :=
  { s with slices := s.slices.map (fun sl => sl.releaseWhere (fun o => match o with
      | .staged c' _ => c' == c
      | .streamed c' o _ => c' == c && decide (o < upTo)
      | _ => false)) }

/-- The effects of a segment's commit by its operation, all at one edge (R324). -/
def State.commitOp (s : State) (c : Nat) (j : Job) (op : Op) : State :=
  let o := opcOf op.pkt
  let s1 := j.staged.foldl (fun s t => s.commitTile c t) s
  let s2 :=
    if o = 0x20 ∨ o = 0x24 then s1.resetPlane c (bitsAt (byteAt op.pkt 48) 0 1) (o == 0x20)
    else if o = 0x21 ∨ o = 0x22 ∨ o = 0x25 then s1.setLive c j op
    else s1
  let s2b := s2.releaseCommitted c (j.base + j.len)
  let s3 := if (s2b.entry c).ahead.isSome then s2b else s2b.dropGot c
  let r : State × Bool := if o = 0x03 ∧ (s3.entry c).slot.isSome ∧ (s3.entry c).restore.isNone then s3.commitSpill c 0x03 j
    else (s3, decide (opOrdinals op.pkt ≤ op.ord + j.len) || o == 0x03)
  let s4 := (r.1.rangeEvents c j op).poisonEvent c j op
  (s4.modHeadOp c (fun x => { x with
      ord := x.ord + j.len, segs := x.segs + 1, count := x.count + segmentCount j o, done := r.2 })).modEntry c (fun e =>
    { e with committedSince := true })

/-! ### The commit of an internal routine's segment -/

/-- R799: a context that a rinse spills becomes a candidate only at the apply edge. -/
def State.afterSpill (s : State) (c : Nat) (slot : Nat) : State :=
  if s.rinsing && s.switch.toSpill.contains c then
    { s with switch := { s.switch with toSpill := s.switch.toSpill.filter (· != c), spilled := s.switch.spilled ++ [(c, slot)] } }
  else s.makeCandidate c

/-- Table 8.3: a spill that completes: the slot, the window lines and the floors are freed, and the context is SPILLED. -/
def State.spilledOut (s : State) (c : Nat) : State :=
  let k := (s.entry c).slot.getD 0
  let s1 := ((s.freeSlot c).dropInternal (fun i => i.ctx == c)).modEntry c (fun e => { e with
    state := .spilled, planes := [{}, {}], salt := none, spillAt := 0, restore := none, candidate := none
    queue := e.queue.map (fun op => { op with stopped := false }) })
  s1.afterSpill c k

/-- EVICT: the commit of a segment (R413 to R419). -/
def State.commitEvict (s : State) (q c : Nat) (j : Job) : State :=
  let r := s.commitSpill c dispatchEvict j
  let s1 := r.1.dropJob q c
  if r.2 then s1.spilledOut c else s1

/-- R423: the reserve lines that a restore has filled become parked lines, with their metadata words. -/
def State.installParked (s : State) (c : Nat) : State :=
  { s with slices := s.slices.map (fun sl =>
      sl.lines.foldl (fun sl x => match x.2.owner with
        | .unread d pl n k => if d = c then
            ({ sl with lines := assocPut sl.lines x.1 { x.2 with owner := .parked c pl n k } }).writeWord x.1 { live := false, zero := false, zsrc := false }
          else sl
        | _ => sl) sl) }

/-- R423, R424: every line of a restored context becomes readable at one edge: tiles, metadata words, planes. -/
def State.installImage (s : State) (c : Nat) (h : List Byte) (words : List (Nat × Meta)) : State :=
  let e := s.entry c
  let k := e.slot.getD 0
  let s1 := (List.range s.profile.tilesPerCtx).foldl (fun s n =>
    match s.restoringLine c n with
    | some (i, l) => s.modSlice i (fun sl =>
        let sl1 := { sl with lines := assocPut sl.lines l { owner := .window k n, charge := .window } }
        match assocGet words n with
        | some m => sl1.writeWord l m
        | none => { sl1.writeWord l {} with lost := sl1.lost.filter (· != l) })
    | none => s) s
  let s2 := s1.installParked c
  let plane := fun (pl : Nat) =>
    let live := natAt h (64 + 8 * pl) 8
    ({ isOpen := bitAt (byteAt h 5) (2 + pl), live := live, loc := if live = 0 then .none else .parked } : ArchPlane)
  s2.modEntry c (fun e => { e with
    planes := [plane 0, plane 1], restore := none, candidate := none, lastRestore := s.now, committedSince := false, lastTrack := s.now })

/-- R423 to R425, R448, Table 8.3: RESTORE: the commit of a segment; the last one makes the context resident. -/
def State.commitRestore (s : State) (q c : Nat) (j : Job) : State :=
  let r := (s.entry c).restore.getD {}
  let h := if r.header.isEmpty then j.header else r.header
  let tiles := r.tiles ++ j.words
  let n := r.records + j.len
  let s1 := (s.modEntry c (fun e => { e with restore := some { header := h, records := n, tiles := tiles } })).dropJob q c
  if (headerRecs h).length ≤ n then
    let s2 := (s1.installImage c h tiles).dropInternal (fun i => i == .restore c)
    (s2.endClaims.settle c).claimOnWork c
  else s1

/-! ### SEGMENT_COMMIT -/

/-- R334, R335: a routine that was to yield has yielded. -/
def State.yielded (s : State) (c : Nat) (j : Job) : State :=
  if !j.yielding then s else s.modHeadOp c (fun op => if op.done || j.kind != .op then op else { op with stopped := true })

/-- The effect of a commit by its routine. -/
def State.commitJob (s : State) (q c : Nat) (j : Job) : State :=
  match j.kind with
  | .op =>
    match (s.entry c).headOp with
    | some op => ((if j.saved then s.notePlaneWriter q c else s).commitOp c j op).dropJob q c
    | none => s.dropJob q c
  | .evict => s.commitEvict q c j
  | .restore => s.commitRestore q c j
  | .attach => (s.commitAtt c).dropJob q c

/-- What a commit point of quarter `q` lets go on: binds that wait (R268), the claims and their latency (R438, R449), and a rinse. -/
def State.afterCommit (s : State) (q : Nat) : State := (((s.retryBinds q).noteLatency q 0).endClaims).rinseProgress

/-- R324: the commit point of a routine on quarter `q`, that has held its tracks for `held` cclk since it took them last (R436, R437).  The
context has held a track last now; a PARK, an UNPARK or an ISMOVE does not count for R377: DESIGN CHOICE (log entry 74). -/
def State.commitSegment (s : State) (q held : Nat) (j : Job) : State :=
  let c := j.ctx
  let s1 := s.advanceTo (j.takenAt + s.cclkNs held)
  let s2 := ((s1.chargeSegment c j (j.heldBefore + held)).commitJob q c j).noteOverrun c j.period
  let s3 := (s2.modEntry c (fun e => { e with lastTrack := s2.now })).yielded c j
  let s4 := if j.yielding then s3.dropFrames c else s3
  ((s4.settle c).takeRebind c).afterCommit q

/-- R324: the commit point of a park, an unpark or an ISMOVE on quarter `q`.  A park whose plane's live sub-blocks have changed since it took
its lines starts anew. -/
def State.commitMove (s : State) (q held : Nat) (m : MoveJob) : State :=
  let s1 := s.advanceTo (m.takenAt + s.cclkNs held)
  if m.kind == .park && m.subs != maskBits 64 ((s1.entry m.ctx).plane m.pl).live then s1.cancelPark m.ctx m.pl else
  let s2 := match m.kind with
    | .park => s1.commitPark q held m
    | .unpark => s1.commitUnpark q held m
    | .ismove => s1.commitIsmove m
  let s3 := s2.modQuarter q (fun u => { u with moves := u.moves.filter (· != m) })
  ((s3.settle m.ctx).takeRebind m.ctx).afterCommit q

/-- SEGMENT_COMMIT (R22, R49, R88, R97, R119, R122, R128, R242, R286, R324, R326, R334, R335, R357, R380, R387 to R389, R393, R436, R437, R441,
R449): the routine that holds a track of a quarter, with its effects staged, reaches its commit point. -/
def execSegmentCommit (quarter track held : Nat) (s : State) : Out :=
  if 4 ≤ quarter then .fault (.noSuchUnit "quarter" quarter)
  else if 4 ≤ track then .fault (.noSuchUnit "track" track)
  else .next (match (s.quarter quarter).jobs.find? (fun j => j.tracks.contains track && j.stage == .staged) with
    | some j => s.commitSegment quarter held j
    | none =>
      match (s.quarter quarter).moves.find? (fun m => m.tracks.contains track && m.staged) with
      | some m => s.commitMove quarter held m
      | none => s)

/-! ### OPERATION_COMPLETE -/

/-- R212, R521: what an operation must wait for before it completes: every access for FNC, every write visible for SPL and DET. -/
def State.mayComplete (s : State) (c : Nat) (op : Op) : Bool :=
  let o := opcOf op.pkt
  op.done &&
  (if o = 0x06 then !s.accessesPending c
   else if o = 0x02 ∨ o = 0x03 then !s.writesPending c &&
     !(s.fabric.txns.any (fun t => t.isWrite && t.owner == .record c && t.master == masterSre))
   else true)

/-- R443: DL_CHARGE of the frame that an FRM closes, if it closes one. -/
def State.closeFrame (s : State) (c : Nat) (op : Op) : State :=
  let e := s.entry c
  match e.curFrame with
  | some cur =>
    let f := (e.frames.find? (fun f => f.period == cur.period)).getD cur
    let s1 := if rspOf op.pkt then s.contextEvent c Code.dlCharge
        (natLe 2 f.num ++ natLe 6 0 ++ natLe 8 (f.bound % 2 ^ 64).toNat ++ natLe 4 f.charge ++ natLe 4 e.desc.budget) else s
    s1.modEntry c (fun e => { e with frames := e.frames.filter (fun f => f.period != cur.period) })
  | none => s

/-- What the completion of an operation does before its reports: FNC and FRM (R212, R220, R432, R443, R498). -/
def State.completeEffect (s : State) (c : Nat) (op : Op) : State :=
  let o := opcOf op.pkt
  if o = 0x06 then s.dropTranslations c
  else if o = 0x05 then
    let s1 := if (s.entry c).deadlined then (s.closeFrame c op).openFrame c op else s
    s1.modEntry c (fun e => { e with frm := frameOf op.pkt })
  else s

/-- The writes of a context's operations that are not visible yet. -/
def State.writesOf (s : State) (c : Nat) : List Nat := (s.fabric.txns.filter (fun t => t.isWrite && t.owner == .op c)).map (·.id)

/-- R214 to R222: the DONE response and the progress word of an operation that completes. -/
def State.reportDone (s : State) (c : Nat) (op : Op) (after : List Nat) : State :=
  let o := opcOf op.pkt
  let s1 := if rspOf op.pkt then s.respond c op.pkt respDone 0 op.count op.pepoch after else s
  if rspOf op.pkt || o == 0x05 || o == 0x06 || o == 0x07 then s1.writeProgress c [] else s1

/-- What the completion of an operation does after its reports: DET frees the entry (R367, R368), SPL the slot (R370, R418). -/
def State.afterReports (s : State) (c : Nat) (op : Op) : State :=
  let o := opcOf op.pkt
  if o = 0x02 then ((s.freeSlot c).dropInternal (fun i => i.ctx == c)).dropEntry c
  else if o = 0x03 then
    if (s.entry c).slot.isSome && (s.entry c).restore.isNone then s.spilledOut c else s
  else s.settle c

/-- OPERATION_COMPLETE (R196, R214, R216, R218, R219, R221, R222, R310, R367, R443, R498, R521): the first operation of a context, all of
whose segments have committed, completes. -/
def execOperationComplete (ctx : Nat) (s : State) : Out :=
  if 512 ≤ ctx then .fault (.noSuchUnit "context" ctx) else
  .next (match (s.entry ctx).headOp with
    | none => s
    | some op =>
      if !s.mayComplete ctx op || (s.jobOf ctx).isSome then s else
      let s1 := (s.completeEffect ctx op).popOp ctx
      (((s1.reportDone ctx op (s1.writesOf ctx)).afterReports ctx op).endClaims).claimOnWork ctx)

end Sys2Proof.Machine
end

