-- ==== Sys2Proof/Machine/Moves.lean ====
section
/-! DEFINITION. Machine/Moves.lean: the operations of data movement: NOP, FRM, FNC, NTF, LDT, STT, CPT, ZRT and RLS (§5.6 to §5.12).
Each command runs the routine of its operation on, up to its next wait, its commit point or a fault. -/
namespace Sys2Proof.Machine

/-! ### Ordinals and maps -/

/-- The reads of a list of ranges: translated, and, before they are posted, classified (R481); then waited for.  `asked` tells whether the job has
posted them, and `ask` notes it. -/
def State.readRanges (s : State) (q c : Nat) (ranges : List (Nat × Nat)) (asked : Job → Bool) (ask : Job → Job)
    (k : State → List Piece → Prog) : Prog :=
  (s.needPages q c false ranges).andThen fun s =>
  (if asked (s.job c) then .go s else
    (s.classify c false false ranges).andThen fun s => .go ((s.postReads q c ranges).modJob q c ask)).andThen fun s =>
  match s.gather c ranges with
  | none => .stop s
  | some ps => k s ps

/-- R238, R243, R509 to R511, R283: the residency bits of every block that the tiles `all` of the operation overlap are read before any tensor
data, and those of a restarted segment's tiles again (R510); what follows takes them. -/
def State.withMap (s : State) (q c : Nat) (v : View) (tiles all : List (Nat × Nat)) (k : State → (Nat → Nat → Bool) → Prog) : Prog :=
  if !v.rmen then k s (fun _ _ => true) else
  let known := (s.entry c).headOp.bind (·.mapBits)
  let want := match known with
    | none => v.mapBytes all
    | some bs => (v.mapBytes tiles).filter (fun a => !(bs.any (fun b => b.1 == a)))
  let bits := fun (bs : List (Nat × Byte)) (a b : Nat) =>
    bitAt (((bs.find? (fun p => p.1 == v.rmap + v.mapIndex a b / 8)).map (fun p => p.2.toNat)).getD 0) (v.mapIndex a b % 8)
  if known.isSome && want.isEmpty then k s (bits (known.getD [])) else
  s.readRanges q c (want.map (fun a => (a, 1))) (·.mapAsked) (fun j => { j with mapAsked := true }) fun s ps =>
  match ps.find? (fun p => !p.bad.isEmpty) with
  | some p => .stop (s.routineFault c { code := Code.memUe, va := p.va, spa := p.spa })
  | none =>
    let bs := known.getD [] ++ ps.map (fun p => (p.va, p.data.headD 0))
    k ((s.modHeadOp c (fun op => { op with mapBits := some bs })).dropGot c) (bits bs)

/-- The tensor data of a list of ranges: translated, classified, read and waited for; the job notes the poisoned chunks (R242). -/
def State.withData (s : State) (q c : Nat) (ranges : List (Nat × Nat)) (k : State → List Piece → Prog) : Prog :=
  s.readRanges q c ranges (·.asked) (fun j => { j with asked := true }) fun s ps =>
  let bad := poisonedChunks ps
  let first := bad.headD (0, 0)
  k (s.modJob q c (fun j => { j with poisoned := bad.length, poisonSpa := first.1, poisonVa := first.2 })) ps

/-- Value writes are staged: their lines filled, the job's list set. -/
def State.stageTiles (s : State) (q c : Nat) (values : List (Nat × Tile)) (others : List StagedTile) : State :=
  let s1 := values.foldl (fun s x => s.fillStaged c x.1 x.2) s
  s1.toCommit q c (fun j => { j with staged := values.map (fun x => s1.stagedTile c x.1 x.2) ++ others })

/-! ### NOP, FRM, FNC, NTF -/

/-- NOP (R202 to R204, R225, R256, R257). -/
def execNop (ctx : Nat) (found : List Found) (s : State) : Out :=
  opCommand ctx found (s.runOp 0x00 ctx found (fun s q _ _ => .stop (s.toCommit q ctx id)))

/-- FRM (R226, R432, R434): its earlier operations have completed. -/
def execFrm (ctx : Nat) (found : List Found) (s : State) : Out :=
  opCommand ctx found (s.runOp 0x05 ctx found (fun s q _ _ => .stop (s.toCommit q ctx id)))

/-- FNC (R212, R213): it waits until every access of its context's operations is visible or has returned. -/
def execFnc (ctx : Nat) (found : List Found) (s : State) : Out :=
  opCommand ctx found (s.runOp 0x06 ctx found (fun s q _ _ =>
    if s.accessesPending ctx then .stop s else .stop (s.toCommit q ctx id)))

/-- NTF (R227 to R230, R326, R328): one 8-byte write, once its page is translated and classified. -/
def execNtf (ctx : Nat) (found : List Found) (s : State) : Out :=
  opCommand ctx found (s.runOp 0x07 ctx found (fun s q _ op =>
    let va := natAt op.pkt 8 6
    (s.needPages q ctx true [(va, 8)]).andThen fun s =>
    (s.classifyWrites q ctx true [(va, 8)]).andThen fun s =>
    let spa := (s.job ctx).spaOf va
    let s1 := s.post { id := 0, master := q, target := s.targetOf spa, owner := .op ctx, kind := .write, spa := spa, len := 8
                       data := bytesAt op.pkt 16 8, notify := s.place spa == .notify, seq := seqOf op.pkt, opc := 0x07, va := va }
    .stop (s1.toCommit q ctx (fun j => { j with issued := true, writesDone := 1 }))))

/-! ### LDT -/

/-- LDT (R237 to R243, R255, R325): the map bits, the tensor data, the staging lines and their transfers, then the tiles. -/
def execLdt (ctx : Nat) (found : List Found) (s : State) : Out :=
  opCommand ctx found (s.runOp 0x10 ctx found (fun s q j op =>
    let v := moveView op.pkt
    let tbase := byteAt op.pkt 48
    let tiles := j.ordinals.map (fun o => (tbase + o, v.tileAt o))
    s.withMap q ctx v (tiles.map (·.2)) ((List.range (v.bm * v.bn)).map v.tileAt) fun s resident =>
    let ranges := (tiles.map (fun t => v.tileBytes resident t.2.1 t.2.2)).flatten
    s.withData q ctx ranges fun s ps =>
    let zeros := tiles.filter (fun t => v.structural resident t.2.1 t.2.2)
    let values := tiles.filter (fun t => !v.structural resident t.2.1 t.2.2)
    (s.stageLines q ctx laneLsWrite kindLdw (values.map (·.1))).andThen fun s =>
    let s1 := s.postOnce q ctx (fun s => s.postLines q laneLsWrite kindLdw ctx (values.map (fun t => s.stagedPort ctx t.1)))
    (Prog.until (s1.lanesDone q ctx) s1).andThen fun s =>
    let rows := values.map (fun t =>
      let mine := ps.filter (fun p => (v.tileBytes resident t.2.1 t.2.2).any (fun r => decide (r.1 ≤ p.va) && decide (p.va < r.1 + r.2)))
      (t.1, v.formTile resident mine t.2.1 t.2.2))
    .stop ((s.stageTiles q ctx rows (zeros.map (fun t => { tile := t.1, structural := true }))).dropGot ctx)))

/-! ### STT -/

/-- The writes of one tile of an STT, in ascending address (R327): virtual address and bytes. -/
def State.sttWrites (s : State) (q c : Nat) (found : List Found) (v : View) (tbase o : Nat) : List (Nat × List Byte) :=
  v.tileWrites (s.readFor q c found (tbase + o)) (v.tileAt o).1 (v.tileAt o).2

/-- The writes of a list, cut at page boundaries, are posted in order. -/
def State.postWrites (s : State) (q c : Nat) (op : Op) (ws : List (Nat × List Byte)) : State :=
  ws.foldl (fun s w => (pieces 4096 w.1 w.2.length).foldl (fun s p =>
    let spa := (s.job c).spaOf p.1
    s.post { id := 0, master := q, target := s.targetOf spa, owner := .op c, kind := .write, spa := spa, len := p.2
             data := bytesAt w.2 (p.1 - w.1) p.2, seq := seqOf op.pkt, opc := opcOf op.pkt, va := p.1 }) s) s

/-- R326, R327: an STT issues the writes of each tile as soon as its line has been read, in ascending ordinal, up to the ordinal `upTo`. -/
def State.sttIssue (s : State) (q c : Nat) (found : List Found) (op : Op) (upTo : Nat) : State :=
  let j := s.job c
  if !j.classified || !j.fetched then s else
  let v := moveView op.pkt
  let tbase := byteAt op.pkt 48
  let cost := fun o => if (s.readPort c (tbase + o)).isSome then 1 else 0
  let ready := readyOrds cost ((j.ordinals.map cost).sum - s.laneLeft q laneLsRead c .routine) j.ordinals
  (ready.filter (fun o => decide (j.writesDone ≤ o) && decide (o < upTo))).foldl (fun s o =>
    (s.postWrites q c op (s.sttWrites q c found v tbase o)).modJob q c (fun j => { j with issued := true, writesDone := o + 1 })) s

/-- R345: the first ordinal of an STT segment whose line an uncorrectable error names. -/
def State.sttMet (s : State) (c : Nat) (found : List Found) (op : Op) (j : Job) : Nat :=
  ((j.ordinals.find? (fun o => match s.tileLine c (byteAt op.pkt 48 + o) with
    | some (i, l) => found.any (fun f => match f with
      | .metadata i' l' ok => !ok && i' == i && l' == l
      | .lineMap i' l' ok => !ok && i' == i && l' == l
      | _ => false)
    | none => false))).getD (j.base + j.len)

/-- STT (R244 to R248, R255, R326 to R329, R345): every page is translated and classified, then the writes of each tile go as it has been read. -/
def execStt (ctx : Nat) (found : List Found) (s : State) : Out :=
  opCommand ctx found (s.runOpWith 0x11 ctx found
    (fun s q j op => s.sttIssue q ctx found op (s.sttMet ctx found op j))
    (fun s q j op =>
      let v := moveView op.pkt
      let tbase := byteAt op.pkt 48
      let ranges := (j.ordinals.map (fun o => v.storeRanges (v.tileAt o).1 (v.tileAt o).2)).flatten
      (s.needPages q ctx true ranges).andThen fun s =>
      (s.classifyWrites q ctx false ranges).andThen fun s =>
      let s1 := s.postOnce q ctx (fun s => s.postLines q laneLsRead kindStr ctx (j.ordinals.filterMap (fun o => s.readPort ctx (tbase + o))))
      let s2 := s1.sttIssue q ctx found op (j.base + j.len)
      (Prog.until (decide (j.base + j.len ≤ (s2.job ctx).writesDone)) s2).andThen fun s =>
      .stop (s.toCommit q ctx (fun j => { j with issued := true }))))

/-! ### CPT, ZRT, RLS -/

/-- CPT (R249 to R252): a structural zero is copied without a line; any other source by one read and one write transfer. -/
def execCpt (ctx : Nat) (found : List Found) (s : State) : Out :=
  opCommand ctx found (s.runOp 0x12 ctx found (fun s q j op =>
    let src := byteAt op.pkt 48
    let dst := byteAt op.pkt 49
    let zeros := j.ordinals.filter (fun o => (s.tileFlags ctx (src + o)).zsrc)
    let values := j.ordinals.filter (fun o => !(s.tileFlags ctx (src + o)).zsrc)
    (s.stageLines q ctx laneLsWrite kindLdw (values.map (dst + ·))).andThen fun s =>
    let s1 := s.postOnce q ctx (fun s =>
      (s.postLines q laneLsRead kindStr ctx (values.filterMap (fun o => s.readPort ctx (src + o)))).postLines q laneLsWrite kindLdw ctx
        (values.map (fun o => s.stagedPort ctx (dst + o))))
    (Prog.until (s1.lanesDone q ctx) s1).andThen fun s =>
    .stop (s.stageTiles q ctx (values.map (fun o => (dst + o, s.readFor q ctx found (src + o))))
      (zeros.map (fun o => { tile := dst + o, structural := true })))))

/-- ZRT (R253, R256): every tile of its range becomes a structural zero at the commit. -/
def execZrt (ctx : Nat) (found : List Found) (s : State) : Out :=
  opCommand ctx found (s.runOp 0x13 ctx found (fun s q _ op =>
    .stop (s.toCommit q ctx (fun j => { j with staged := (List.range (byteAt op.pkt 50 + 1)).map (fun o =>
      { tile := byteAt op.pkt 48 + o, structural := true }) }))))

/-- RLS (R254, R256): every tile of its range is released at the commit. -/
def execRls (ctx : Nat) (found : List Found) (s : State) : Out :=
  opCommand ctx found (s.runOp 0x14 ctx found (fun s q _ op =>
    .stop (s.toCommit q ctx (fun j => { j with staged := (List.range (byteAt op.pkt 50 + 1)).map (fun o =>
      { tile := byteAt op.pkt 48 + o, structural := true, release := true }) }))))

end Sys2Proof.Machine
end

