-- ==== Sys2Proof/Machine/Compute.lean ====
section
/-! DEFINITION. Machine/Compute.lean: the operations of the accumulator planes: AOP, ACL, MMA, MMS, ASD and ADR (§6.1 to §6.7).
Each command runs the routine of its operation on, up to its next wait, its commit point or a fault. -/
namespace Sys2Proof.Machine

/-! ### AOP and ACL -/

/-- AOP (R203, R263, R308): one segment; its effect is the commit's. -/
def execAop (ctx : Nat) (found : List Found) (s : State) : Out :=
  opCommand ctx found (s.runOp 0x20 ctx found (fun s q _ _ => .stop (s.toCommit q ctx id)))

/-- ACL (R203, R264, R308): one segment; its effect is the commit's. -/
def execAcl (ctx : Nat) (found : List Found) (s : State) : Out :=
  opCommand ctx found (s.runOp 0x24 ctx found (fun s q _ _ => .stop (s.toCommit q ctx id)))

/-! ### ASD -/

/-- R52, R289: the elements that a source tile seeds. -/
def Tile.seeds (t : Tile) : List Af := ((t.map Row.vals).flatten).map seedOf

/-- ASD (R52, R102, R145, R288, R289): the tiles are read on the A and B lanes in turn; their elements go into the plane. -/
def execAsd (ctx : Nat) (found : List Found) (s : State) : Out :=
  opCommand ctx found (s.runOp 0x25 ctx found (fun s q j op =>
    let sbase := byteAt op.pkt 48
    let g := geomOf op.pkt
    let side := fun (b : Nat) (s : State) => (j.ordinals.filter (fun o => o % 2 == b)).filterMap (fun o => s.readPort ctx (sbase + o))
    let s1 := s.postOnce q ctx (fun s => (s.postLines q laneA kindOpa ctx (side 0 s)).postLines q laneB kindOpb ctx (side 1 s))
    (Prog.until (s1.lanesDone q ctx) s1).andThen fun s =>
    let s2 := j.ordinals.foldl (fun s o => s.modPlane q (j.phys.getD 0) (fun x =>
      x.setBlock (g.sub (o / g.nt) (o % g.nt)) (Tile.seeds (s.readFor q ctx found (sbase + o))))) s
    .stop (s2.toCommit q ctx id)))

/-! ### ADR -/

/-- R51, R58, R62, R291: the tile that a sub-block drains into. -/
def drainTile (m : QMode) (sub : Nat) (b : List Af) : Tile :=
  (List.range 32).map (fun r => quantRow m ((32 * (sub / 8) + r) * 256 + 32 * (sub % 8)) (((b.drop (32 * r)).take 32).map Af.val))

/-- The elements of a sub-block of a context's plane, as a drain reads them: +0 where it is not live (R51). -/
def State.drainBlock (s : State) (q c pl : Nat) (phys : Option Nat) (sub : Nat) : List Af :=
  match phys with
  | some p => if bitAt ((s.entry c).plane pl).live sub then ((s.quarter q).plane p).block sub else zeroBlock
  | none => zeroBlock

/-- ADR (R51, R58, R61, R62, R290 to R292, R1034): every output tile is staged and written from the vector unit. -/
def execAdr (ctx : Nat) (found : List Found) (s : State) : Out :=
  opCommand ctx found (s.runOp 0x23 ctx found (fun s q j op =>
    let dbase := byteAt op.pkt 48
    let g := geomOf op.pkt
    (s.stageLines q ctx laneDvWrite kindDrw (j.ordinals.map (dbase + ·))).andThen fun s =>
    let s1 := s.postOnce q ctx (fun s => s.postLines q laneDvWrite kindDrw ctx (j.ordinals.map (fun o => s.stagedPort ctx (dbase + o))))
    (Prog.until (s1.lanesDone q ctx) s1).andThen fun s =>
    let rows := j.ordinals.map (fun o =>
      let sub := g.sub (o / g.nt) (o % g.nt)
      (dbase + o, drainTile (qmodeAt op.pkt 51) sub (s.drainBlock q ctx g.pl j.phys sub)))
    -- R1034: a drain of n tiles counts 32n lines; the transfer of one of each 32 has been charged at its port.
    .stop ((s.stageTiles q ctx rows []).chargeCore (31 * 55 * j.ordinals.length))))

/-! ### Steps of MMA and MMS -/

/-- Where the B tile of a column position and ordinal comes from: a window tile, a streamed line, or a structural zero of the map. -/
inductive BSource where
  | window (tile : Nat)
  | streamed (slice line : Nat)
  | none
  deriving DecidableEq, Repr, Inhabited

/-- The flags of a B tile (§6.4). -/
def State.bFlags (s : State) (c : Nat) : BSource → Meta
  | .window t => s.tileFlags c t
  | .streamed i l => (s.slice i).flags l
  | .none => {}

/-- R276, R277: the step of ordinal `o` is skipped. -/
def State.skipped (s : State) (c : Nat) (pkt : List Byte) (b : Nat → Nat → BSource) (o : Nat) : Bool :=
  let g := geomOf pkt
  let iso := (s.entry c).isolated
  let zero := fun (m : Meta) => if iso then m.zsrc else m.zero
  (List.range g.mt).all (fun m => zero (s.tileFlags c (aTile pkt m o))) || (List.range g.nt).all (fun n => zero (s.bFlags c (b n o)))

/-- R114, R116, R117: the port of the transfer that a fetch of a tile through peg `i` needs; none for a hit or a structural zero. -/
def State.pegPort (s : State) (q c i n : Nat) : Option Nat :=
  let m := s.tileFlags c n
  if m.zsrc || ((s.quarter q).peg i).hits ((s.entry c).slot.getD 0) n m.ver then none else s.readPort c n

/-- R114 to R118: a fetch through peg `i` delivers its line to the array edge: a hit from the peg, a miss from the port. -/
def State.pegFetch (s : State) (q c : Nat) (found : List Found) (i n : Nat) : State × Tile :=
  let m := s.tileFlags c n
  let k := (s.entry c).slot.getD 0
  let g := (s.quarter q).peg i
  if m.zsrc then (s, Tile.zero)
  else if g.hits k n m.ver then (s, g.line)
  else
    let t := s.readFor q c found n
    (s.modQuarter q (fun u => u.setPeg i { valid := true, slot := k, tile := n, ver := m.ver, line := t }), t)

/-- R118: a streamed line goes to its B-peg, which holds it with its valid bit clear. -/
def State.streamFetch (s : State) (q i slice line : Nat) : State × Tile :=
  let t := (s.slice slice).readLine line
  (s.modQuarter q (fun u => u.setPeg i { u.peg i with valid := false, line := t }), t)

/-- A B fetch of column position `n` of the array. -/
def State.bFetch (s : State) (q c : Nat) (found : List Found) (n : Nat) : BSource → State × Tile
  | .window t => s.pegFetch q c found (8 + n) t
  | .streamed i l => s.streamFetch q (8 + n) i l
  | .none => (s, Tile.zero)

/-- The port of a B fetch. -/
def State.bPort (s : State) (q c n : Nat) : BSource → Option Nat
  | .window t => s.pegPort q c (8 + n) t
  | .streamed i l => some (portOfLine i l)
  | .none => Option.none

/-- The port transfers that the fetches of a step need now: peg, lane and port (R113, R116). -/
def State.stepMisses (s : State) (q c : Nat) (pkt : List Byte) (b : Nat → Nat → BSource) (o : Nat) : List (Nat × Nat × Nat) :=
  let g := geomOf pkt
  (List.range g.mt).filterMap (fun m => (s.pegPort q c (g.prow + m) (aTile pkt m o)).map (fun p => (g.prow + m, laneA, p))) ++
  (List.range g.nt).filterMap (fun n => (s.bPort q c (g.pcol + n) (b n o)).map (fun p => (8 + g.pcol + n, laneB, p)))

/-- R116, R190: the transfers that the fetches of a step need and that have not been asked for are posted on the A and the B lane: those of a
peg that was dropped since its compare among them. -/
def State.postStep (s : State) (q c : Nat) (pkt : List Byte) (b : Nat → Nat → BSource) (o : Nat) : State :=
  let ms := (s.stepMisses q c pkt b o).filter (fun x => !((s.job c).missed.contains x.1))
  let on := fun (lane : Nat) => (ms.filter (fun x => x.2.1 == lane)).map (fun x => x.2.2)
  (((s.postLines q laneA kindOpa c (on laneA)).postLines q laneB kindOpb c (on laneB)).modJob q c (fun j =>
    { j with stepAsked := true, missed := j.missed ++ ms.map (·.1) }))

/-- The lines of a step reach the array edge: those of the A positions of the block, then those of its B positions (R189). -/
def State.fetchStep (s : State) (q c : Nat) (found : List Found) (pkt : List Byte) (b : Nat → Nat → BSource) (o : Nat) : State × List Tile :=
  let g := geomOf pkt
  let r1 := (List.range g.mt).foldl (fun (acc : State × List Tile) m =>
    let r := acc.1.pegFetch q c found (g.prow + m) (aTile pkt m o)
    (r.1, acc.2 ++ [r.2])) (s, [])
  (List.range g.nt).foldl (fun (acc : State × List Tile) n =>
    let r := acc.1.bFetch q c found (g.pcol + n) (b n o)
    (r.1, acc.2 ++ [r.2])) r1

/-- R41, R53, R274: the group sums of an A tile and a B tile are added to a sub-block; true where an element left the range. -/
def accumBlock (a b : Tile) (blk : List Af) : List Af × Bool :=
  let rs := blk.zipIdx.map (fun x => accumulate x.1 (groupSum (a.getD (x.2 / 32) Row.zero) (b.getD (x.2 % 32) Row.zero)))
  (rs.map (·.val), rs.any (·.range))

/-- R274, R275: one step over the output block of a plane. -/
def PhysPlane.step (p : PhysPlane) (g : Geom) (lines : List Tile) : PhysPlane × Bool :=
  ((List.range g.mt).map (fun m => (List.range g.nt).map (fun n => (m, n)))).flatten.foldl (fun acc x =>
    let r := accumBlock (lines.getD x.1 Tile.zero) (lines.getD (g.mt + x.2) Tile.zero) (acc.1.block (g.sub x.1 x.2))
    (acc.1.setBlock (g.sub x.1 x.2) r.1, acc.2 || r.2)) (p, false)

/-- The step that has started adds its group sums to the plane (R53, R54). -/
def State.sumStep (s : State) (q c : Nat) (g : Geom) : State :=
  let j := s.job c
  if j.started ≤ j.summed then s else
  let p := j.phys.getD 0
  let r := ((s.quarter q).plane p).step g j.lines
  (s.modPlane q p (fun _ => r.1)).modJob q c (fun j => { j with summed := j.started, accRange := j.accRange || r.2 })

/-- R189: the steps of a segment, one after another: the lines of the next one are fetched, wait at the array edge, and once the
step has started its group sums are added; after the last the segment is at its commit point. -/
def State.runSteps (s : State) (q c : Nat) (found : List Found) (pkt : List Byte) (b : Nat → Nat → BSource) : Prog :=
  let s1 := s.sumStep q c (geomOf pkt)
  let j := s1.job c
  match j.steps[j.summed]? with
  | none => .stop (s1.toCommit q c id)
  | some o =>
    if j.edge then .stop s1 else
    let s2 := s1.postStep q c pkt b o
    (Prog.until (s2.lanesDone q c) s2).andThen fun s =>
    let r := s.fetchStep q c found pkt b o
    .stop (r.1.modJob q c (fun j => { j with lines := r.2, edge := true, stepAsked := false, missed := [] }))

/-- The steps of a segment that execute are chosen once (R278, R279). -/
def State.chooseSteps (s : State) (q c : Nat) (j : Job) (pkt : List Byte) (b : Nat → Nat → BSource) : State :=
  if (s.job c).loaded then s else
  s.modJob q c (fun x => { x with loaded := true, steps := j.ordinals.filter (fun o => !s.skipped c pkt b o) })

/-- MMA (R113 to R118, R272 to R279, R306). -/
def execMma (ctx : Nat) (found : List Found) (s : State) : Out :=
  opCommand ctx found (s.runOp 0x21 ctx found (fun s q j op =>
    let b := fun n o => BSource.window (bTile op.pkt n o)
    (s.chooseSteps q ctx j op.pkt b).runSteps q ctx found op.pkt b))

/-! ### MMS -/

/-- The streamed line of a position and ordinal, if it has one (Table 3.5). -/
def State.streamed (s : State) (c pcol n o : Nat) : BSource :=
  let i := (s.entry c).streamSlice (pcol + n)
  match (s.slice i).lineOf (.streamed c o n) with
  | some l => .streamed i l
  | none => .none

/-- Streamed lines for a list of block tiles; the routine runs on once all have theirs. -/
def State.stageStreams (s : State) (q c pcol : Nat) (tiles : List (Nat × Nat)) : Prog :=
  let e := s.entry c
  let s1 := tiles.foldl (fun s t =>
    s.takeLine c (e.streamSlice (pcol + t.1)) ((pcol + t.1) % 4) (8 * q + laneLsWrite) (s.prioOf kindLdw c) (.streamed c t.2 t.1)) s
  Prog.until (tiles.all (fun t => s1.streamed c pcol t.1 t.2 != .none)) s1

/-- A streamed line is written, with the flags that its staging gives (§6.4). -/
def State.fillStream (s : State) (c pcol : Nat) (t : Nat × Nat) (rows : Tile) : State :=
  match s.streamed c pcol t.1 t.2 with
  | .streamed i l => s.modSlice i (fun sl => (sl.writePayload l rows).writeWord l (metaValue {} 0 rows))
  | _ => s

/-- The ports of the streamed lines of a list of block tiles. -/
def State.streamPorts (s : State) (c pcol : Nat) (tiles : List (Nat × Nat)) : List Nat :=
  tiles.filterMap (fun t => match s.streamed c pcol t.1 t.2 with | .streamed i l => some (portOfLine i l) | _ => Option.none)

/-- The block tiles of a list that take a streamed line: those that the map does not make structural zeros (R283). -/
def mmsValues (v : View) (resident : Nat → Nat → Bool) (tiles : List (Nat × Nat)) : List (Nat × Nat) :=
  tiles.filter (fun t => !v.structural resident t.1 t.2)

/-- The tensor data of a list of block tiles. -/
def mmsRanges (v : View) (resident : Nat → Nat → Bool) (tiles : List (Nat × Nat)) : List (Nat × Nat) :=
  (tiles.map (fun t => v.tileBytes resident t.1 t.2)).flatten

/-- The B data of a segment of MMS: map bits, tensor data, streamed lines and their transfers (R281 to R286). -/
def State.loadStreams (s : State) (q c : Nat) (j : Job) (pkt : List Byte) (k : State → Prog) : Prog :=
  if (s.job c).loaded then k s else
  let v := mmsView pkt
  let g := geomOf pkt
  let tiles := mmsTiles g j.ordinals
  s.withMap q c v tiles (mmsTiles g (List.range (opOrdinals pkt))) fun s resident =>
  s.withData q c (mmsRanges v resident tiles) fun s ps =>
  let values := mmsValues v resident tiles
  (s.stageStreams q c g.pcol values).andThen fun s =>
  let s1 := s.postOnce q c (fun s => s.postLines q laneLsWrite kindLdw c (s.streamPorts c g.pcol values))
  (Prog.until (s1.lanesDone q c && s1.lanesDoneFor q c .ahead) s1).andThen fun s =>
  let s2 := values.foldl (fun s t =>
    let mine := ps.filter (fun p => (v.tileBytes resident t.1 t.2).any (fun r => decide (r.1 ≤ p.va) && decide (p.va < r.1 + r.2)))
    s.fillStream c g.pcol t (v.formTile resident mine t.1 t.2)) s
  k ((s2.dropGot c).modEntry c (fun e => { e with ahead := none }))

/-- The bits of the residency map that an MMS has read. -/
def Op.residency (op : Op) (v : View) (a b : Nat) : Bool :=
  !v.rmen || bitAt (((((op.mapBits).getD []).find? (fun p => p.1 == v.rmap + v.mapIndex a b / 8)).map (fun p => p.2.toNat)).getD 0) (v.mapIndex a b % 8)

/-- R284: what the cached translations give for the pages of a list of ranges, if they give every one and permit the read. -/
def State.cachedPages (s : State) (q c : Nat) (ranges : List (Nat × Nat)) : Option (List (Nat × Nat)) :=
  (pagesOf ranges).mapM (fun a =>
    match ((s.quarter q).tlb ++ s.fabric.sharedTlb).find? (fun t => t.covers c a) with
    | some t => match t.use a false with | .at_ spa => some (a / 4096, spa / 4096) | _ => none
    | none => none)

/-- R284: while a segment of MMS runs, the lines of the next one are staged: its reads are posted where the caches translate all its pages, then
its basket lines are taken, and with the data there its transfers are posted.  It starts no walk and meets no fault of its own. -/
def State.stageAhead (s : State) (q c : Nat) (op : Op) : State :=
  let v := mmsView op.pkt
  let g := geomOf op.pkt
  let j := s.job c
  let resident := op.residency v
  match (s.entry c).ahead with
  | none =>
    let base := j.base + j.len
    let len := segmentLen op.pkt s.profile.segSteps base
    let ranges := mmsRanges v resident (mmsTiles g ((List.range len).map (base + ·)))
    match s.cachedPages q c ranges with
    | some pages =>
      let s1 := s.modJob q c (fun j => { j with pages := j.pages ++ pages.filter (fun p => !j.pages.any (fun x => x.1 == p.1)) })
      if base < opOrdinals op.pkt && ((s1.job c).places ranges).all (fun p => (s1.place p.2.1).plain && !s1.inSwitchRange p.2.1) then
        (s1.postReads q c ranges).modEntry c (fun e => { e with ahead := some { base := base, len := len } })
      else s
    | none => s
  | some a =>
    let tiles := mmsTiles g ((List.range a.len).map (a.base + ·))
    let values := mmsValues v resident tiles
    if a.moved then s else
    ((s.stageStreams q c g.pcol values).andThen (fun s1 =>
      match s1.gather c (mmsRanges v resident tiles) with
      | none => .stop s1
      | some _ => .go ((s1.postFor q laneLsWrite { port := 0, left := 0, kind := kindLdw, ctx := c, by_ := c, use := .ahead }
          (s1.streamPorts c g.pcol values)).modEntry c (fun e => { e with ahead := some { a with moved := true } })))).state

/-- MMS (R118, R276 to R287, R306). -/
def execMms (ctx : Nat) (found : List Found) (s : State) : Out :=
  opCommand ctx found (s.runOp 0x22 ctx found (fun s q j op =>
    s.loadStreams q ctx j op.pkt fun s =>
    let b := fun n o => s.streamed ctx (geomOf op.pkt).pcol n o
    let s1 := s.chooseSteps q ctx j op.pkt b
    let s2 := match (s1.entry ctx).headOp with | some op => s1.stageAhead q ctx op | none => s1
    s2.runSteps q ctx found op.pkt b))

end Sys2Proof.Machine
end

