-- ==== Sys2Proof/Machine/Deadline.lean ====
section
/-! DEFINITION. Machine/Deadline.lean: frame periods and deadlines (chapter 09). -/
namespace Sys2Proof.Machine

/-! ### PERIOD_START -/

/-- R429: the period that the timebase lies in, at the rate in force. -/
def State.periodNow (s : State) : Nat := s.timebase * s.frameHz / 1000000000

/-- R429, R652: the next period begins; after a TIME that moved the timebase past or before it, the period that the timebase names. -/
def State.nextPeriod (s : State) : State :=
  let cur := s.periodNow
  if cur ≠ s.period then { s with period := cur, periodAt := s.now }
  else
    let s1 := s.advanceTo (s.ownInstant (periodStart s.frameHz (Int.ofNat s.period + 1)))
    { s1 with period := s.period + 1, periodAt := s1.now }

/-- R469: a changed FRAME_HZ takes effect at a boundary that both rates share; a period that TIME has entered part way begins at none. -/
def State.takeRate (s : State) : State :=
  match s.oldHz with
  | none => s
  | some old =>
    if s.period * s.profile.frameHz % old = 0 then { s with period := s.period * s.profile.frameHz / old, oldHz := none } else s

/-- R471: D(q) exceeds B_max in this period still, or no longer. -/
def State.overcommitStep (s : State) (q : Nat) : State :=
  if !(s.quarter q).overcommit then s
  else if s.demand (fun _ => true) q ≤ s.bMax then s.modQuarter q (fun u => { u with overcommit := false })
  else s.suspend q suspOvercommit

/-- R472, Table 9.4: the suspensions that a period begins with on quarter `q`. -/
def State.periodSuspensions (s : State) (q : Nat) : State :=
  let s1 := if (s.quarter q).halted then s.suspend q suspHalt else s
  let s2 := if s1.rinsing && !(s1.reservedOn q).isEmpty then s1.suspend q suspProfile else s1
  s2.overcommitStep q

/-- PERIOD_START (R429, R448, R449, R469, R471, R472): the claims of the period before end, and each quarter with reserved work
queued raises one. -/
def execPeriodStart (s : State) : Out :=
  .next (
    if !s.running || !s.boot.applied then s else
    let s1 := (if s.periodNow ≠ s.period then s.nextPeriod else s.nextPeriod.takeRate).endClaims
    let s2 := s1.quartersUp.foldl State.periodSuspensions s1
    s2.quartersUp.foldl (fun s q => if (s.reservedOn q).isEmpty then s else s.raiseClaim q) s2)

/-! ### FRAME_DEADLINE -/

/-- The frame of a context whose deadline comes next. -/
def Entry.nextDeadline (e : Entry) : Option Frame :=
  match e.frames.filter (fun f => !f.past) with
  | [] => none
  | f :: fs => some (fs.foldl (fun b x => if x.deadline < b.deadline then x else b) f)

/-- R460: under DROP a deadline claim meets the routine of a missed frame. -/
def State.claimMissed (s : State) (c : Nat) (f : Frame) : State :=
  match s.jobOf c, (s.entry c).headOp with
  | some (q, j), some op =>
    if j.kind == .op && op.frame == some f.period then s.preemptJob q j .claim false
    else s
  | _, _ => s

/-- R457 to R461: the deadline of a frame. -/
def State.deadlinePasses (s : State) (c : Nat) (f : Frame) : State :=
  let s1 := (s.advanceTo f.deadline).modEntry c (fun e =>
    { e with frames := e.frames.map (fun x => if x.period = f.period then { x with past := true } else x) })
  let s2 := s1.missFrame c f
  if s2.profile.missDrop then ((((s2.claimMissed c f).dropFrames c).settle c)).endClaims else s2

/-- FRAME_DEADLINE (R457 to R461): the next deadline of a context's frames passes. -/
def execFrameDeadline (ctx : Nat) (s : State) : Out :=
  if 512 ≤ ctx then .fault (.noSuchUnit "context" ctx) else
  .next (if !s.running then s else
    match (s.entry ctx).nextDeadline with
    | some f => s.deadlinePasses ctx f
    | none => s)

end Sys2Proof.Machine
end

