-- ==== Sys2Proof/Machine/Fabric.lean ====
section
/-! DEFINITION. Machine/Fabric.lean: the rounds of the memory fabric's targets (§11.4), what an access does at the HBM controller
(§11.8, §10.9), and refresh, retraining, scrubbing and the TRNG pool (§11.6, §11.9). -/
namespace Sys2Proof.Machine

/-! ### Target rounds -/

/-- R1033: a write of a segment of which some write lies in a window range that a switch holds: none of them issues. -/
def State.heldWrite (s : State) (t : Txn) : Bool :=
  s.switch.step != .idle && t.isWrite && (match t.owner with | .op _ => true | _ => false) &&
  s.fabric.txns.any (fun x => x.isWrite && x.state == .posted && x.owner == t.owner && s.inSwitchRange x.spa)

/-- R544: an earlier transaction of the same master, target and ID is still to take effect. -/
def State.idBlocked (s : State) (t : Txn) : Bool :=
  (s.fabric.txns.takeWhile (fun x => x.id != t.id)).any (fun x =>
    x.master == t.master && x.target == t.target && x.bus == t.bus && x.state == .posted)

/-- A transaction may be posted into the matrix: it need not wait for another, and is not in a window range that a switch holds. -/
def State.mayPost (s : State) (t : Txn) : Bool :=
  t.state == .posted && !(t.after.any s.inFlight) && !s.inSwitchRange t.spa && !s.heldWrite t && !s.idBlocked t

/-- R543, R546, R794: the request that master `m` has posted: the one that stands at its target, else its first that may be posted; none
at 256 outstanding. -/
def State.postedBy (s : State) (m : Nat) : Option Txn :=
  match s.fabric.txns.find? (fun t => t.master == m && t.state == .posted && t.atPort) with
  | some t => some t
  | none =>
    if 256 ≤ (s.fabric.txns.filter (fun t => t.master == m && t.state != .posted)).length then none else
    s.fabric.txns.find? (fun t => t.master == m && s.mayPost t)

/-- Table 11.3: the targets that a master reaches (R531, R533). -/
def reaches (m target : Nat) : Bool := if target = 4 then m != masterHli else if target = 6 then m == masterUsq else decide (target < 6)

/-- The requests posted at a target, one for each master that reaches it, in master order. -/
def State.postedAt (s : State) (target : Nat) : List Txn :=
  (List.range 10).filterMap (fun m => (s.postedBy m).filter (fun t => t.target == target && reaches m target))

/-- R565: admitted reads of a target that hold an entry reserved to a master, and those that hold a shared entry. -/
def State.reservedUsed (s : State) (target m : Nat) : Nat :=
  (s.fabric.txns.filter (fun t => t.target == target && t.state == .admitted && t.master == m && !t.sharedEntry)).length

/-- Shared admission entries in use at a target. -/
def State.sharedUsed (s : State) (target : Nat) : Nat :=
  (s.fabric.txns.filter (fun t => t.target == target && t.state == .admitted && t.sharedEntry)).length

/-- R549: a request is eligible at its target: an admission entry is free, SLOW has no access in progress, or the links take it. -/
def State.eligibleAt (s : State) (t : Txn) : Bool :=
  if t.target < 4 then decide (s.reservedUsed t.target t.master < 16) || decide (s.sharedUsed t.target < 96)
  else if t.target = 6 then !(s.fabric.txns.any (fun x => x.target == 6 && x.state != .posted))
  else s.outEligible t

/-- The fixed order of R550: EVW, PWK, USQ, SRE, LS0 to LS3, FPI, HLI. -/
def fixedOrder : List Nat := [9, 5, 6, 4, 0, 1, 2, 3, 8, 7]

/-- Master indices in rotation order from a pointer. -/
def masterRotation (ptr : Nat) : List Nat := (List.range 10).map (fun i => (ptr + i) % 10)

/-- R550, R551: the requests that a round grants, in order. -/
def roundWinners (ptr : Nat) (fixed : Bool) (prio : Txn → Nat) (e : List Txn) : List Txn :=
  let inOrder := fun (ms : List Nat) (ts : List Txn) => ms.filterMap (fun m => ts.find? (fun t => t.master == m))
  let forced := e.filter (fun t => decide (16 ≤ t.lost))
  if !forced.isEmpty then inOrder (masterRotation ptr) forced
  else if fixed then (inOrder fixedOrder e).take 1
  else
    let top := e.foldl (fun n t => max n (prio t)) 0
    (inOrder (masterRotation ptr) (e.filter (fun t => prio t == top))).take 1

/-- R537, R538, R1034: the request cycles of a transaction. -/
def Txn.requestCycles (t : Txn) : Nat := if t.isWrite then ((chunksOf t.spa t.len).length + 7) / 8 else 1

/-! ### The HBM controller -/

/-- Device offset of the first byte of a burst. -/
def Txn.burstOff (t : Txn) : Nat := spaOff t.burstSpa

/-- A value added to a rising list for each member of another. -/
def insertAll (xs into : List Nat) : List Nat := xs.foldl (fun l x => insertRising x l) into

/-- The 8-byte words, or the 64-byte chunks, of a burst that errors of one kind name, as device offsets, each once. -/
def Txn.foundAt (t : Txn) (size : Nat) (off : HbmFound → Option Nat) (fs : List HbmFound) : List Nat :=
  insertAll ((fs.filterMap off).filterMap (fun o => if o < t.burstLen then some ((t.burstOff + o) / size * size) else none)) []

/-- The chunks that the path delivers uncorrectable. -/
def Txn.pathChunks (t : Txn) (fs : List HbmFound) : List Nat := t.foundAt 64 (fun f => match f with | .path o => some o | _ => none) fs

/-- The words that prove uncorrectable. -/
def Txn.badFound (t : Txn) (fs : List HbmFound) : List Nat := t.foundAt 8 (fun f => match f with | .bad o => some o | _ => none) fs

/-- The words that prove to have a single-bit error. -/
def Txn.ceFound (t : Txn) (fs : List HbmFound) : List Nat := t.foundAt 8 (fun f => match f with | .corrected o => some o | _ => none) fs

/-- The chunks of a list of words, each once. -/
def chunksOfWords (ws : List Nat) : List Nat := insertAll (ws.map (fun w => w / 64 * 64)) []

/-- R573: HBM_CE, HBM_UE and the ECC severity reports of a stack (Table 16.10). -/
def State.countEcc (s : State) (stack ce ue : Nat) (fs : List HbmFound) : State :=
  ((s.bump 3 (24 + 8 * stack) 4 ce).bump 3 (28 + 8 * stack) 2 ue).bump 3 (30 + 8 * stack) 2 (fs.filter (· == .severity)).length

/-- R575: words that an access writes whole: an error that an earlier admitted read finds in one of them is past. -/
def State.cureWords (s : State) (ws : List Nat) : State :=
  s.modFabric (fun f => { f with txns := f.txns.map (fun x => if x.state == .admitted then { x with cured := x.cured ++ ws } else x) })

/-- R565, R566: a burst whose data are to return is admitted: it takes a reserved entry of its master, or else a shared one, and holds it
until they have; its pieces join their queues (R564). -/
def State.takeEntry (s : State) (t : Txn) (got : List Byte) (bad : List Nat) (st : Nat) : State :=
  let shared := decide (16 ≤ s.reservedUsed t.target t.master)
  let done : Txn := { t with state := .admitted, atPort := false, sharedEntry := shared, got := got, bad := bad, st := st }
  let s1 := s.modFabric (fun f => { f with txns := f.txns.map (fun x => if x.id = t.id then done else x) })
  { s1 with hbm := { s1.hbm with pieces := s1.hbm.pieces ++ dramPieces t.id t.burstOff t.burstLen } }

/-- R565, R566, R572: a read is admitted; its data are those at this instant. -/
def State.admitRead (s : State) (t : Txn) : State :=
  let a := spaOff t.spa
  s.takeEntry t (s.hbm.read a t.len) ((s.hbm.badChunks a t.len).map (fun c => t.spa - a + c)) 0

/-- R565 to R567, R574, R575, R868: a write is admitted, takes effect and is acknowledged; the entry that it takes is free again when
the acknowledgement leaves, within the grant (DESIGN CHOICE, log entry 60).  Its pieces wait for their pseudo channels. -/
def State.admitWrite (s : State) (t : Txn) (fs : List HbmFound) : State :=
  let a := spaOff t.spa
  let part := partWords a t.len t.enables
  let ce := (insertAll (t.ceFound fs) s.hbm.ceWords).filter part.contains
  let ue := (insertAll (t.badFound fs) s.hbm.badWords).filter part.contains
  let path := t.pathChunks fs
  let s1 := (s.countEcc t.target ce.length (chunksOfWords ue).length fs).bump 2 36 2 path.length
  let s2 : State := { s1 with hbm := s1.hbm.write a t.data t.enables path (t.badFound fs) }
  let s3 : State := { s2 with hbm := { s2.hbm with pieces := s2.hbm.pieces ++ dramPieces t.id t.burstOff t.burstLen } }
  (s3.cureWords (wholeWords a t.len t.enables)).endTxn t [] [] 0

/-- R526 to R529, R565: an atomic is admitted and takes effect; its answer returns as a read's data do. -/
def State.admitAtomic (s : State) (t : Txn) (fs : List HbmFound) : State :=
  let a := spaOff t.spa
  let h : Hbm := if (t.badFound fs).contains a then { s.hbm with badWords := insertRising a s.hbm.badWords } else s.hbm
  let ce := (insertAll (t.ceFound fs) h.ceWords).filter (· == a)
  let r := h.atomic a t.kind
  let s1 := ({ s with hbm := r.1 }).countEcc t.target ce.length (if r.2.isNone then 1 else 0) fs
  match r.2 with
  | some old => (s1.cureWords [a]).takeEntry t (natLe 8 old) [] 0
  | none => s1.takeEntry t [] [] Code.stPoison

/-- A grant at an HBM target. -/
def State.grantHbm (s : State) (t : Txn) (fs : List HbmFound) : State :=
  let s1 := s.chargeFixed (6 * (chunksOf t.spa t.len).length)
  match t.kind with
  | .read => s1.admitRead t
  | .write => s1.admitWrite t fs
  | _ => s1.admitAtomic t fs

/-- §11.6: an access of SLOW: 4 bytes in each 8 cclk, whole. -/
def State.grantSlow (s : State) (t : Txn) : State := (s.advanceTo (s.now + s.cclkNs (8 * ((t.len + 3) / 4)))).endTxn t [] [] 0

/-- A grant at a target. -/
def State.grant (s : State) (t0 : Txn) (fs : List HbmFound) : State :=
  let t := s.stamped t0
  let s1 := s.chargeCore (8 * t.requestCycles)
  if t.target < 4 then s1.grantHbm t fs else if t.target = 6 then s1.grantSlow t else s1.grantOut t

/-- The errors met with the request of a master. -/
def errsOf (errs : List (Nat × HbmFound)) (m : Nat) : List HbmFound := (errs.filter (fun e => e.1 == m)).map (·.2)

/-- R546, R550, R552: one round of a target.  A request that the round does not grant stays posted there. -/
def State.targetRound (s : State) (target : Nat) (errs : List (Nat × HbmFound)) : State :=
  let posted := s.postedAt target
  let prio := fun (t : Txn) => s.profile.fabPrio.getD (7 * t.master + target) 0
  let ptr := s.fabric.ptrs.getD target 0
  let won := roundWinners ptr s.profile.fabArbFixed prio (posted.filter s.eligibleAt)
  let lost := fun (t : Txn) => posted.any (fun p => p.id == t.id) && !(won.any (fun w => w.id == t.id))
  let s1 := s.modFabric (fun f => { f with
    txns := f.txns.map (fun t => if lost t then { t with lost := t.lost + 1, atPort := true } else t)
    ptrs := match won.getLast? with | some w => setAt f.ptrs target ((w.master + 1) % 10) | none => f.ptrs })
  won.foldl (fun s w => s.grant w (errsOf errs w.master)) s1

/-! ### The pseudo channels (R564, R568, R577, R579) -/

/-- The longest that a refresh keeps a bank (R577), and a retraining its channel (R579), ns. -/
def refreshNs : Nat := 410
def retrainNs : Nat := 1200

/-- When the refresh of a bank ends. -/
def State.bankFree (s : State) (pc bank : Nat) : Nat := ((assocGet s.hbm.refreshed (bankKey pc bank)).map (· + refreshNs)).getD 0

/-- When the retraining of a pseudo channel's channel ends. -/
def State.channelFree (s : State) (pc : Nat) : Nat :=
  match s.hbm.retraining with
  | some (k, t) => if k = channelOf pc then t else 0
  | none => 0

/-- R577: a piece's bank is under refresh. -/
def State.bankBusy (s : State) (p : DramPiece) : Bool := decide (s.now < s.bankFree p.pc p.bank)

/-- A piece is served once its bank and its channel are free, past the older pieces of a list. -/
def State.servePiece (s : State) (p : DramPiece) (older : List DramPiece) : State :=
  let s1 := s.advanceTo (max (s.bankFree p.pc p.bank) (s.channelFree p.pc))
  { s1 with hbm := (s1.hbm.pass older).servePiece p }

/-- R568: a pseudo channel serves pieces, `n` at most, until none of transaction `txn` waits there. -/
def State.serveChannel : Nat → State → Nat → Nat → State
  | 0, s, _, _ => s
  | n + 1, s, txn, pc =>
    match s.hbm.nextPiece s.bankBusy txn pc with
    | none => s
    | some (p, older) => State.serveChannel n (s.servePiece p older) txn pc

/-- The pieces of a transaction are served. -/
def State.serveTxn (s : State) (txn : Nat) : State :=
  let pcs := insertAll ((s.hbm.pieces.filter (fun p => p.txn == txn)).map (·.pc)) []
  pcs.foldl (fun s pc => s.serveChannel s.hbm.pieces.length txn pc) s

/-- The oldest piece of a pseudo channel is served when it is one of a write and nothing keeps it. -/
def State.drainWrite (s : State) (p : DramPiece) : State :=
  if s.hbm.pieces.find? (fun x => x.pc == p.pc) == some p && !s.inFlight p.txn && !s.bankBusy p && decide (s.channelFree p.pc ≤ s.now) then
    { s with hbm := s.hbm.servePiece p }
  else s

/-- The writes at the heads of a stack's queues are done. -/
def State.drainWrites (s : State) (stack : Nat) : State := (s.hbm.pieces.filter (fun p => p.pc / 32 == stack)).foldl State.drainWrite s

/-- FABRIC_TARGET_ROUND (R475, R481, R482, R514 to R516, R531 to R552, R561 to R567, R574, R575, R868): a target holds a round.  An
error is met with the request of the master that it names, if the round grants it. -/
def execFabricTargetRound (target : Nat) (path : List (Nat × Nat)) (words : List (Nat × HbmFound)) (s : State) : Out :=
  if 7 ≤ target then .fault (.noSuchUnit "target" target) else
  .next (if !s.running then s else
    (if target < 4 then s.drainWrites target else s).targetRound target (path.map (fun x => (x.1, .path x.2)) ++ words))

/-! ### Data that return -/

/-- R544: the burst whose data return before another's of the same master, target and ID. -/
def State.firstOfId (s : State) (t : Txn) : Txn :=
  (s.fabric.txns.find? (fun x => x.state == .admitted && x.master == t.master && x.target == t.target && x.bus == t.bus)).getD t

/-- Every piece of an admitted burst has been served. -/
def State.dataReady (s : State) (t : Txn) : Bool := t.state == .admitted && !(s.hbm.pieces.any (fun p => p.txn == t.id))

/-- R540, R544: the burst that the response channel of master `m` serves next: of the first target, in rotation, with data ready. -/
def State.nextResponse (s : State) (m : Nat) : Option Txn :=
  let ready := s.fabric.txns.filter (fun t => t.master == m && s.dataReady t && (s.firstOfId t).id == t.id)
  ((List.range 7).map (fun i => (s.fabric.respPtrs.getD m 0 + i) % 7)).findSome? (fun k => ready.find? (fun t => t.target == k))

/-- R568 to R573, R868: the data of a burst reach its master.  A chunk with an uncorrectable word, or that the path delivers
uncorrectable, is marked; what has been read and was written whole since stands as the write left it. -/
def State.returnBurst (s : State) (t : Txn) (fs : List HbmFound) : State :=
  let base := t.burstSpa - t.burstOff
  let path := t.pathChunks fs
  match t.kind with
  | .read =>
    let here := fun (w : Nat) => decide (t.burstOff ≤ w) && decide (w < t.burstOff + t.burstLen)
    let bad := (t.badFound fs).filter (fun w => !t.cured.contains w)
    let ce := (t.ceFound fs).filter (fun w => !t.cured.contains w)
    let s1 : State := { s with hbm := { s.hbm with badWords := insertAll bad s.hbm.badWords, ceWords := insertAll ce s.hbm.ceWords } }
    let ue := insertAll (chunksOfWords (t.badFound fs)) (t.bad.map (fun c => c - base))
    let n := (insertAll (t.ceFound fs) (s.hbm.ceWords.filter here)).length
    (((s1.countEcc t.target n ue.length fs).bump 2 36 2 path.length).endTxn t t.got ((insertAll path ue).map (fun c => base + c)) 0)
  | _ => (s.bump 2 36 2 path.length).endTxn t t.got [] (if path.isEmpty then t.st else Code.stPoison)

/-- HBM_READ_RETURN (R538 to R540, R544, R565, R568 to R573, R577, R868): the pieces of an admitted burst are served, and the response
channel of its master returns one burst: the next in rotation of those whose data are ready, which is this one unless another target
or an earlier burst of its ID comes first. -/
def execHbmReadReturn (txn : Nat) (errs : List HbmFound) (s : State) : Out :=
  .next (match s.fabric.txns.find? (fun t => t.id == txn && t.state == .admitted) with
    | none => s
    | some t =>
      let s1 := s.serveTxn (s.firstOfId t).id
      match s1.nextResponse t.master with
      | some r => s1.returnBurst r errs
      | none => s1)

/-! ### Refresh, retraining and scrubbing -/

/-- A stack of the local HBM changed. -/
def State.modStack (s : State) (k : Nat) (f : Stack → Stack) : State := { s with hbm := { s.hbm with hbmStacks := modAt s.hbm.hbmStacks k f } }

/-- A stack that serves accesses. -/
def State.stackUp (s : State) (k : Nat) : Bool := let x := s.hbm.hbmStacks.getD k {}; x.trained && !x.selfRefresh

/-- HBM_BANK_REFRESH (R576, R577, R580): the per-bank refresh of a bank, due one interval after the last: at the end of a retraining of
its channel that is under way then.  The bank accepts no access for 410 ns (log entry 61), and its row is closed. -/
def execHbmBankRefresh (dram : DramBank) (s : State) : Out :=
  if 128 ≤ dram.pseudo ∨ 3 ≤ dram.sid ∨ 16 ≤ dram.bank then .fault (.noSuchUnit "bank" dram.bank) else
  .next (if !s.running || !s.stackUp (dram.pseudo / 32) then s else
    let key := bankKey dram.pseudo (16 * dram.sid + dram.bank)
    let interval := (s.hbm.hbmStacks.getD (dram.pseudo / 32) {}).refInterval
    let due := max s.now (((assocGet s.hbm.refreshed key).map (· + interval)).getD 0)
    let s1 := s.advanceTo (max due (s.channelFree dram.pseudo))
    { s1 with hbm := { s1.hbm with refreshed := assocPut s1.hbm.refreshed key s1.now, openRows := assocDel s1.hbm.openRows key } })

/-- R578: the instant at which channel `k` is due in the retrain interval in progress. -/
def State.retrainDue (s : State) (k : Nat) : Nat := s.hbm.retrainFrom + k * s.hbm.retrainMs * 1000000 / 64

/-- HBM_RETRAIN (R578 to R581, R585): the next channel is retrained at its instant, after the one before it: it holds its two pseudo
channels for 1.2 µs (log entry 61).  The lanes that it repairs, a free value (log entry 79), are counted, which adds no time to it.  A new
interval takes effect at an interval's boundary. -/
def execHbmRetrain (s : State) : Out :=
  .next (if !s.running || !s.stackUp (s.hbm.retrainAt / 16) then s else
    let k := s.hbm.retrainAt
    let s1 := s.advanceTo (max (s.retrainDue k) ((s.hbm.retraining.map (·.2)).getD 0))
    let repaired := Config.retrainRepairs s.free.repairs
    let s2 : State := { s1 with free := { s1.free with repairs := s1.free.repairs + 1 }, hbm := { s1.hbm with
      retraining := some (k, s1.now + retrainNs), retrainAt := (k + 1) % 64
      retrainFrom := if k = 63 then s.hbm.retrainFrom + s.hbm.retrainMs * 1000000 else s.hbm.retrainFrom
      retrainMs := if k = 63 then s.profile.rtMs else s.hbm.retrainMs } }
    (s2.modStack (k / 16) (fun x => { x with lanesRepaired := x.lanesRepaired + repaired })).bump 3 58 2 repaired)

/-- Units of 256 bytes in a stack. -/
def stackUnits : Nat := 100663296

/-- The device offset of unit `n` of a stack, its units taken in ascending order of offset (DESIGN CHOICE, log entry 11): an aligned
32 KiB holds two 4 KiB blocks of each stack (R564). -/
def unitOf (stack n : Nat) : Nat :=
  let base := n / 32 * 32768
  let blocks := (List.range 8).filter (fun b => stackOf (base + 4096 * b) == stack)
  base + 4096 * blocks.getD (n % 32 / 16) 0 + 256 * (n % 16)

/-- The pieces that a pseudo channel has queued are served (R582): each waits for its bank and its channel. -/
def State.clearChannel (s : State) (pc : Nat) : State := (s.hbm.pieces.filter (fun p => p.pc == pc)).foldl (fun s p => s.servePiece p []) s

/-- R582: the instant at which the scrub pass in progress, spread evenly over its period, comes to its next unit. -/
def Stack.scrubDue (k : Stack) : Nat := k.scrubFrom + k.scrubAt * (k.scrubHours * 3600000000000) / stackUnits

/-- R582, R585: the unit at `scrubAt` has been read at `now`: at the first of a pass the scrub period in force is `hours`, and the last is followed
by the next pass. -/
def Stack.scrubbed (k : Stack) (now hours : Nat) : Stack :=
  let k1 := if k.scrubAt = 0 then { k with scrubFrom := now, scrubHours := hours } else k
  { k1 with
    scrubAt := (k.scrubAt + 1) % stackUnits
    scrubFrom := if k.scrubAt + 1 = stackUnits then k1.scrubFrom + k1.scrubHours * 3600000000000 else k1.scrubFrom }

/-- HBM_SCRUB_READ (R571, R573, R582 to R585): the stack's next unit is read when the pass comes to it (log entry 61), at least 10 µs after the last
scrub read of its pseudo channel and with no piece queued there.  A single-bit error is written back corrected and counted; each word that it finds uncorrectable
draws HBM_SCRUB_UE, and stays as it is. -/
def execHbmScrubRead (stack : Nat) (corrected bad : List Nat) (s : State) : Out :=
  if 4 ≤ stack then .fault (.noSuchUnit "stack" stack) else
  .next (
    if !s.ready then s else
    let k := s.hbm.hbmStacks.getD stack {}
    let base := unitOf stack k.scrubAt
    let pc := pseudoChannel base
    let at_ := ((assocGet s.hbm.scrubbed pc).map (· + 10000)).getD 0
    let s0 := (s.clearChannel pc).advanceTo (max (max at_ k.scrubDue) (s.channelFree pc))
    let here := fun (o : Nat) => decide (base ≤ o) && decide (o < base + 256)
    let word := fun (os : List Nat) => (os.filter here).map (fun o => o / 8 * 8)
    let words := insertAll (word bad) (s0.hbm.badWords.filter here)
    let fixed := (insertAll (word corrected) (s0.hbm.ceWords.filter here)).filter (fun w => !words.contains w)
    let s1 : State := { s0 with hbm := { s0.hbm with
      badWords := insertAll words s0.hbm.badWords
      ceWords := s0.hbm.ceWords.filter (fun w => !fixed.contains w)
      scrubbed := assocPut s0.hbm.scrubbed pc s0.now } }
    let s2 := ((s1.modStack stack (fun k => k.scrubbed s0.now s.profile.scrubH)).chargeFixed 24).bump
      3 (24 + 8 * stack) 4 fixed.length
    words.foldl (fun (s : State) w => (s.bump 3 56 2 1).deviceEvent Code.hbmScrubUe none
      ([BitVec.ofNat 8 stack, BitVec.ofNat 8 (pseudoChannel w)] ++ natLe 6 0 ++ natLe 6 w)) s2)

/-- TRNG_REFILL (R557): 10 µs after the last refill the pool gains 256 bits, up to 1,024. -/
def execTrngRefill (s : State) : Out :=
  .next (if !s.running then s else
    let s1 := s.advanceTo (s.hbm.trngAt + 10000)
    { s1 with hbm := { s1.hbm with pool := min 1024 (s1.hbm.pool + 256), trngAt := s1.now } })

end Sys2Proof.Machine
end

