-- ==== Sys2Proof/Machine/Coding.lean ====
section
/-! DEFINITION. Machine/Coding.lean: the lane coding of a fabric port: scrambler, RS(544,514) codewords, markers, lanes and PAM4
levels (§13.2), and the training frames of a lane (Table 13.5).  The spec takes the field and the generator of the code from IEEE
802.3 clause 119 without writing them out: x^10 + x^3 + 1, and the roots alpha^0 to alpha^29 (log entry 9). -/
namespace Sys2Proof.Machine

/-! ### The Reed-Solomon code (R682) -/

/-- Product by alpha in GF(2^10). -/
def gf10Double (a : Nat) : Nat := if a < 512 then 2 * a else Nat.xor (2 * a - 1024) 9

/-- Product in GF(2^10), over the bits of `b` from the top. -/
def gf10MulFrom : Nat → Nat → Nat → Nat → Nat
  | 0, acc, _, _ => acc
  | n + 1, acc, a, b => gf10MulFrom n (if bitAt b n then Nat.xor (gf10Double acc) a else gf10Double acc) a b

/-- Product in GF(2^10). -/
def gf10Mul (a b : Nat) : Nat := gf10MulFrom 10 0 a b

/-- The generator polynomial, highest coefficient first: the product of (x - alpha^j) for j below `n`. -/
def rsGen : Nat → Nat → List Nat → List Nat
  | 0, _, g => g
  | n + 1, root, g => rsGen n (gf10Double root) (List.zipWith Nat.xor (g ++ [0]) (0 :: g.map (gf10Mul root)))

/-- The 31 coefficients of the generator. -/
def rsGenerator : List Nat := rsGen 30 1 [1]

/-- One message symbol enters the remainder. -/
def rsStep (rem : List Nat) (m : Nat) : List Nat :=
  let f := Nat.xor m (rem.getD 0 0)
  List.zipWith Nat.xor (rem.drop 1 ++ [0]) ((rsGenerator.drop 1).map (gf10Mul f))

/-- R682: a codeword: 514 message symbols and 30 parity symbols. -/
def rsCodeword (msg : List Nat) : List Nat := msg ++ msg.foldl rsStep (List.replicate 30 0)

/-! ### Scrambling and codewords (R681, R685, R686) -/

/-- R681: one bit through the scrambler of 1 + x^39 + x^58: the state after, newest bit lowest, and the bit sent. -/
def scrambleBit (st : Nat) (d : Bool) : Nat × Bool :=
  let b := xor d (xor (bitAt st 38) (bitAt st 57))
  ((2 * st + b2n b) % 2 ^ 58, b)

/-- R681: the bits of a flit, byte 0 and bit 0 first. -/
def flitBits (bs : List Byte) : List Bool := (bs.map (fun b => (List.range 8).map (fun i => bitAt b.toNat i))).flatten

/-- R681: the 514 message symbols of 5,140 bits. -/
def messageSymbols (bits : List Bool) : List Nat :=
  (List.range 514).map (fun m => ((bits.drop (10 * m)).take 10).zipIdx.foldl (fun x p => x + b2n p.1 * 2 ^ p.2) 0)

/-- R684: the PAM4 level of a bit pair. -/
def pam4Level (pair : Nat) : Nat := if pair = 0 then 0 else if pair = 1 then 1 else if pair = 3 then 2 else 3

/-- R684: the five levels of a symbol. -/
def pam4 (sym : Nat) : List Nat := (List.range 5).map (fun i => pam4Level (bitsAt sym (2 * i) 2))

/-- R683: a codeword dealt over the lanes of a set. -/
def dealLanes (set : Nat) (syms : List Nat) : List (Nat × List Nat) :=
  let lanes := maskBits 8 set
  lanes.zipIdx.map (fun l =>
    (l.1, ((syms.zipIdx.filter (fun x => x.2 % lanes.length == l.2)).map (fun x => pam4 x.1)).flatten))

/-- Table 13.3: the message of a marker codeword. -/
def markerMessage (set count : Nat) : List Nat :=
  let w := popcount 8 set
  (List.range 512).map (fun k => 0x2C0 + k % (max w 1)) ++ [count % 1024, 0x200 + set]

/-- R681: `n` zero bits through a scrambler: the state after and the bits sent. -/
def scrambleZeros (st n : Nat) : Nat × List Bool :=
  (List.range n).foldl (fun (a : Nat × List Bool) _ => let x := scrambleBit a.1 false; (x.1, a.2 ++ [x.2])) (st, [])

/-- R712: the symbols of one codeword's time on lane `i` of the hold pattern: the lane's marker symbols in a marker, scrambled zeros between
markers, by a scrambler of the lane's own that starts at 0 (DESIGN CHOICE, log entry 76). -/
def Lane.holdSymbols (l : Lane) (i n : Nat) (marker : Bool) : Lane × List Nat :=
  if marker then (l, List.replicate n (0x2C0 + i)) else
  let r := scrambleZeros l.holdScr (10 * n)
  ({ l with holdScr := r.1 }, (List.range n).map (fun m => ((r.2.drop (10 * m)).take 10).zipIdx.foldl (fun x p => x + b2n p.1 * 2 ^ p.2) 0))

/-- Table 13.1, `txpol`: the levels that the lanes drive, upside down on an inverted transmit pair. -/
def FabricPort.drive (p : FabricPort) (xs : List (Nat × List Nat)) : List (Nat × List Nat) :=
  xs.map (fun x => if bitAt p.txpol x.1 then (x.1, x.2.map (fun v => 3 - v)) else x)

/-- R712: the lanes outside the active set that have not failed send the hold pattern beside a codeword. -/
def FabricPort.sendHold (p : FabricPort) (marker : Bool) : FabricPort :=
  let n := 544 / max 1 (popcount 8 p.txSet)
  let held := fun (i : Nat) (l : Lane) => !bitAt p.txSet i && !l.failedHere && !l.failedThere
  { p with
    sent := p.sent ++ p.drive (p.lanes.zipIdx.filterMap (fun x =>
      if held x.2 x.1 then some (x.2, ((x.1.holdSymbols x.2 n marker).2.map pam4).flatten) else none))
    lanes := p.lanes.zipIdx.map (fun x => if held x.2 x.1 then (x.1.holdSymbols x.2 n marker).1 else x.1) }

/-- R685, R686, R708 to R710, R712: a marker codeword is sent, on the set that takes effect with it; the next data codeword begins with a flit. -/
def FabricPort.sendMarker (p : FabricPort) : FabricPort :=
  let set := p.setNext.getD p.txSet
  ({ p with txSet := set, setNext := none, marker := (p.marker + 1) % 1024, codewords := 0, message := []
            sent := p.drive (dealLanes set (rsCodeword (markerMessage set p.marker))) }).sendHold true

/-- R681 to R685: the bits that fill a codeword are sent; after 4,096 data codewords a marker follows. -/
def FabricPort.sendCodeword (p : FabricPort) : FabricPort :=
  let p1 := ({ p with message := p.message.drop 5140, codewords := p.codewords + 1
                      sent := p.drive (dealLanes p.txSet (rsCodeword (messageSymbols (p.message.take 5140)))) }).sendHold false
  if p1.codewords = 4096 then p1.sendMarker else p1

/-- R681: a flit joins the coded stream of its port. -/
def FabricPort.sendFlit (p : FabricPort) (flit : List Byte) : FabricPort :=
  let r := (flitBits flit).foldl (fun (a : Nat × List Bool) d => let x := scrambleBit a.1 d; (x.1, x.2 :: a.2)) (p.scrambler, [])
  let p1 := { p with scrambler := r.1, message := p.message ++ r.2.reverse }
  if 5140 ≤ p1.message.length then p1.sendCodeword else p1

/-! ### Training (Tables 13.5, 13.6) -/

/-- R691: c(0), in 1/320 of peak swing: the taps' magnitudes sum to peak swing. -/
def Lane.c0 (l : Lane) : Int := 320 - Int.ofNat (l.cm2.natAbs + l.cm1.natAbs + l.cp1.natAbs)

/-- R690: the control word that a lane sends: its requests, its lane number, `rdy` and `go`. -/
def Lane.control (l : Lane) (n : Nat) (go : Bool) : Nat :=
  l.rqm2 + 4 * l.rqm1 + 16 * l.rqp1 + 256 * n + 2048 * b2n l.rdyOut + 4096 * b2n go

/-- R690: the status word that a lane sends. -/
def Lane.status (l : Lane) : Nat := l.stm2 + 4 * l.stm1 + 16 * l.stp1 + 64 * b2n l.stpre

/-- Table 13.5: PRBS13 of 1 + x + x^2 + x^12 + x^13 from a 13-bit seed, the oldest bit first. -/
def prbs13 : Nat → Nat → List Bool
  | 0, _ => []
  | n + 1, st =>
    let b := xor (xor (bitAt st 0) (bitAt st 1)) (xor (bitAt st 11) (bitAt st 12))
    bitAt st 12 :: prbs13 n ((2 * st + b2n b) % 8192)

/-- The bits of a 16-bit word, bit 0 first. -/
def wordBits (w : Nat) : List Bool := (List.range 16).map (bitAt w)

/-- R689: the 4,096 bits of a training frame. -/
def trainingFrame (lane control status : Nat) : List Bool :=
  List.replicate 16 true ++ List.replicate 16 false ++ wordBits control ++ (wordBits control).map not ++ wordBits status ++
  (wordBits status).map not ++ prbs13 4000 (0x1E00 + lane)

/-- R691: one request met at a tap whose status is `st`: 1 increments and 2 decrements by one step of 1/64 of peak swing, within
the class's limits, once for each request; on hold the status returns to "not updated". -/
def tapStep (limit : Nat) (v : Int) (st rq : Nat) : Int × Nat :=
  if rq = 1 then (if st ≠ 0 then (v, st) else if v + 5 ≤ Int.ofNat limit then (v + 5, 1) else (v, 3))
  else if rq = 2 then (if st ≠ 0 then (v, st) else if -Int.ofNat limit ≤ v - 5 then (v - 5, 1) else (v, 2))
  else (v, 0)

end Sys2Proof.Machine
end

