-- ==== Sys2Proof/Machine/FabricPort.lean ====
section
/-! DEFINITION. Machine/FabricPort.lean: training, port states, width changes and lane repair of the fabric ports (§13.3, §13.5), and the
loss of a SerDes reference (R920). -/
namespace Sys2Proof.Machine

/-- A port number exists. -/
def guardPort (n : Nat) (k : Out) : Out := if 16 ≤ n then .fault (.noSuchUnit "port" n) else k

/-- R693: the groups of lanes in order. -/
def laneGroups : List Nat := [0xFF, 0x0F, 0xF0, 0x03, 0x0C, 0x30, 0xC0]

/-- R693: the active set: the first group that holds only usable lanes and at least `minw` of them. -/
def pickSet (minw usable : Nat) : Option Nat :=
  laneGroups.find? (fun g => (maskBits 8 g).all (bitAt usable) && decide (minw ≤ popcount 8 g))

/-- R692: the usable lanes of a port in training. -/
def FabricPort.usable (p : FabricPort) : Nat :=
  bitsMask 8 ((List.range 8).filter (fun i => (p.lanes.getD i {}).rdyOut && (p.lanes.getD i {}).rdyIn))

/-- R708, R709: the lanes that neither side's receiver has failed and that are trained. -/
def FabricPort.healthy (p : FabricPort) : Nat :=
  bitsMask 8 ((List.range 8).filter (fun i =>
    let l := p.lanes.getD i {}
    l.rdyOut && l.rdyIn && !l.failedHere && !l.failedThere))

/-- `minw` of a port, in lanes. -/
def State.minw (s : State) (n : Nat) : Nat := (s.profile.portCfg.getD n {}).minw

/-- One lane of a port changed. -/
def FabricPort.modLane (p : FabricPort) (i : Nat) (f : Lane → Lane) : FabricPort := { p with lanes := modAt p.lanes i f }

/-- The port is in training: TRAIN, or the first part of RETRAIN. -/
def FabricPort.inTrain (p : FabricPort) : Bool := p.st == .train || (p.st == .retrain && p.phase == .train)

/-- The port is in ALIGN, or in that part of RETRAIN. -/
def FabricPort.inAlign (p : FabricPort) : Bool := p.st == .align || (p.st == .retrain && p.phase == .align)

/-- A port moves on within an attempt: the state itself, or the part of RETRAIN. -/
def State.advancePort (s : State) (n : Nat) (st : PortState) : State :=
  if (s.fport n).st = .retrain then s.modFport n (fun p => { p with phase := st, since := s.now })
  else (s.modFport n (fun p => { p with phase := st })).setPortState n st

/-- R592: the packets with a slot in the unacknowledged flits of a link, each once, in the order in which they began. -/
def Lykel.unackedPackets (lk : Lykel) : List OutPacket :=
  if lk.unacked.isEmpty then lk.begun
  else (lk.unacked.zipIdx.map (fun x => if x.1.cont && x.2 != 0 then x.1.parts.drop 1 else x.1.parts)).flatten

/-- R737: the packets of the unacknowledged flits of a port that enters FAILED are discarded under Table 13.12. -/
def State.discardUnacked (s : State) (n : Nat) : State :=
  let s1 := s.modFport n (fun p => { p with lk := { p.lk with unacked := [], resend := [], txRest := [], begun := [] } })
  ((s.fport n).lk.unackedPackets.filter (fun o => vcOfType (pktType o.bytes) != some 3)).foldl (fun s o =>
    s.discardPacket o.bytes ((o.held.map (·.arrived)).getD 0) 1) s1

/-- R677, R696, R737: a port goes DOWN, in electrical idle.  The handshake that may follow is an initial one, so what it holds for replay is lost
(DESIGN CHOICE, log entry 33). -/
def State.portDown (s : State) (n : Nat) : State :=
  ((s.modFport n (fun p => { p with wasActive := false, sent := [] })).setPortState n .down).discardUnacked n

/-- R698: an attempt fails: a new one starts at once, and after three the port enters FAILED. -/
def State.portAttemptFailed (s : State) (n : Nat) : State :=
  let a := (s.fport n).attempts + 1
  let s1 := s.modFport n (fun p => { p with attempts := a })
  -- The handshake after FAILED is neither that of RESYNC nor that of RETRAIN: it is an initial one (Table 12.11).
  if 3 ≤ a then ((s1.modFport n (fun p => { p with wasActive := false })).setPortState n .failed).discardUnacked n
  else if (s.fport n).st = .retrain then (s1.bump (7 + n) 42 2 1).beginTrain n .retrain
  else s1.beginTrain n .train

/-- R691, R692: one lane meets the frame that it received. -/
def Lane.meet (l : Lane) (cls : Nat) (f : TrainFrame) (go : Bool) : Lane :=
  if !f.received then { l with goFrames := 0 } else
  let rq := fun lo => bitsAt f.control lo 2
  let pre := rq 6
  let m2 := tapStep (Config.tapLimit cls 0) l.cm2 l.stm2 (rq 0)
  let m1 := tapStep (Config.tapLimit cls 1) l.cm1 l.stm1 (rq 2)
  let p1 := tapStep (Config.tapLimit cls 2) l.cp1 l.stp1 (rq 4)
  let taps : Lane :=
    if pre = 0 then { l with cm2 := m2.1, stm2 := m2.2, cm1 := m1.1, stm1 := m1.2, cp1 := p1.1, stp1 := p1.2, stpre := false }
    else { l with cm2 := 0, cm1 := if pre = 1 then 0 else -32, cp1 := if pre = 3 then -48 else 0, stpre := true }
  let ask := fun lo => if bitsAt f.status lo 2 = 0 then bitsAt f.want lo 2 else 0
  { taps with
    inverted := f.inverted, rdyOut := f.ready, rdyIn := bitAt f.control 11
    rqm2 := ask 0, rqm1 := ask 2, rqp1 := ask 4
    goFrames := if go && bitAt f.control 12 then min 80 (l.goFrames + 1) else 0 }

/-- FP_TRAINING_FRAME (R679, R689 to R693). -/
def execFpTrainingFrame (port : Nat) (frames : List TrainFrame) (s : State) : Out :=
  guardPort port (.next (
    let p := s.fport port
    if !p.inTrain then s else
    let cls := (s.profile.portCfg.getD port {}).cls
    let set := pickSet (s.minw port) p.usable
    let s1 := s.modFport port (fun p => { p with
      sent := p.drive ((List.range 8).map (fun i =>
        let l := p.lanes.getD i {}
        let go := match set with | some g => bitAt g i | none => false
        (i, (trainingFrame i (l.control i go) l.status).map (fun b => if b then 3 else 0))))
      lanes := p.lanes.zipIdx.map (fun (x : Lane × Nat) =>
        let go := match set with | some g => bitAt g x.2 | none => false
        match frames.drop x.2 with
        | f :: _ => x.1.meet cls f go
        | [] => { x.1 with goFrames := 0 }) })
    s1))

/-- FP_CODED_STREAM_START (R694, R696): after 16 frames with `go` 1 and 64 more on every lane of the set, the coded stream starts with
a marker codeword. -/
def execFpCodedStreamStart (port : Nat) (s : State) : Out :=
  guardPort port (.next (
    let p := s.fport port
    match pickSet (s.minw port) p.usable with
    | some set =>
      if p.inTrain && (maskBits 8 set).all (fun i => decide (80 ≤ (p.lanes.getD i {}).goFrames)) then
        (s.modFport port (fun p => ({ p with txSet := set, setNext := none, locks := 0 }).sendMarker)).advancePort port .align
      else s
    | none => s))

/-- FP_MARKER_LOCK (R695, R710, R711): a marker codeword is decoded on the lanes; two in a row that agree lock the receiver. -/
def execFpMarkerLock (port : Nat) (marks : List Marker) (s : State) : Out :=
  guardPort port (.next (
    let p := s.fport port
    if !(p.inAlign || p.st == .resync) then s else
    match marks with
    | [] => s
    | m :: _ =>
      let agree := marks.all (fun x => x.ok && x.set == m.set && x.count == m.count) &&
        laneGroups.contains m.set && (maskBits 8 m.set).all (fun l => marks.any (fun x => x.lane == l))
      let locks := if !agree then 0 else if 1 ≤ p.locks ∧ p.lockSet = m.set ∧ m.count = (p.lockCount + 1) % 1024 then p.locks + 1 else 1
      let s1 := s.modFport port (fun p => { p with locks := min 2 locks, lockSet := m.set, lockCount := m.count })
      if locks < 2 then s1 else
      let s2 := s1.modFport port (fun p => { p with
        rxSet := m.set
        setNext := if p.setNext.getD p.txSet ≠ m.set ∧ popcount 8 m.set < popcount 8 (p.setNext.getD p.txSet) then some m.set else p.setNext })
      if p.inAlign then s2.advancePort port .handshake else s2))

/-- The port takes part in the fabric: its class is not OFF and STAT 0xA has been entered (Table 13.7). -/
def State.portEnabled (s : State) (n : Nat) : Bool :=
  (s.profile.portCfg.getD n {}).cls != 0 && (s.boot.phase == 0xA || s.boot.phase == 0x11 || s.boot.phase == 0xB)

/-- FP_STATE_CHANGE (R696, R700): a port enters the state that its conditions give. -/
def execFpStateChange (port : Nat) (s : State) : Out :=
  guardPort port (.next (
    let p := s.fport port
    if (s.profile.portCfg.getD port {}).cls = 0 then
      (if p.st = .down then s else s.portDown port)
    else if p.st = .down then (if s.portEnabled port then s.beginTrain port .train else s)
    else if p.inAlign && decide (2 ≤ p.locks) then s.advancePort port .handshake
    else s))

/-- Table 13.4: the marker period of a port, ns. -/
def State.markerPeriod (s : State) (n : Nat) : Nat :=
  let g := if (s.profile.portCfg.getD n {}).cls = 3 then 56 else 112
  4097 * 5440 / (g * max 2 (popcount 8 (s.fport n).txSet))

/-- Table 13.7: the limit of the state in which a port is, ns. -/
def State.portLimit (s : State) (n : Nat) : Option Nat :=
  let p := s.fport n
  let part := if p.st = .retrain then p.phase else p.st
  match part with
  | .train => some (if (s.profile.portCfg.getD n {}).cls = 2 then 250000000 else 100000000)
  | .align => some (4 * s.markerPeriod n)
  | .handshake => some 10000000
  | .resync => some 1000000
  | _ => none

/-- FP_STATE_TIMEOUT (R696 to R698, R737). -/
def execFpStateTimeout (port : Nat) (s : State) : Out :=
  guardPort port (.next (
    match s.portLimit port with
    | none => s
    | some t =>
      let s1 := s.advanceTo ((s.fport port).since + t)
      if (s.fport port).st = .resync then s1.enterRetrain (port + 1) else s1.portAttemptFailed port))

/-- FP_FAILED_RETRY (R696, R856): one second after its entry to FAILED the port trains again. -/
def execFpFailedRetry (port : Nat) (s : State) : Out :=
  guardPort port (.next (
    if (s.fport port).st != .failed then s else
    let s1 := s.advanceTo ((s.fport port).since + 1000000000)
    (s1.modFport port (fun p => { p with attempts := 0 })).beginTrain port .train))

/-- R700, R708 to R711: a marker has put a new set into use: the port resynchronises once its receiver has locked again. -/
def State.widthSwitched (s : State) (n : Nat) : State :=
  ((s.modFport n (fun p => { p with locks := 0, gotInit := false, lk := { p.lk with offered := [] } })).setPortState n .resync).fpEvent n

/-- FP_UE_RATE_RETRAIN (R688, R697): the codewords of one millisecond. -/
def execFpUeRateRetrain (port count : Nat) (corrected : List Nat) (s : State) : Out :=
  guardPort port (.next (
    let s1 := (s.bump (7 + port) 32 2 count).bump (7 + port) 28 4 (corrected.foldl (· + ·) 0)
    let s2 := (List.range 8).foldl (fun s i => s.bump (7 + port) (44 + 2 * i) 2 (corrected.getD i 0)) s1
    if 64 < count then s2.enterRetrain (port + 1) else s2))

/-- R708, R713: a new active set is asked for with WIDTH, and is used from the next marker; RETRAIN where no group qualifies (R697). -/
def State.askWidth (s : State) (n : Nat) : State :=
  let p := s.fport n
  match pickSet (s.minw n) p.healthy with
  | none => s.enterRetrain (n + 1)
  | some set =>
    let fmask := bitsMask 8 ((List.range 8).filter (fun i => (p.lanes.getD i {}).failedHere))
    s.modFport n (fun p => { p with setNext := some set, widthOut := some (false, fmask, set, p.marker) })

/-- FP_LANE_FAIL (R706, R708). -/
def execFpLaneFail (port lane : Nat) (s : State) : Out :=
  if 8 ≤ lane then .fault (.noSuchUnit "lane" lane) else
  guardPort port (.next (
    let p := s.fport port
    let s1 := s.modFport port (fun p => p.modLane lane (fun l => { l with failedHere := true }))
    if p.st.isUp && bitAt p.rxSet lane then s1.askWidth port else s1))

/-- R689 to R692, R713: a lane that is trained alone starts from its preset and meets the frames that arrive on it. -/
def FabricPort.trainAlone (p : FabricPort) (cls preset lane : Nat) (frames : List TrainFrame) : Lane :=
  let old := p.lanes.getD lane {}
  let fresh := (freshLanes preset p.lanes).getD lane {}
  frames.foldl (fun l f => l.meet cls f false) { fresh with failedHere := old.failedHere, failedThere := old.failedThere, holdScr := old.holdScr }

/-- FP_LANE_RETRAIN (R713): after 10 ms of steady lock a failed lane has been trained alone, by the frames that arrived on it within the limit of
TRAIN; where it is usable the port widens, and else it stays out of the set. -/
def execFpLaneRetrain (port lane : Nat) (frames : List TrainFrame) (s : State) : Out :=
  if 8 ≤ lane then .fault (.noSuchUnit "lane" lane) else
  guardPort port (.next (
    let p := s.fport port
    let l := p.lanes.getD lane {}
    let cfg := s.profile.portCfg.getD port {}
    let t := p.trainAlone cfg.cls cfg.preset lane frames
    if !p.st.isUp || !l.failedHere || !(t.rdyOut && t.rdyIn) then s
    else (s.modFport port (fun p => p.modLane lane (fun _ => { t with failedHere := false }))).askWidth port))

/-- FP_LANE_BER_REMOVE (R714): at most once per lane in any 10 s. -/
def execFpLaneBerRemove (port lane : Nat) (s : State) : Out :=
  if 8 ≤ lane then .fault (.noSuchUnit "lane" lane) else
  guardPort port (.next (
    let p := s.fport port
    let l := p.lanes.getD lane {}
    let soon := match l.removedAt with | some t => decide (s.now < t + 10000000000) | none => false
    if !p.st.isUp || l.failedHere || soon || !bitAt p.rxSet lane then s
    else (s.modFport port (fun p => p.modLane lane (fun l => { l with failedHere := true, removedAt := some s.now }))).askWidth port))

/-- WIDTH_SWITCH (R708 to R711): at the named marker the set switches, and the port resynchronises.  The data codewords that were left before it
are not written out (DESIGN CHOICE, log entry 33). -/
def execWidthSwitch (port : Nat) (s : State) : Out :=
  guardPort port (.next (
    let p := s.fport port
    if !p.st.isUp || p.setNext.isNone then s else
    (s.modFport port FabricPort.sendMarker).widthSwitched port))

/-- The taps and marks that a width message names: fmask, smask and wmark (Table 13.10). -/
def widthFields (flit : List Byte) : Nat × Nat × Nat := (byteAt flit 12, byteAt flit 13, natAt flit 14 2 % 1024)

/-- R709, Table 13.17: a WIDTH or a WIDTH_ACK arrives. -/
def State.receiveWidth (s : State) (n : Nat) (ack : Bool) (flit : List Byte) : State :=
  let (fmask, smask, _) := widthFields flit
  let s0 := if natAt flit 14 2 / 1024 ≠ 0 ∨ (bytesAt flit 16 236).any (· != 0) then s.violate (n + 1) Code.pvFlitRsvd 0 0 else s
  if !laneGroups.contains smask then (s0.violate (n + 1) Code.pvWidth 0 0).enterRetrain (n + 1)
  else
    let s1 := s0.modFport n (fun p => { p with lanes := p.lanes.zipIdx.map (fun (x : Lane × Nat) =>
      { x.1 with failedThere := bitAt fmask x.2 }) })
    let p := s1.fport n
    if ack then
      (if popcount 8 smask < popcount 8 (p.setNext.getD p.txSet) then s1.modFport n (fun p => { p with setNext := some smask }) else s1)
    else match pickSet (s1.minw n) p.healthy with
    | none => s1.enterRetrain (n + 1)
    | some set =>
      let mine := bitsMask 8 ((List.range 8).filter (fun i => (p.lanes.getD i {}).failedHere))
      s1.modFport n (fun p => { p with setNext := some set, widthOut := some (true, mine, set, p.marker) })

/-- SDREFCLK_LOSS (R920): the ports of a quad leave ACTIVE. -/
def execSdrefclkLoss (quad : Nat) (s : State) : Out :=
  if 4 ≤ quad then .fault (.noSuchUnit "quad" quad) else
  .next ((List.range 4).foldl (fun s i => s.enterRetrain (4 * quad + i + 1)) s)

end Sys2Proof.Machine
end

