-- ==== Sys2Proof/Machine/HostLink.lean ====
section
/-! DEFINITION. Machine/HostLink.lean: sending and receiving flits, the handshake and the states of the host link, and the control
packets (§12.2, §12.3, §12.8 to §12.10). -/
namespace Sys2Proof.Machine

/-! ### Link states -/

/-- R615, R661: the handshake is over, and the packets at the head of a channel wait for credit from now. -/
def Lykel.settled (lk : Lykel) (now : Nat) : Lykel :=
  { lk with offered := [], txq := lk.txq.map (fun q => q.map (fun (o : OutPacket) => { o with since := now })) }

/-- R658, R661, R696: a handshake completes and the link enters ACTIVE. -/
def State.becomeActive (s : State) (link : Nat) : State :=
  if link = 0 then
    (s.modHost (fun h => { h with
      st := .active, since := s.now, wasActive := true, attempts := 0, gotInit := false, lk := h.lk.settled s.now })).hostLinkSettled
  else
    (s.modFport (link - 1) (fun p => { p with
      wasActive := true, attempts := 0, gotInit := false, lk := p.lk.settled s.now })).setPortState (link - 1) .active

/-- R659, R670: an attempt of the host link fails; after three the link is FAILED, and every request to the host ends. -/
def State.hostAttemptFailed (s : State) : State :=
  let h := s.links.host
  let a := h.attempts + 1
  if 3 ≤ a then
    let s1 := (s.modHost (fun h => { h with st := .failed, attempts := a, since := s.now, mset := 0 })).hlinkEvent
    ((s1.links.out.filter (fun r => r.link == 0)).foldl (fun s r => s.finishOut r [] [] Code.stHostRefused) s1).hostLinkSettled
  else
    let again : LinkState := if h.wasActive then .retrain else .train
    let s1 := s.modHost (fun h => { h with
      st := again, attempts := a, since := s.now, active := 0, gotInit := false, shaking := false, firstActive := none, lk := { h.lk with offered := [] } })
    if h.wasActive then (s1.bump 4 38 2 1).hlinkEvent else s1

/-- HANDSHAKE_ENTRY (R658, R661): 1 ms after the first module became active, or when all eight are; in RETRAIN once the modules
have been retrained, and the state stays RETRAIN (Table 12.10). -/
def execHandshakeEntry (s : State) : Out :=
  .next (
    let h := s.links.host
    if h.st == .retrain && h.active != 0 then s.modHost (fun h => { h with shaking := true, gotInit := false })
    else if h.st != .train || h.active == 0 then s else
    let s1 := if h.active = 0xFF then s else s.advanceTo (h.firstActive.getD s.now + 1000000)
    s1.modHost (fun h => { h with st := .handshake, since := s1.now, gotInit := false }))

/-- MODULE_ACTIVE_CHANGE (R658, R665, R666, R669, R858). -/
def execModuleActiveChange (mask : Nat) (s : State) : Out :=
  .next (
    let h := s.links.host
    let m := mask % 256
    if h.st = .down ∨ h.st = .failed then s else
    let s1 := s.modHost (fun h => { h with
      active := m, firstActive := if m = 0 then none else some (h.firstActive.getD s.now) })
    if h.st = .active ∧ m ≠ h.mset then
      (s1.modHost (fun h => { h with st := .resync, since := s.now, gotInit := false, lk := { h.lk with offered := [] } })).refreshStat
    else s1)

/-- LINK_STATE_TIMEOUT (R658, R659, R669, R670). -/
def execLinkStateTimeout (s : State) : Out :=
  .next (
    let h := s.links.host
    match h.st with
    | .train => if h.active = 0 then (s.advanceTo (h.since + 20000000)).hostAttemptFailed else s
    | .handshake => (s.advanceTo (h.since + 10000000)).hostAttemptFailed
    | .resync => (s.advanceTo (h.since + 20000)).enterRetrain 0
    | .retrain => (s.advanceTo (h.since + 2000000)).hostAttemptFailed
    | _ => s)

/-- MODULE_RETRAIN (R905): a module that has left the set is retrained alone, at most once per second. -/
def execModuleRetrain (module : Nat) (s : State) : Out :=
  if 8 ≤ module then .fault (.noSuchUnit "module" module) else
  .next (
    let h := s.links.host
    let soon := match assocGet h.modRetrain module with | some t => decide (s.now < t + 1000000000) | none => false
    if h.st != .active || bitAt h.active module || soon then s
    else s.modHost (fun h => { h with modRetrain := assocPut h.modRetrain module s.now }))

/-! ### Sending -/

/-- R941: the energy of a flit on a link. -/
def State.chargeFlit (s : State) (link : Nat) : State := s.chargeFixed (if link = 0 then 12 else 25)

/-- R588, R662: the module on which a flit of the host link travels. -/
def HostLink.moduleFor (h : HostLink) (fseq : Option Nat) : Nat :=
  let ms := maskBits 8 h.mset
  match fseq with
  | some n => ms.getD (n % max 1 ms.length) 0
  | none => ms.headD 0

/-- R681, R685, R711: a flit joins the coded stream of a port; a marker that follows may put a new set into use. -/
def State.portFlit (s : State) (n : Nat) (flit : List Byte) : State :=
  let s1 := s.modFport n (fun p => ({ p with lk := { p.lk with wire := [(n, flit)] } }).sendFlit flit)
  if (s1.fport n).st.isUp && (s1.fport n).txSet != (s.fport n).txSet then s1.widthSwitched n else s1

/-- A flit is placed on a link: on a module of the host link, or in the coded stream of a port. -/
def State.placeFlit (s : State) (link : Nat) (fseq : Option Nat) (flit : List Byte) : State :=
  let s1 := (s.chargeFlit link).modLykel link (fun lk => { lk with lastSent := s.now })
  if link = 0 then s1.modHost (fun h => { h with lk := { h.lk with wire := [(h.moduleFor fseq, flit)] } })
  else s1.portFlit (link - 1) flit

/-- R661: INIT or INIT_DONE during a handshake: on every active module of the host link, or on the port.  The first is an INIT, also where the
partner's has come before it. -/
def State.sendHandshake (s0 : State) (link : Nat) : State :=
  let got := if link = 0 then s0.links.host.gotInit else (s0.fport (link - 1)).gotInit
  let first := (s0.lykel link).offered.isEmpty
  let s := if first then s0.modLykel link (fun lk => lk.offer link (s0.resyncing link)) else s0
  let lk := s.lykel link
  let flit := if got && !first then flitBytes lk 0 1 0 2 [] else flitBytes lk 0 1 0 1 (s.initPayload link)
  let s1 := (s.chargeFlit link).modLykel link (fun lk => { lk with lastSent := s.now })
  if link = 0 then s1.modHost (fun h => { h with lk := { h.lk with wire := (maskBits 8 h.active).map (fun m => (m, flit)) } })
  else s1.portFlit (link - 1) flit

/-- The packets whose last slot leaves in the flit that takes a link from one Lykel state to another. -/
def Lykel.leaving (before after : Lykel) : List OutPacket :=
  if after.nextSeq = before.nextSeq then [] else
  match after.unacked.getLast? with
  | some f => f.parts.take (f.parts.length - after.begun.length)
  | none => []

/-- R633, R736: the requests of this device among packets that have left on a link await their completions from now. -/
def State.noteSent (s : State) (link : Nat) (ps : List OutPacket) : State :=
  { s with links := { s.links with out := s.links.out.map (fun r =>
      if (r.link == 0) == (link == 0) && ps.any (fun o => isRequest o.bytes && pktTag o.bytes == r.tag && (link == 0 || reqSdev o.bytes == s.devId))
      then { r with link := link, sentAt := s.now, onWire := true } else r) } }

/-- R588, R594, R601, R608 to R610, R702: the next flit of an ACTIVE link: a RETRY_REQ, a WIDTH, a resent flit, a new one, or IDLE. -/
def State.sendNext (s : State) (link : Nat) : State :=
  let p := s.fport (link - 1)
  let width := if link = 0 then none else p.widthOut.map (fun w =>
    ([BitVec.ofNat 8 w.2.1, BitVec.ofNat 8 w.2.2.1] ++ natLe 2 w.2.2.2, if w.1 then 5 else 4))
  let cvn := if link = 0 then 0 else p.cvn
  let r := (s.lykel link).nextFlit s.now cvn width
  let used := !(s.lykel link).retryDue && width.isSome
  let s1 := ((s.modLykel link (fun _ => r.1)).noteSent link ((s.lykel link).leaving r.1)).placeFlit link r.2.1 r.2.2
  if link = 0 then s1
  else s1.modFport (link - 1) (fun p => { p with cvn := 1 - p.cvn, widthOut := if used then none else p.widthOut })

/-- FLIT_TRANSMIT (R588, R594, R601, R608 to R610, R661, R662, R681 to R686, R702). -/
def execFlitTransmit (link : Nat) (s : State) : Out :=
  guardLink link (.next (
    if s.linkActive link then s.sendNext link
    else if s.inHandshake link then s.sendHandshake link
    else s))

/-- IDLE_FLIT_SEND (R603): a flit is due 20 ns after the last. -/
def execIdleFlitSend (link : Nat) (s : State) : Out :=
  guardLink link (.next (
    if s.linkActive link then (s.advanceTo ((s.lykel link).lastSent + 20)).sendNext link else s))

/-- RETRY_REQ_REPEAT (R597). -/
def execRetryReqRepeat (link : Nat) (s : State) : Out :=
  guardLink link (.next (
    let lk := s.lykel link
    if !s.linkActive link || !lk.dropping then s else
    let s1 := s.advanceTo lk.retryAt
    (s1.modLykel link (fun lk => { lk with retryDue := true, retryAt := s1.now + 2000 })).sendNext link))

/-- REPLAY_TIMEOUT (R605): the oldest flit has waited 4 µs and `ack` has not advanced. -/
def execReplayTimeout (link : Nat) (s : State) : Out :=
  guardLink link (.next (
    match s.linkActive link, (s.lykel link).unacked with
    | true, f :: _ =>
      let s1 := (s.advanceTo (max f.sentAt (s.lykel link).ackAt + 4000)).bumpReplay link
      s1.modLykel link (fun lk => (lk.replay f.fseq).getD lk)
    | _, _ => s))

/-- REPLAY_LIMIT (R606): eight replays from one `fseq` with no `ack` past it. -/
def execReplayLimit (link : Nat) (s : State) : Out :=
  guardLink link (.next (
    if decide (8 ≤ (s.lykel link).replays) && s.linkActive link then
      ((if link = 0 then s.bump 4 34 2 1 else s).modLykel link (fun lk => { lk with replays := 0 })).enterRetrain link
    else s))

/-- CREDIT_STALL_TIMEOUT (R615): a packet has been held for 50 ms for lack of credit. -/
def execCreditStallTimeout (link : Nat) (s : State) : Out :=
  guardLink link (.next (
    let lk := s.lykel link
    match (List.range 8).filterMap (fun ch => match lk.txq.getD ch [] with
      | p :: _ => if (lk.credits.getD ch {}).avail < p.bytes.length / 16 then some p else none
      | [] => none) with
    | p :: _ =>
      if s.linkActive link then
        let s1 := (s.advanceTo (p.since + 50000000)).violatePkt link Code.pvCreditStall p.bytes
        (s1.modLykel link (fun lk => { lk with txq := lk.txq.map (fun q => q.map (fun (o : OutPacket) => { o with since := s1.now })) })).enterRetrain link
      else s
    | [] => s))

/-! ### Receiving -/

/-- R661, R664, R666 to R668, R671, R738: an INIT arrives. -/
def State.receiveInit (s : State) (link : Nat) (flit : List Byte) : State :=
  let rsync := bitAt (byteAt flit 13) 1
  -- A partner that resynchronises brings this side into RESYNC too (R666).
  let s0 :=
    if s.linkActive link && rsync then
      (if link = 0 then s.modHost (fun h => { h with st := .resync, since := s.now, gotInit := false, lk := { h.lk with offered := [] } })
        else (s.modFport (link - 1) (fun p => { p with gotInit := false, locks := 2, lk := { p.lk with offered := [] } })).setPortState (link - 1) .resync)
    else s
  if !s0.inHandshake link then s0 else
  let role := byteAt flit 13 % 2
  let mine := if link = 0 then s0.links.host.active else 1
  let meet := maskBits 8 (Nat.land mine (byteAt flit 14))
  let rsvd := byteAt flit 13 / 4 ≠ 0 ∨ byteAt flit 15 / 128 ≠ 0 ∨ natAt flit 24 2 / 4096 ≠ 0 ∨ byteAt flit 28 / 8 ≠ 0 ∨
    (bytesAt flit 29 1 ≠ [0]) ∨ (link = 0 ∧ (bytesAt flit 30 8).any (· != 0)) ∨ (bytesAt flit 38 214).any (· != 0)
  let s1 := if rsvd then s0.violate link Code.pvFlitRsvd 0 0 else s0
  if byteAt flit 12 ≠ 1 ∨ role ≠ (if link = 0 then 1 else 0) ∨ meet.isEmpty then s1.violate link Code.pvInit 0 0
  else
    let cfg := s1.profile.portCfg.getD (link - 1) {}
    let peer := byteAt flit 15 % 128
    if link ≠ 0 ∧ (peer = s1.devId ∨ (cfg.pchk = true ∧ peer ≠ cfg.peer)) then
      (s1.violate link Code.pvMiswire 0 0).portAttemptFailed (link - 1)
    else
      let got := if link = 0 then s1.links.host.gotInit else (s1.fport (link - 1)).gotInit
      if got then s1 else
      let fresh := s1.initial link || !rsync
      let resync := s1.resyncing link
      let s1a := s1.modLykel link (fun lk => lk.afterInit link flit fresh resync)
      -- R666: what is resent counts as a replay (Table 16.10, worked case 2 of §13.13).
      let s2 := if (s1a.lykel link).resend.isEmpty then s1a else s1a.bumpReplay link
      if link = 0 then
        let set := bitsMask 8 meet
        let changed := decide (set ≠ s2.links.host.mset)
        let s3 := s2.modHost (fun h => { h with gotInit := true, mset := set })
        if changed then s3.hlinkEvent else s3
      else s2.modFport (link - 1) (fun p => { p with gotInit := true })

/-- The INIT of the partner has been taken in this handshake. -/
def State.gotInit (s : State) (link : Nat) : Bool := if link = 0 then s.links.host.gotInit else (s.fport (link - 1)).gotInit

/-- R595 to R597, R611: a DATA flit by its number.  One with a packet for which no slots are left is not accepted, and is replayed after the
retraining (Table 12.13, PV_OVERRUN). -/
def State.receiveData (s : State) (link : Nat) (flit : List Byte) : State :=
  let fseq := natAt flit 0 2 / 16
  let lk := s.lykel link
  let ahead := seqDist lk.expSeq fseq
  if ahead = 0 then
    let slots := (List.range 15).map (fun i => bytesAt flit (12 + 16 * i) 16)
    match lk.overrun link slots with
    | some h => (s.violatePkt link Code.pvOverrun h).enterRetrain link
    | none => slots.foldl (fun s x => s.rxSlot link x)
        (s.modLykel link (fun lk => { lk with expSeq := (lk.expSeq + 1) % 4096, ackv := true, dropping := false, retryDue := false }))
  else if 2048 ≤ ahead then s.bumpDup link
  else s.modLykel link (fun lk => lk.askRetry s.now)

/-- R598, R671: a RETRY_REQ arrives. -/
def State.receiveRetry (s : State) (link : Nat) (flit : List Byte) : State :=
  let rseq := natAt flit 12 2 % 4096
  match (s.lykel link).replay rseq with
  | some lk => (s.bumpReplay link).modLykel link (fun _ => lk)
  | none => (s.violate link Code.pvAckRange 0 0).enterRetrain link

/-- R671: reserved bits of a flit's header or of a CTL payload. -/
def flitReserved (link : Nat) (flit : List Byte) : Bool :=
  let ftype := byteAt flit 0 % 4
  let ctype := byteAt flit 10 % 16
  bitAt (byteAt flit 0) 3 || (link == 0 && bitAt (byteAt flit 0) 2) || decide (natAt flit 2 2 / 8192 ≠ 0) ||
  decide (natAt flit 10 2 / 16 ≠ 0) || (ftype == 0 && ctype != 0) || (ftype == 1 && decide (natAt flit 0 2 / 16 ≠ 0)) ||
  (ftype == 1 && (ctype == 0 || ctype == 2) && (bytesAt flit 12 240).any (· != 0)) ||
  (ftype == 1 && ctype == 3 && (decide (natAt flit 12 2 / 4096 ≠ 0) || (bytesAt flit 14 238).any (· != 0)))

/-- R600, R609, R610, R671: the acknowledgement and the credits of a good flit of an ACTIVE link; none where the link retrains. -/
def State.takeHeader (s : State) (link : Nat) (flit : List Byte) : Sum State State :=
  let w := natAt flit 2 2
  let cvn := if link = 0 then 0 else bitsAt (byteAt flit 0) 2 1
  let lk := s.lykel link
  match (if bitAt w 12 then lk.acknowledge s.now (w % 4096) else some lk) with
  | none => .inl ((s.violate link Code.pvAckRange 0 0).enterRetrain link)
  | some lk1 =>
    let cr := natAt flit 4 6
    match (List.range 4).foldl (fun (a : Option Lykel) v => a.bind (fun k => k.takeFreed (4 * cvn + v) (bitsAt cr (12 * v) 12))) (some lk1) with
    | none => .inl ((s.violate link Code.pvCreditExcess 0 0).enterRetrain link)
    | some lk2 => .inr (s.modLykel link (fun _ => lk2))

/-- R595 to R600, R671: a flit arrives on a link. -/
def State.receiveFlit (s : State) (link : Nat) (flit0 : List Byte) : State :=
  if !(s.linkActive link || s.inHandshake link) then s else
  let flit := bytesAt flit0 0 256
  let s := s.chargeFlit link
  let ftype := byteAt flit 0 % 4
  let ctype := byteAt flit 10 % 16
  if flit0.length ≠ 256 ∨ natAt flit 252 4 ≠ Crypto.crc32 (flit.take 252) then
    let s1 := s.bumpCrc link
    if s.linkActive link then s1.modLykel link (fun lk => lk.askRetry s.now) else s1
  else if 2 ≤ ftype ∨ (ftype = 1 ∧ (if link = 0 then 4 else 6) ≤ ctype) then
    let s1 := s.violate link Code.pvFtype 0 0
    if s1.linkActive link then s1.modLykel link (fun lk => lk.askRetry s.now) else s1
  else
    let s1 := if flitReserved link flit then s.violate link Code.pvFlitRsvd 0 0 else s
    -- A DATA flit, as well as INIT_DONE, ends the partner's side of the handshake (R661).
    let ends := ftype = 0 ∨ ctype = 2
    let s2 := if !s1.linkActive link && s1.gotInit link && decide ends then s1.becomeActive link else s1
    if s2.linkActive link then
      match s2.takeHeader link flit with
      | .inl s3 => s3
      | .inr s3 =>
        if ftype = 0 then s3.receiveData link flit
        else if ctype = 1 then s3.receiveInit link flit
        else if ctype = 3 then s3.receiveRetry link flit
        else if ctype = 4 then s3.receiveWidth (link - 1) false flit
        else if ctype = 5 then s3.receiveWidth (link - 1) true flit
        else s3
    else if ftype = 1 ∧ ctype = 1 then s2.receiveInit link flit
    else s2

/-- FLIT_RECEIVE (R588, R595 to R597, R600, R611, R617, R671, R687). -/
def execFlitReceive (link : Nat) (flit : List Byte) (s : State) : Out := guardLink link (.next (s.receiveFlit link flit))

/-- A flit of one control type arrives. -/
def State.receiveCtl (s : State) (link ctype : Nat) (flit : List Byte) : State :=
  if byteAt flit 0 % 4 = 1 ∧ byteAt flit 10 % 16 = ctype then s.receiveFlit link flit else s

/-- RETRY_REQ_RECEIVE (R598, R599). -/
def execRetryReqReceive (link : Nat) (flit : List Byte) (s : State) : Out := guardLink link (.next (s.receiveCtl link 3 flit))

/-- INIT_RECEIVE (R598, R661, R666 to R668, R671, R703, R711, R738, R849). -/
def execInitReceive (link : Nat) (flit : List Byte) (s : State) : Out := guardLink link (.next (s.receiveCtl link 1 flit))

/-- INIT_DONE_RECEIVE (R658, R661, R664, R696, R848, R849). -/
def execInitDoneReceive (link : Nat) (flit : List Byte) (s : State) : Out := guardLink link (.next (s.receiveCtl link 2 flit))

/-- WIDTH (R693, R709, R738). -/
def execWidth (port : Nat) (flit : List Byte) (s : State) : Out :=
  guardPort port (.next ((s.receiveCtl (port + 1) 4 flit).receiveCtl (port + 1) 5 flit))

/-- LINK_VIOLATION_REPORT (R673): one event for each code of the millisecond. -/
def execLinkViolationReport (s : State) : Out :=
  .next (
    if s.links.violations.isEmpty then s else
    let s1 := s.advanceTo (s.links.vioSince + 1000000)
    let s2 := s1.links.violations.foldl (fun s v => s.deviceEvent Code.linkViolation none
      ([BitVec.ofNat 8 v.link, 0] ++ natLe 2 v.code ++ natLe 2 (min v.count 65535) ++ [BitVec.ofNat 8 v.ptype, 0] ++ natLe 2 v.tag)) s1
    { s2 with links := { s2.links with violations := [] } })

/-! ### Control packets (§12.8) -/

/-- R13, R399, R612, R642, R671: a control packet is taken: `ok` tells whether its own fields are lawful, and `f` is what it does. -/
def State.takeControl (s : State) (link t : Nat) (p : List Byte) (ok : Bool) (f : State → State) : State :=
  if pktType p ≠ t || !s.running || !s.inTurn link p then s
  else
    let s1 := s.takePacket link p
    if link ≠ 0 then s1.discard link Code.pvCtrlPeer p
    else if p.length ≠ 16 * (1 + pktNsl p) ∨ pktNsl p ≠ nslExpected p then s1.discard link Code.pvLen p
    else if byteAt p 1 / 64 ≠ 0 ∨ byteAt p 3 / 16 ≠ 0 ∨ ok = false then s1.discard link Code.pvPktRsvd p
    else if t = 0x34 then f (s.unqueue link p)     -- its slot is freed with its CACK
    else f s1

/-- SEAL (R397, R399, R645 to R647, R743, R853). -/
def execSealPacket (link : Nat) (pkt : List Byte) (s : State) : Out :=
  guardLink link (.next (s.takeControl link 0x30 pkt ((bytesAt pkt 4 12).all (· == 0)) (fun s =>
    if s.sealUsed || s.straps.sealLocal || s.straps.testmode || !s.boot.trngOk then s.discard link Code.pvSeal pkt
    else ({ s with sealKey := some (BitVec.ofNat 256 (beNat (bytesAt pkt 16 32))), sealUsed := true }).cack 0x30 (pktTag pkt) s.timebase)))

/-- Table 12.13: a ring lies wholly in backed device memory or in one MEM window. -/
def State.ringOk (s : State) (spa len : Nat) : Bool :=
  if bitAt spa 51 then
    let a := bitsAt spa 12 39
    let b := bitsAt (spa + len - 1) 12 39
    let first := (List.range 16).find? (fun i =>
      let w := s.profile.windows.getD i {}
      w.en && decide (w.first ≤ b) && decide (a ≤ w.last))
    match first with
    | some i =>
      let w := s.profile.windows.getD i {}
      w.wcls == 0 && decide (w.first ≤ a) && decide (b ≤ w.last)
    | none => false
  else decide (spaOff spa + len ≤ Config.backedEnd)

/-- RING (R648, R649, R860). -/
def execRingPacket (link : Nat) (pkt : List Byte) (s : State) : Out :=
  let spa := reqSpa pkt
  let rsz := bitsAt (natAt pkt 4 8) 52 4
  let ok := decide (natAt pkt 4 8 / 2 ^ 56 = 0) && decide (rsz ≤ 10) && (bytesAt pkt 12 4).all (· == 0)
  guardLink link (.next (s.takeControl link 0x31 pkt ok (fun s =>
    if spa % 4096 ≠ 0 || !s.ringOk spa (64 * 2 ^ (rsz + 6)) then s.discard link Code.pvRing pkt
    else
      (({ s with ring := { s.ring with valid := true, spa := spa, rsz := rsz } }).cack 0x31 (pktTag pkt) s.timebase).writeReport)))

/-- PROFILE (R650, R779, R851). -/
def execProfilePacket (link : Nat) (pkt : List Byte) (s : State) : Out :=
  let ok := decide (byteAt pkt 4 < 8) && (bytesAt pkt 5 11).all (· == 0)
  guardLink link (.next (s.takeControl link 0x32 pkt ok (fun s =>
    if !s.straps.pselLink then s.discard link Code.pvPsel pkt
    else ({ s with switch := { s.switch with queued := some (byteAt pkt 4) } }).cack 0x32 (pktTag pkt) s.timebase)))

/-- R653, Table 9.4: the timebase has moved during the period in progress and during the one that it lies in now (log entry 25). -/
def State.suspendTime (s : State) : State :=
  let s1 := (List.range 4).foldl (fun s q => s.suspend q suspTime) s
  let now := s1.timebase * s1.frameHz / 1000000000
  if now = s1.period then s1 else
  (List.range 4).foldl (fun s q => s.suspendIn (now * (600 / s1.frameHz)) now q suspTime) s1

/-- TIME (R470, R472, R652, R653). -/
def execTimePacket (link : Nat) (pkt : List Byte) (s : State) : Out :=
  let mode := byteAt pkt 4
  let tval := natAt pkt 8 8
  let ok := decide (mode < 2) && (bytesAt pkt 5 3).all (· == 0)
  guardLink link (.next (s.takeControl link 0x33 pkt ok (fun s =>
    let old := s.timebase
    let delta := if mode = 0 then (tval + 2 ^ 64 - old) % 2 ^ 64 else tval
    let s1 := ({ s with tbOffset := (s.tbOffset + delta) % 2 ^ 64 }).cack 0x33 (pktTag pkt) old
    if delta = 0 then s1 else s1.suspendTime)))

/-- R654, R657: the quarters in service that a mask names halt. -/
def State.haltQuarters (s : State) (qmask : Nat) : State :=
  ((List.range 4).filter (fun q => bitAt qmask q && s.inService q && !(s.quarter q).halted)).foldl (fun s q =>
    ((s.modQuarter q (fun u => { u with halted := true })).suspend q suspHalt).preemptWhere q .halt false (fun _ => true)) s

/-- R656, R657: the quarters in service that a mask names run again. -/
def State.resumeQuarters (s : State) (qmask : Nat) : State :=
  ((List.range 4).filter (fun q => bitAt qmask q && s.inService q)).foldl (fun s q => s.modQuarter q (fun u => { u with halted := false })) s

/-- The fields of HALT and RESUME are lawful: `qmask` 0 is reserved. -/
def qmaskOk (pkt : List Byte) : Bool := decide (byteAt pkt 4 < 16) && decide (byteAt pkt 4 ≠ 0) && (bytesAt pkt 5 11).all (· == 0)

/-- HALT (R654, R655, R657): its CACK waits for the tracks of the named quarters that are in service. -/
def execHaltPacket (link : Nat) (pkt : List Byte) (s : State) : Out :=
  let slots := b2n (s.queued link pkt)
  guardLink link (.next (s.takeControl link 0x34 pkt (qmaskOk pkt) (fun s =>
    let s1 := s.haltQuarters (byteAt pkt 4)
    { s1 with links := { s1.links with haltAcks := s1.links.haltAcks ++
      [(pktTag pkt, bitsMask 4 ((maskBits 4 (byteAt pkt 4)).filter s.inService), s.timebase, slots)] } })))

/-- HALT_CACK (R612, R643, R655): every track of the named quarters of the first HALT that waits is free. -/
def execHaltCack (s : State) : Out :=
  .next (match s.links.haltAcks.find? (fun h => (maskBits 4 h.2.1).all s.tracksFree) with
    | none => s
    | some h =>
      (({ s with links := { s.links with haltAcks := s.links.haltAcks.erase h } }).freeSlots 0 3 h.2.2.2).cack 0x34 h.1 h.2.2.1)

/-- RESUME (R656, R657). -/
def execResumePacket (link : Nat) (pkt : List Byte) (s : State) : Out :=
  guardLink link (.next (s.takeControl link 0x35 pkt (qmaskOk pkt) (fun s =>
    (s.resumeQuarters (byteAt pkt 4)).cack 0x35 (pktTag pkt) s.timebase)))

/-- JTAG_HALT_INSTRUMENT (R654, R656): JTAG reaches the same instruments. -/
def execJtagHaltInstrument (qmask : Nat) (set : Bool) (s : State) : Out :=
  .next (if set then s.haltQuarters qmask else s.resumeQuarters qmask)

end Sys2Proof.Machine
end

