-- ==== Sys2Proof/Machine/Power.lean ====
section
/-! DEFINITION. Machine/Power.lean: the energy account and its step decisions, the IMON backstop, the thermal ceiling, the
temperature sensors and the lower VID code (chapter 17).  Temperatures are in 1/16 °C. -/
namespace Sys2Proof.Machine

/-! ### Temperatures -/

/-- 104 °C: what a group reads when every sensor of it has failed (R960). -/
def failedGroup : Int := 104 * 16

/-- The highest of a list of readings, with 104 °C for none (R960). -/
def highest (xs : List Int) : Int :=
  match xs with
  | [] => failedGroup
  | x :: xs => xs.foldl max x

/-- The working readings of the sensors `lo .. lo+n-1`. -/
def Thermal.working (t : Thermal) (lo n : Nat) : List Int :=
  ((List.range n).filter (fun i => !(t.failed.getD (lo + i) false))).map (fun i => t.readings.getD (lo + i) 0)

/-- R959, R960: the hottest junction: the highest of the three on-die groups. -/
def Thermal.junction (t : Thermal) : Int :=
  max (max (highest (t.working 0 16)) (highest (t.working 16 8))) (highest (t.working 24 4))

/-- The hottest TRF sensor. -/
def Thermal.trf (t : Thermal) : Int := highest (t.working 16 8)

/-- The hottest HBM stack (R960). -/
def State.stackTemp (s : State) : Int :=
  highest (((List.range 4).filter (fun i => !(s.thermal.hbmFailed.getD i false))).map (fun i => (s.hbm.hbmStacks.getD i {}).temp))

/-- R953: T_ctl. -/
def State.tCtl (s : State) : Int := max s.thermal.junction (s.stackTemp + 5 * 16)

/-- The sensor group (0 quarter, 1 TRF, 2 IO) and index of a sensor number. -/
def sensorGroup (i : Nat) : Nat × Nat := if i < 16 then (0, i) else if i < 24 then (1, i - 16) else (2, i - 24)

/-- First sensor and size of a group. -/
def groupRange (g : Nat) : Nat × Nat := if g = 0 then (0, 16) else if g = 1 then (16, 8) else (24, 4)

/-- The sensor that THERM_ALARM and THERM_CRIT name: the first that gives the hottest junction; of a group without a working sensor, its first
(log entry 81). -/
def Thermal.hottestSensor (t : Thermal) : Nat :=
  let h := t.junction
  match (List.range 28).find? (fun i => !(t.failed.getD i false) && t.readings.getD i 0 == h) with
  | some i => i
  | none => (([0, 1, 2] : List Nat).find? (fun g => (t.working (groupRange g).1 (groupRange g).2).isEmpty)).elim 0 (fun g => (groupRange g).1)

/-- Table 16.6: the payload of THERM_ALARM and THERM_CRIT. -/
def State.thermPayload (s : State) : List Byte :=
  let i := s.thermal.hottestSensor
  [BitVec.ofNat 8 (sensorGroup i).1, BitVec.ofNat 8 (sensorGroup i).2] ++
  natLe 2 ((BitVec.ofInt 16 s.thermal.junction).toNat) ++ natLe 2 (s.power.ptherm / 2)

/-- R960: SENSOR_FAIL for a sensor that fails its check now and did not before. -/
def State.sensorFail (s : State) (group index working : Nat) : State :=
  s.deviceEvent Code.sensorFail none [BitVec.ofNat 8 group, BitVec.ofNat 8 index, BitVec.ofNat 8 working]

/-- Table 17.7: THERM_N at 100 °C or above, released at 98 °C or below. -/
def State.alarmStep (s : State) (h : Int) : State :=
  if decide (100 * 16 ≤ h) && !s.thermal.thermN then
    let s1 := { s with thermal := { s.thermal with thermN := true } }
    (s1.bump 1 54 2 1).deviceEvent Code.thermAlarm none s1.thermPayload
  else if s.thermal.thermN && decide (h ≤ 98 * 16) then { s with thermal := { s.thermal with thermN := false } }
  else s

/-- Table 17.7: the thermal hold above 105 °C, ended at 103 °C or below; P_therm goes to its floor. -/
def State.holdStep (s : State) (h : Int) : State :=
  if decide (105 * 16 < h) && !s.thermal.hold then
    let s1 := { s with thermal := { s.thermal with hold := true }, power := { s.power with ptherm := 5 * s.capW } }
    s1.deviceEvent Code.thermCrit none s1.thermPayload
  else if s.thermal.hold && decide (h ≤ 103 * 16) then { s with thermal := { s.thermal with hold := false } }
  else s

/-- R134, R135: what the TRF sensors ask of the next sweep boundary. -/
def State.sweepStep (s : State) : State :=
  let h := s.thermal.trf
  let cool : Option Nat := if h ≤ 90 * 16 then some (s.refresh.coolSince.getD s.now) else none
  { s with refresh := { s.refresh with hottest := h, hot := s.refresh.hot || decide (93 * 16 < h), coolSince := cool } }

/-- SENSOR_SAMPLE (R958 to R960, R963, R964, R821).  A sample that begins a thermal shutdown writes no record. -/
def execSensorSample (readings : List Int) (failed : List Bool) (s : State) : Out :=
  .next (
    if !s.running || decide (s.boot.phase < 2) then s else
    let s1 := s.advanceTo ((s.now / 10000 + 1) * 10000)
    let old := s1.thermal.failed
    let s2 : State := { s1 with thermal := { s1.thermal with
      readings := (List.range 28).map (fun i => readings.getD i 0)
      failed := (List.range 28).map (fun i => failed.getD i false) } }
    let s3 := ((List.range 28).filter (fun i => failed.getD i false && !(old.getD i false))).foldl (fun (s : State) i =>
      let g := sensorGroup i
      s.sensorFail g.1 g.2 (s.thermal.working (groupRange g.1).1 (groupRange g.1).2).length) s2
    let h := s3.thermal.junction
    if 115 * 16 ≤ h then s2.goShutdown else ((s3.sweepStep).alarmStep h).holdStep h)

/-- HBM_TEMPERATURE_READ (R576, R960): once per 1 ms; each stack's reading sets its refresh interval. -/
def execHbmTemperatureRead (readings : List Int) (failed : List Bool) (s : State) : Out :=
  .next (
    if !s.running then s else
    let allFailed := (List.range 4).all (fun i => failed.getD i false)
    let old := s.thermal.hbmFailed
    let s1 := s.advanceTo (s.thermal.stacksAt + 1000000)
    let s2 : State := { s1 with
      thermal := { s1.thermal with hbmFailed := (List.range 4).map (fun i => failed.getD i false), stacksAt := s1.now }
      hbm := { s1.hbm with hbmStacks := s1.hbm.hbmStacks.zipIdx.map (fun (p : Stack × Nat) =>
        let t : Int := if allFailed then failedGroup else if failed.getD p.2 false then p.1.temp else readings.getD p.2 0
        { p.1 with temp := t, refInterval := if 85 * 16 < t then 1950 else 3900 }) } }
    let left := ((List.range 4).filter (fun i => !(failed.getD i false))).length
    ((List.range 4).filter (fun i => failed.getD i false && !(old.getD i false))).foldl (fun (s : State) i => s.sensorFail 3 i left) s2)

/-- THERMAL_CEILING_UPDATE (R953): once per 1 ms from the bring-up apply on, which first sets P_therm (R952). -/
def execThermalCeilingUpdate (s : State) : Out :=
  .next (
    if !s.running || !s.boot.applied then s else
    let s1 := s.advanceTo (s.thermal.ceilingAt + 1000000)
    let cap := s.capW
    let p := s.power.ptherm
    let p1 :=
      if Int.ofNat (16 * s.profile.ttgt) ≤ s.tCtl then max (p - cap) (5 * cap)
      else if s.tCtl ≤ Int.ofNat (16 * s.profile.ttgt) - Int.ofNat (16 * s.profile.thys) then min (p + cap) (20 * cap)
      else p
    { s1 with power := { s1.power with ptherm := p1 }, thermal := { s1.thermal with ceilingAt := s1.now } })

/-- Table 17.4: static power by the hottest junction, W. -/
def staticBand (h : Int) : Nat := if h ≤ 65 * 16 then 40 else if h ≤ 85 * 16 then 45 else if h ≤ 95 * 16 then 52 else 60

/-- STATIC_BAND_EVAL (R944): once per 1 ms. -/
def execStaticBandEval (s : State) : Out :=
  .next (if !s.running then s else
    let s1 := s.advanceTo (s.thermal.bandAt + 1000000)
    { s1 with power := { s1.power with band := staticBand s1.thermal.junction }, thermal := { s1.thermal with bandAt := s1.now } })

/-! ### The energy account -/

/-- The energy of one executed array step (Table 17.4). -/
def State.stepEnergy (s : State) : Nat := s.coreEnergy 9000

/-- P_eff for a number of µs, in account units (R945). -/
def State.income (s : State) (us : Nat) : Nat := s.pEff * 500 * us * energyUnit

/-- ENERGY_INTERVAL (R942, R945, R949): the end of a 1 µs interval of the timebase. -/
def execEnergyInterval (s : State) : Out :=
  .next (
    if !s.boot.applied || !s.running then s else
    let s1 := s.advanceTo (s.now + (1000 - (s.now + s.tbOffset) % 1000))
    let p := s1.power
    let stat := p.band * 10000 * energyUnit
    let b := min (p.account + Int.ofNat (s1.income 1) - Int.ofNat p.eint - Int.ofNat stat) (Int.ofNat (s1.income 100))
    let e := p.eint + p.esteps + stat
    let w := (e :: p.window).take 100
    { s1 with power := { p with
        account := b, eint := 0, esteps := 0, energy := p.energy + e, intervals := p.intervals + 1, window := w
        peak := if w.length = 100 then max p.peak (w.foldl (· + ·) 0) else p.peak } })

/-- True when quarter `q` has an array step ready and undecided: the 16 lines of its next step are at the array edge (R189). -/
def Quarter.stepReady (u : Quarter) : Option Job := if u.stepPermit then none else u.jobs.find? (fun j => j.edge)

/-- R938: a trip holds: while the mean exceeds I_trip, and for 20 µs after it falls. -/
def Power.tripHolds (p : Power) (now : Nat) : Bool :=
  p.trip && match p.fallAt with | some t => decide (now < t + 20000) | none => true

/-- R945: the decision of quarter `q` at a step boundary. -/
def State.decideStep (s : State) (q : Nat) : State :=
  match (s.quarter q).stepReady with
  | none => s
  | some j =>
    let iso := (s.entry j.ctx).isolated
    let e := s.stepEnergy
    let floor := if j.reserved then e else e + s.income 20
    if s.thermal.hold || (s.power.tripHolds s.now && !iso) || decide (s.power.account < Int.ofNat floor) then
      let s1 := { s with power := { s.power with idleSteps := s.power.idleSteps + 1 } }
      if j.reserved then (s1.modJob q j.ctx (fun j => { j with idle := j.idle + 1 })).suspend q suspThrottle else s1
    else
      ({ s with power := { s.power with
          account := s.power.account - Int.ofNat e, esteps := s.power.esteps + e, ptr := (q + 1) % 4 } }).modQuarter q
        (fun u => { u with stepPermit := true })

/-- POWER_STEP_DECISION (R945 to R947): the quarters of a mask, in ascending order from the pointer. -/
def execPowerStepDecision (quarters : Nat) (s : State) : Out :=
  .next ((((List.range 4).map (fun i => (s.power.ptr + i) % 4)).filter (bitAt quarters)).foldl State.decideStep s)

/-! ### The IMON backstop -/

/-- R938: the sum of the last eight samples exceeds eight times I_trip = 1.05 P_eff / V.  With V in 2.5 mV and P_eff in 1/20 W the
comparison is exact: sum × V > 336 × P_eff. -/
def State.imonExceeds (s : State) (samples : List Nat) : Bool :=
  decide (336 * s.pEff < samples.foldl (· + ·) 0 * (200 + s.power.vCode))

/-- I_trip in units of 0.5 A. -/
def State.iTrip (s : State) : Nat := 42 * s.pEff / (200 + s.power.vCode)

/-- IMON_SAMPLE (R937, R938, R940).  Until the bring-up apply there is no ceiling to compare with; until there are eight samples no mean (log
entry 81). -/
def execImonSample (halfAmps : Nat) (s : State) : Out :=
  .next (
    if !s.running then s else
    let s1 := s.advanceTo ((s.now / 500 + 1) * 500)
    let w := (halfAmps :: s1.power.samples).take 8
    if !s.boot.applied || decide (w.length < 8) then { s1 with power := { s1.power with samples := w } } else
    let p := { s1.power with samples := w, maxMean := max s1.power.maxMean (w.foldl (· + ·) 0) }
    if s1.imonExceeds w then
      if p.tripHolds s1.now then { s1 with power := { p with fallAt := none } }
      else
        let s2 : State := { s1 with power := { p with
          trip := true, fallAt := none, trips := p.trips + 1
          firstTrip := some (p.firstTrip.getD (s1.iTrip, s1.timebase)) } }
        s2.bump 1 52 2 1
    else if p.tripHolds s1.now then { s1 with power := { p with fallAt := some (p.fallAt.getD s1.now) } }
    else { s1 with power := { p with trip := false, fallAt := none } })

/-- IMON_TRIP_HOLD_EXPIRY (R938): 20 µs after the mean fell. -/
def execImonTripHoldExpiry (s : State) : Out :=
  .next (match s.power.trip, s.power.fallAt with
    | true, some t =>
      let s1 := s.advanceTo (t + 20000)
      { s1 with power := { s1.power with trip := false, fallAt := none } }
    | _, _ => s)

/-! ### The lower VID code -/

/-- VID_LOWER_CODE (R923, R933): 1 µs after the apply edge of a CCLK fall. -/
def execVidLowerCode (s : State) : Out :=
  .next (match s.power.lower with
    | some (code, at_) =>
      let s1 := (s.advanceTo at_).sendVid code
      { s1 with power := { s1.power with vCode := code, lower := none } }
    | none => s)

end Sys2Proof.Machine
end

