-- ==== Sys2Proof/Machine/Refresh.lean ====
section
/-! DEFINITION. Machine/Refresh.lean: TRF refresh and its schedule (§3.7), the handover of a bank (§3.9), and the retirement,
evacuation, march test and return of banks (§16.6). -/
namespace Sys2Proof.Machine

/-! ### Refresh -/

/-- The lines of physical bank `b` of a slice are refreshed: it serves a bank number (R132). -/
def Slice.inRefresh (sl : Slice) (b : Nat) : Bool := (sl.numberOf b).isSome

/-- What a refresh of the line reads: 32 poisoned rows for a lost line (R151), else its payload as stored. -/
def Slice.refreshValue (sl : Slice) (line : Nat) : Tile :=
  if sl.lost.contains line then Tile.poisoned else (assocGet sl.payload (sl.payKey line)).getD Tile.zero

/-- R147 to R149, R151: a refresh of row `row` of the source bank of a handover. -/
def Slice.handoverRow (sl : Slice) (h : Handover) (row : Nat) : Slice :=
  let v := sl.refreshValue (32 * row + h.bank)
  let key := 256 * h.target + row
  match h.phase with
  | .fill =>
    let h1 : Handover := if h.rows + 1 = 256 then { h with phase := .verify, rows := 0 } else { h with rows := h.rows + 1 }
    { sl with payload := assocPut sl.payload key v, handover := some h1 }
  | .verify =>
    if (assocGet sl.payload key).getD Tile.zero = v then { sl with handover := some { h with rows := min 256 (h.rows + 1) } }
    else { sl with handover := some { h with phase := .fill, rows := 0 } }

/-- R137, R143: physical bank `b` refreshes its next row, with the errors found. -/
def State.refreshBank (s : State) (i b : Nat) (found : List Found) : State :=
  let k := (s.slice i).banks.getD b {}
  let row := k.refRow
  let s1 := (s.applyAll none none found).modSlice i (fun sl => sl.modBank b (fun k => { k with
    refRow := (row + 1) % 256, refSweep := if row = 255 then k.refSweep + 1 else k.refSweep }))
  let s2 := s1.modSlice i (fun sl =>
    match sl.handover with
    | some h => if h.source = b then sl.handoverRow h row else sl
    | none => sl)
  s2.chargeCore 25

/-- R137: the instant, in ns, at which `parts` 1024ths of a sweep after its opening the slot of a bank's next row has passed: bank number `n`
of group n / 4, slot `row` of the bank's sweep. -/
def State.slotInstant (s : State) (i b parts : Nat) : Nat :=
  let k := (s.slice i).banks.getD b {}
  let n := ((s.slice i).numberOf b).getD b
  let t := 1000 * s.refresh.period
  s.refresh.origin + k.refSweep * t + ((8 * k.refRow + n / 4) * t + 2047) / 2048 + (parts * t + 1023) / 1024 - t

/-- The port of physical bank `b`: that of the bank number it serves (§3.1). -/
def Slice.portOfBank (sl : Slice) (b : Nat) : Nat := (sl.numberOf b).getD b % 4

/-! ### Rounds (R166) -/

/-- R166, R170: the members of a round: the eligible requesters and the forced ones, by index. -/
def Arb.eligible (a : Arb) (limit : Nat) (reqs : List Nat) : List Nat :=
  reqs.filter (fun r => a.hold.getD r 0 == 0 || decide (limit ≤ a.wait.getD r 0))

/-- The forced requesters of a round. -/
def Arb.forced (a : Arb) (limit : Nat) (reqs : List Nat) : List Nat := reqs.filter (fun r => decide (limit ≤ a.wait.getD r 0))

/-- Indices in rotation order from `ptr`. -/
def rotationFrom (ptr : Nat) (xs : List Nat) : List Nat := ((List.range 32).map (fun i => (ptr + i) % 32)).filter xs.contains

/-- The single winner of a port round: the highest class, rotation among equals. -/
def pickWinner (ptr : Nat) (cls : Nat → Nat) (es : List Nat) : Option Nat :=
  let top := es.foldl (fun m r => max m (cls r)) 0
  (rotationFrom ptr (es.filter (fun r => cls r == top))).head?

/-- The winners of a port round, in the order in which they are served (R166). -/
def Arb.winners (a : Arb) (limit : Nat) (cls : Nat → Nat) (reqs : List Nat) : List Nat :=
  match rotationFrom a.ptr (a.forced limit reqs) with
  | [] => (pickWinner a.ptr cls (a.eligible limit reqs)).toList
  | fs => fs

/-- R166: wait, loss and hold of requester `r` after a round, and the pointer.  A requester that has no request posted enters its
next round with wait 0. -/
def Arb.after (a : Arb) (limit base cap : Nat) (reqs won : List Nat) : Arb :=
  let es := a.eligible limit reqs
  let idx := List.range 32
  let wait := idx.map (fun r => if reqs.contains r && !won.contains r then a.wait.getD r 0 + 1 else 0)
  let loss := idx.map (fun r =>
    if won.contains r then 0 else if reqs.contains r && es.contains r then a.loss.getD r 0 + 1 else a.loss.getD r 0)
  let hold := idx.map (fun r =>
    if won.contains r then 0
    else if reqs.contains r then
      (if es.contains r then min (base * 2 ^ a.loss.getD r 0) cap else a.hold.getD r 0 - 1)
    else a.hold.getD r 0)
  { ptr := match won.getLast? with | some w => (w + 1) % 32 | none => a.ptr, wait := wait, loss := loss, hold := hold }

/-- The request that lane index `r` has posted, if it is at port `p` of slice `i` (R158). -/
def State.laneHead (s : State) (i p r : Nat) : Option LaneReq :=
  (((s.quarter (r / 8)).lanes.getD (r % 8) []).head?).filter (fun x => x.port == 4 * i + p && x.cls.isSome)

/-- The requester indices of the 24 lanes (§4.2). -/
def laneIndices : List Nat := (List.range 32).filter (fun r => decide (r % 8 < 6))

/-- The lanes that have a request posted at port `p` of slice `i`. -/
def State.portRequests (s : State) (i p : Nat) : List Nat := laneIndices.filter (fun r => (s.laneHead i p r).isSome)

/-- R158: the lines of the write lane `r` that reach port `p` of slice `i` by the time its slots come: those that its client has sent.  `late` names the
lanes of which fewer than all come in time, and how many do beside the one in the latch. -/
def State.supplied (s : State) (i p r : Nat) (late : List (Nat × Nat)) : Nat :=
  match ((s.quarter (r / 8)).lanes.getD (r % 8) []).head? with
  | some x =>
    if x.port != 4 * i + p then 0
    else if !isWriteLane (r % 8) then x.left
    else
      let held := if ((s.port i p).latches.getD (latchOf (r / 8) (r % 8)) false) then 1 else 0
      min x.left (held + ((late.find? (fun l => l.1 == r)).map (·.2)).getD (x.left - held))
  | none => 0

/-- R158, R164: the first line of a write lane's request comes into the latch of its port, and the lane posts the request. -/
def State.latchLane (s : State) (i p r : Nat) (late : List (Nat × Nat)) : State :=
  if !isWriteLane (r % 8) || s.supplied i p r late = 0 then s else
  (s.modPort i p (fun x => { x with latches := setAt x.latches (latchOf (r / 8) (r % 8)) true })).modQuarter (r / 8) (fun u =>
    { u with lanes := modAt u.lanes (r % 8) (postHead s.classOf) })

/-- R158, R163, R167, R168: one grant: of the `came` lines that are there in time at most BURST_LIMIT move; a lane with lines left posts again,
a write lane once the next line is in the latch.  A line that the vector unit reads or writes counts as a
vector tile line too (R1034). -/
def State.serveLane (s : State) (i p r came : Nat) : State :=
  let u := s.quarter (r / 8)
  match u.lanes.getD (r % 8) [] with
  | [] => s
  | x :: rest =>
    let n := min came s.profile.burstLimit
    let queue := if x.left ≤ n then rest else { x with left := x.left - n, cls := none } :: rest
    let s1 := (s.modQuarter (r / 8) (fun u => { u with lanes := setAt u.lanes (r % 8) queue })).chargeCore (25 * n)
    let s2 := if (r % 8 = 2 || r % 8 = 3) && x.kind != kindSvr then s1.chargeCore (30 * n) else s1
    if isWriteLane (r % 8) then
      let next := decide (n < x.left) && decide (n < came)
      let s3 := s2.modPort i p (fun y => { y with latches := setAt y.latches (latchOf (r / 8) (r % 8)) next })
      if next then s3.modQuarter (r / 8) (fun u => { u with lanes := modAt u.lanes (r % 8) (postHead s.classOf) }) else s3
    else s2.postHeads

/-- The lines that write lanes have sent are in the latches of their port. -/
def State.latchPort (s : State) (i p : Nat) (late : List (Nat × Nat)) : State := laneIndices.foldl (fun s r => s.latchLane i p r late) s

/-- R158, R166 to R170, R179 to R182: a port holds a round, of the read lanes that have a request there and the write lanes with a line in its
latches.  With no eligible lane the first non-urgent refresh that waits takes the slot. -/
def State.portRound (s : State) (i p : Nat) (late : List (Nat × Nat)) (found : List Found) : State :=
  let sl := s.latchPort i p late
  let reqs := sl.portRequests i p
  let a := (sl.port i p).arb
  let cls := fun r => ((sl.laneHead i p r).bind (·.cls)).getD 0
  let won := a.winners sl.profile.waitLimit cls reqs
  let s1 := sl.modPort i p (fun x => { x with
    arb := a.after sl.profile.waitLimit sl.profile.backoffBase sl.profile.backoffCap reqs won })
  if won.isEmpty then
    match (sl.port i p).pendingRef with
    | b :: rest => (s1.modPort i p (fun x => { x with pendingRef := rest })).refreshBank i b found
    | [] => s1.applyAll none none found
  else won.foldl (fun u r => u.serveLane i p r (s.supplied i p r late)) (s1.applyAll none none found)

/-- PORT_ROUND (R158, R163 to R170): one round of port SP`port` of a slice; `found.late` names the write lanes of which not every line has reached
the latch by its slot, with the lines that have beside the one that was there. -/
def execPortRound (slice port : Nat) (found : RoundFind) (s : State) : Out :=
  if 4 ≤ slice ∨ 4 ≤ port then .fault (.noSuchUnit "port" (4 * slice + port)) else
  guardFound found.errors (.next (if s.running then s.portRound slice port found.late found.errors else s))

/-- TRF_REFRESH (R137, R138): the slot of the bank's next row opens; its refresh takes a free round of the port, or waits for one. -/
def execTrfRefresh (slice bank : Nat) (found : List Found) (s : State) : Out :=
  if 4 ≤ slice ∨ 34 ≤ bank then .fault (.noSuchUnit "bank" bank) else
  guardFound found (.next (
    if !s.running || !(s.slice slice).inRefresh bank then s else
    let p := (s.slice slice).portOfBank bank
    let s1 := (s.advanceTo (s.slotInstant slice bank 0)).modPort slice p (fun x => { x with pendingRef := addOnce x.pendingRef bank })
    if ((s1.port slice p).arb.winners s.profile.waitLimit (fun _ => 0) (s1.portRequests slice p)).isEmpty
    then s1.portRound slice p [] found else s1))

/-- TRF_REFRESH_URGENT (R139, R171, R173, R174): 75 % of the slot of the bank's next row passes without its refresh, which takes the next slot of
the port; no wait, loss, hold or pointer changes. -/
def execTrfRefreshUrgent (slice bank : Nat) (found : List Found) (s : State) : Out :=
  if 4 ≤ slice ∨ 34 ≤ bank then .fault (.noSuchUnit "bank" bank) else
  guardFound found (.next (
    if !s.running || !(s.slice slice).inRefresh bank then s else
    let p := (s.slice slice).portOfBank bank
    ((s.advanceTo (s.slotInstant slice bank 3)).modPort slice p (fun x => { x with pendingRef := x.pendingRef.erase bank })).refreshBank
      slice bank found))

/-- The instant of the next sweep boundary (§3.7). -/
def State.nextSweep (s : State) : Nat :=
  let t := 1000 * s.refresh.period
  s.refresh.origin + (s.now - s.refresh.origin + t - 1) / t * t

/-- REF_INTERVAL_CHANGE (R134 to R136, R800): at a sweep boundary the sweep period that the temperature and REF_INTERVAL_US ask
for takes effect. -/
def execRefIntervalChange (s : State) : Out :=
  .next (
    if !s.boot.applied || !s.running then s else
    let t := s.nextSweep
    let cool := match s.refresh.coolSince with | some c => decide (c + 10000000 ≤ t) | none => false
    let hot := s.refresh.hot && !cool
    let want := if hot then 20 else s.profile.refIntervalUs
    if want = s.refresh.period then { s with refresh := { s.refresh with hot := hot } } else
    let s1 := s.advanceTo t
    let s2 := { s1 with refresh := { s1.refresh with period := want, hot := hot } }.newSweep t
    s2.deviceEvent Code.refIntervalChange none
      ([BitVec.ofNat 8 want, 0] ++ natLe 2 (BitVec.ofInt 16 s2.refresh.hottest).toNat))

/-- DEBUG_TRANSFER (R172 to R175): a debug request moves one line to the debug instrument, at most one in any 2,112 cclk. -/
def execDebugTransfer (slice line : Nat) (s : State) : Out :=
  if 4 ≤ slice ∨ 8192 ≤ line then .fault (.noSuchUnit "line" line) else
  .next (
    if !s.running then s else
    let s1 := match s.instruments.lineAt with
      | some t => s.advanceTo (t + s.cclkNs 2112)
      | none => s
    ({ s1 with instruments := { s1.instruments with line := some (slice, line, (s1.slice slice).readLine line), lineAt := some s1.now } }).chargeCore 25)

/-! ### The basket allocator (§4.7) -/

/-- The write lanes that have a use waiting at the allocator of a slice, each once. -/
def Slice.waiters (sl : Slice) : List Nat := sl.waiting.foldl (fun acc w => addOnce acc w.lane) []

/-- R1028: the use that lane `r` presents: its first. -/
def Slice.useOfLane (sl : Slice) (r : Nat) : Option WaitUse := sl.waiting.find? (fun w => w.lane == r)

/-- R186, R187: the next lane that a line is given to: a forced one in rotation order, else the highest class. -/
def Arb.nextGrant (a : Arb) (limit ptr : Nat) (cls : Nat → Nat) (left : List Nat) : Option Nat :=
  match rotationFrom ptr (a.forced limit left) with
  | r :: _ => some r
  | [] => pickWinner ptr cls (a.eligible limit left)

/-- R184 to R187: the grants of one allocator round, `n` lines at most: the lanes in order, and the pointer. -/
def Arb.grants (a : Arb) (limit : Nat) (cls : Nat → Nat) : Nat → Nat → List Nat → List Nat
  | 0, _, _ => []
  | n + 1, ptr, left =>
    match a.nextGrant limit ptr cls left with
    | none => []
    | some r => r :: a.grants limit cls n ((r + 1) % 32) (left.filter (· != r))

/-- A lane's presented use receives a shared line. -/
def Slice.giveShared (sl : Slice) (r : Nat) : Slice :=
  match sl.useOfLane r with
  | none => sl
  | some w =>
    match sl.takeSharedLine w.port w.owner with
    | some sl1 => { sl1 with waiting := sl1.waiting.erase w }
    | none => sl

/-- R184, R185: one round of the allocator of a slice.  Where every waiting use receives a line, they do so in rotation order, and the pointer
goes past the last one: DESIGN CHOICE (log entry 75). -/
def Slice.allocRound (sl : Slice) (limit base cap : Nat) : Slice :=
  let reqs := sl.waiters
  let cls := fun r => ((sl.useOfLane r).map (·.cls)).getD 0
  let won := if reqs.length ≤ sl.sharedFree then rotationFrom sl.alloc.ptr reqs
             else sl.alloc.grants limit cls sl.sharedFree sl.alloc.ptr reqs
  { won.foldl Slice.giveShared sl with alloc := sl.alloc.after limit base cap reqs won }

/-- ALLOCATOR_ROUND (R184 to R187, R1028). -/
def execAllocatorRound (slice : Nat) (s : State) : Out :=
  if 4 ≤ slice then .fault (.noSuchUnit "slice" slice) else
  .next (if (s.slice slice).waiting.isEmpty then s else
    s.modSlice slice (fun sl => sl.allocRound s.profile.waitLimit s.profile.backoffBase s.profile.backoffCap))

/-- ARRAY_STEP_START (R189, R942): a step that the power decision permits starts with its 16 lines at the array edge. -/
def execArrayStepStart (quarter : Nat) (s : State) : Out :=
  if 4 ≤ quarter then .fault (.noSuchUnit "quarter" quarter) else
  .next (s.modQuarter quarter (fun u =>
    if u.stepPermit && u.jobs.any (fun j => j.edge) then
      { u with stepPermit := false
               jobs := u.jobs.map (fun j => if j.edge then { j with edge := false, started := j.started + 1 } else j) }
    else u))

/-! ### Banks (§16.6) -/

/-- Table 16.5: the payload of a bank's unit event. -/
def bankPayload (i b by_ passes cause : Nat) : List Byte :=
  [if b < 32 then 1 else 2, BitVec.ofNat 8 i] ++ natLe 2 b ++ natLe 2 by_ ++ [BitVec.ofNat 8 passes, BitVec.ofNat 8 cause]

/-- R895: the condition of a cause of Table 16.9 holds for a bank: the instants kept all lie within 1 h, or within 10 s. -/
def Bank.mustRetire (b : Bank) (cause : Nat) : Bool :=
  if cause = 0 then decide (2 ≤ b.ueTimes.length)
  else if cause = 1 then decide (1024 < b.ceTimes.length)
  else false

/-- BANK_RETIRE (R895, R896): a handover to a free spare begins; with none, the bank waits to be evacuated (R897). -/
def execBankRetire (slice bank cause : Nat) (s : State) : Out :=
  if 4 ≤ slice ∨ 34 ≤ bank then .fault (.noSuchUnit "bank" bank) else
  .next (
    let sl := s.slice slice
    let b := sl.banks.getD bank {}
    match sl.numberOf bank with
    | none => s
    | some n =>
      if !s.running || b.status != .serving || sl.handover.isSome || !b.mustRetire cause then s else
      match sl.freeSpare with
      | some sp =>
        let s1 := s.modSlice slice (fun sl => { sl with handover := some { bank := n, source := bank, target := sp } })
        (s1.bump 2 56 2 1).deviceEvent Code.bankRetire none (bankPayload slice bank sp 0 cause)
      | none => s.modSlice slice (fun sl => sl.modBank bank (fun k => { k with status := .retiring, passes := cause })))

/-- BANK_HANDOVER_SWAP (R150): at the end of a verify sweep with no difference the target takes over. -/
def execBankHandoverSwap (slice : Nat) (s : State) : Out :=
  if 4 ≤ slice then .fault (.noSuchUnit "slice" slice) else
  .next (s.modSlice slice (fun sl =>
    match sl.handover with
    | none => sl
    | some h =>
      if h.phase != .verify || h.rows != 256 then sl else
      let back := (sl.banks.getD h.target {}).status == .retired   -- a returning bank (R903)
      let sl1 := { sl with serves := setAt sl.serves h.bank h.target, handover := none }
      let sl2 := sl1.modBank h.target (fun k => { k with
        status := .serving, ueTimes := [], ceTimes := [], passes := 0, served := none
        refRow := (sl.banks.getD h.source {}).refRow, refSweep := (sl.banks.getD h.source {}).refSweep })
      sl2.modBank h.source (fun k => { k with
        status := if back then .free else .retired, passes := 0, ueTimes := [], ceTimes := []
        served := if back then none else some h.bank })))

/-- R899: the largest RESIDENT_CTX, up to the profile's, for which the balance of R129 holds in every slice. -/
def State.slotCeiling (s : State) : Nat :=
  let gone := maxD 0 (s.slices.map (fun sl => sl.gone.length))
  maxD 0 ((List.range (s.profile.residentCtx + 1)).filter (fun n =>
    decide (0 ≤ sharedOf { s.profile with residentCtx := n } gone)))

/-- R899, R900: one resident context leaves its slot: an eviction is queued, or it faults where it cannot spill. -/
def State.shedOne (s : State) (c : Nat) : State :=
  if s.sealKey.isNone || (s.entry c).desc.sepoch == 0xFFFFFFFF then s.faultContext c { code := Code.ctxCapacity, unmet := true }
  else if s.internal.contains (.evict c) then s
  else { s with internal := s.internal ++ [.evict c] }

/-- R899: the slot ceiling that the retirement of one more bank number of slice `i` leaves. -/
def State.ceilingWithout (s : State) (i : Nat) : Nat := (s.modSlice i (fun sl => { sl with gone := sl.gone ++ [99] })).slotCeiling

/-- R899 to R901: the shared part of slice `i` cannot supply what the retirement of `bank` requires: a slot ceiling is set, the
empty slots above it give their lines up, and the residents above it are shed, contexts not of class DL first. -/
def State.shrink (s : State) (i bank : Nat) : State :=
  let m := s.ceilingNow
  let n := s.ceilingWithout i
  let s1 := s.modSlice i (fun sl => { sl with ceiling := some (min m n) })
  let above := (s.residents.filter (fun x => decide (n ≤ x.1))).reverse
  let empty := ((List.range m).filter (fun k => decide (n ≤ k) && (s.slotCtx k).isNone)).length
  let s2 : State := { s1 with slices := s1.slices.map (fun sl => sl.freeShared (empty * s.slotShare)) }
  let order := (above.filter (fun x => !(s.entry x.2).deadlined)) ++ (above.filter (fun x => (s.entry x.2).deadlined))
  let s3 := order.foldl (fun s x => s.shedOne x.2) s2
  let faulted := (order.filter (fun x => (s3.entry x.2).state == .faulted)).length
  s3.deviceEvent Code.trfShrink none
    ([BitVec.ofNat 8 i, BitVec.ofNat 8 (min m n)] ++ natLe 2 (order.length - faulted) ++ natLe 2 faulted ++ [BitVec.ofNat 8 bank])

/-- R897, R898: a line in use moves to a free line of another bank of the slice, without a change of content, flags or VER. -/
def Slice.moveLine (sl : Slice) (n line : Nat) : Slice :=
  let free := fun l => l % 32 != n && sl.isFree l
  let same := (List.range Config.sliceLines).find? (fun l => l % 4 == line % 4 && free l)
  match assocGet sl.lines line, same.orElse (fun _ => (List.range Config.sliceLines).find? free) with
  | some u, some l =>
    let lost := sl.lost.contains line
    let sl1 := (sl.writePayload l ((assocGet sl.payload (sl.payKey line)).getD Tile.zero)).writeWord l (sl.word line)
    { sl1 with
      lines := assocPut (assocDel sl1.lines line) l u
      words := assocPut sl1.words line { sl1.word line with tile := 0 }
      lost := if lost then insertRising l (sl1.lost.filter (· != line)) else sl1.lost }
  | _, _ => sl

/-- BANK_EVACUATE (R152, R897 to R900): every line in use leaves the bank, and its lines leave the slice. -/
def execBankEvacuate (slice bank : Nat) (s : State) : Out :=
  if 4 ≤ slice ∨ 34 ≤ bank then .fault (.noSuchUnit "bank" bank) else
  .next (
    let sl := s.slice slice
    match sl.numberOf bank with
    | none => s
    | some n =>
      if (sl.banks.getD bank {}).status != .retiring then s
      else if sl.sharedFree < 256 ∧ (sl.ceiling = none ∨ s.ceilingWithout slice < s.ceilingNow) then s.shrink slice bank
      else
        let used := (sl.lines.filter (fun x => x.1 % 32 == n)).map (·.1)
        let room := ((List.range Config.sliceLines).filter (fun l => l % 32 != n && sl.isFree l)).length
        if room < used.length then s else
        let cause := (sl.banks.getD bank {}).passes
        let s1 := s.modSlice slice (fun sl =>
          ((used.foldl (fun sl l => sl.moveLine n l) sl).loseBank n).modBank bank (fun k => { k with
            status := .retired, served := some n, passes := 0, ueTimes := [], ceTimes := [] }))
        ((s1.bump 2 56 2 1).deviceEvent Code.bankRetire none (bankPayload slice bank 0xFFFF 0 cause)).refreshStat)

/-- BANK_MARCH (R902, R904): a march of a retired or a free spare bank completes. -/
def execBankMarch (slice bank : Nat) (ok : Bool) (s : State) : Out :=
  if 4 ≤ slice ∨ 34 ≤ bank then .fault (.noSuchUnit "bank" bank) else
  .next (
    let target := ((s.slice slice).handover.map (·.target)) == some bank
    if !s.running || target then s else
    s.modSlice slice (fun sl => sl.modBank bank (fun b =>
      match b.status with
      | .retired => { b with passes := if ok then b.passes + 1 else 0 }
      | .free => if ok then { b with passes := b.passes + 1 } else { b with status := .suspect, passes := 0 }
      | .suspect =>
        let n := if ok then b.passes + 1 else 0
        { b with passes := n, status := if s.profile.reinstatePasses ≤ n then .free else .suspect }
      | _ => b)))

/-- R901: a bank of slice `i` has returned: the slot ceiling is set anew, and the slots that open take their lines from the shared part. -/
def State.reopenSlots (s : State) (i : Nat) : State :=
  let m := s.ceilingNow
  let s1 : State := { s with slices := s.slices.map (fun sl => { sl with ceiling := none }) }
  let n := min s1.slotCeiling s1.ceilingNow
  let s2 := s1.modSlice i (fun sl => { sl with ceiling := if n < s.profile.residentCtx then some n else none })
  { s2 with slices := s2.slices.map (fun sl => sl.takeShared ((n - m) * s.slotShare)) }

/-- BANK_REINSTATE (R903): a retired bank with REINSTATE_PASSES passes returns: through a handover from the spare that replaced
it, or into the shared part at the next sweep boundary. -/
def execBankReinstate (slice bank : Nat) (s : State) : Out :=
  if 4 ≤ slice ∨ 34 ≤ bank then .fault (.noSuchUnit "bank" bank) else
  .next (
    let sl := s.slice slice
    let b := sl.banks.getD bank {}
    match b.served with
    | none => s
    | some n =>
      if !s.running || b.status != .retired || decide (b.passes < s.profile.reinstatePasses) || sl.handover.isSome then s else
      let ev := fun (s : State) (by_ : Nat) => s.deviceEvent Code.bankReinstate none (bankPayload slice bank by_ b.passes 0)
      if sl.gone.contains n then
        let s1 := (s.advanceTo s.nextSweep).modSlice slice (fun sl =>
          (({ sl with gone := sl.gone.filter (· != n), serves := setAt sl.serves n bank }).freeShared 256).modBank bank (fun k => { k with
            status := .serving, served := none, passes := 0, refRow := 0
            refSweep := (s.nextSweep - s.refresh.origin) / (1000 * s.refresh.period) + 1 }))
        (ev (if s.slices.any (fun sl => sl.ceiling.isSome) then s1.reopenSlots slice else s1) 0xFFFF).refreshStat
      else
        let by_ := sl.serves.getD n n
        if 32 ≤ by_ then
          ev (s.modSlice slice (fun sl => { sl with handover := some { bank := n, source := by_, target := bank } })) by_
        else ev (s.modSlice slice (fun sl => sl.modBank bank (fun k => { k with status := .free, served := none, passes := 0 }))) 0xFFFF)

end Sys2Proof.Machine
end

