-- ==== Sys2Proof/Machine/Repair.lean ====
section
/-! DEFINITION. Machine/Repair.lean: board rotation, darning and reinstatement of columns, removal of a quarter, debug BIST and HEALTH
records (§16.4 to §16.9). -/
namespace Sys2Proof.Machine

/-! ### Columns -/

/-- The physical column that holds a role. -/
def Rotation.holding (r : Rotation) (role : ColRole) : Option Nat := r.roles.findIdx? (· == role)

/-- A column takes a role. -/
def Rotation.setRole (r : Rotation) (col : Nat) (role : ColRole) : Rotation := { r with roles := setAt r.roles col role }

/-- True of the role WORK. -/
def ColRole.works : ColRole → Bool
  | .work _ => true
  | _ => false

/-- The next column after `x` in ascending physical order, modulo 258, whose role is WORK, or SPARE (R882). -/
def Rotation.next (r : Rotation) (x : Nat) : Option Nat :=
  ((List.range 257).map (fun i => (x + 1 + i) % 258)).find? (fun c => (r.role c).works || r.role c == ColRole.spare)

/-- The next WORK column after `x` (R892). -/
def Rotation.nextWork (r : Rotation) (x : Nat) : Option Nat :=
  ((List.range 257).map (fun i => (x + 1 + i) % 258)).find? (fun c => (r.role c).works)

/-- The number of DARNED columns. -/
def Rotation.darned (r : Rotation) : Nat := (r.roles.filter (· == .darned)).length

/-- The rotation state of quarter `q`. -/
def State.rotation (s : State) (q : Nat) : Rotation := (s.quarter q).rotation

/-- The rotation state of quarter `q` changed. -/
def State.modRotation (s : State) (q : Nat) (f : Rotation → Rotation) : State :=
  s.modQuarter q (fun u => { u with rotation := f u.rotation })

/-- A column passes its test now. -/
def State.columnPasses (s : State) (q col : Nat) : State :=
  s.modRotation q (fun r => { r with lastPass := assocPut r.lastPass col (s.now, s.timebase) })

/-- R882, R885, R889, R890: a column becomes DARNED, and the SPARE, if any, becomes BOARD; a darn period begins. -/
def State.darnColumn (s : State) (q col by_ cause : Nat) : State :=
  let spare := (s.rotation q).holding .spare
  let s1 := s.modRotation q (fun r =>
    let r1 := { r.setRole col .darned with darnPasses := 0, shadow := none, shadowRan := false, testDarned := true }
    match spare with
    | some p => r1.setRole p .board
    | none => r1)
  (s1.bump 2 54 2 1).deviceEvent Code.colDarn none (columnPayload q col by_ 0 cause 0)

/-- R882: the end of a period of the BOARD column `x`. -/
def State.boardPeriod (s : State) (q x : Nat) (passed : Bool) : State :=
  if !passed then s.darnColumn q x (((s.rotation q).holding .spare).getD 0xFFFF) 0 else
  let s1 := s.columnPasses q x
  s1.modRotation q (fun r =>
    -- A reinstatement shadow that still waits for a step goes first (log entry 24).
    if (match r.shadow with | some (d, _) => r.role d == ColRole.darned | none => false) then r else
    match r.next x with
    | some y =>
      if r.role y == ColRole.spare then { (r.setRole x .spare).setRole y .board with shadow := none, shadowRan := false }
      else { r with shadow := some (x, y), shadowRan := false }
    | none => r)

/-- R891, R892: the end of a darn period of column `d`. -/
def State.darnPeriod (s : State) (q d : Nat) (passed : Bool) : State :=
  if !passed then s.modRotation q (fun r => { r with darnPasses := 0 }) else
  (s.columnPasses q d).modRotation q (fun r =>
    let n := r.darnPasses + 1
    let r1 := { r with darnPasses := n }
    if decide (s.profile.reinstatePasses ≤ n) && r.shadow.isNone then
      match (r.holding .board).bind r.nextWork with
      | some y => { r1 with shadow := some (d, y), shadowRan := false }
      | none => r1
    else r1)

/-- R881: the next rotation boundary of quarter `q`, as a timebase instant. -/
def State.nextRotation (s : State) (q : Nat) : Nat :=
  let t := 1000000 * s.profile.testRotateMs
  let off := q * t / 4
  if s.timebase < off then off else off + ((s.timebase - off) / t + 1) * t

/-- R880: a period passes when a run of the test sequence has completed and every run has matched. -/
def periodPasses (runs : List Bool) : Bool := !runs.isEmpty && runs.all id

/-- ROTATION_BOUNDARY (R880 to R882, R887 to R894, R907): the period of the column under test has ended; for each completed run of the test sequence,
whether its signature matched. -/
def execRotationBoundary (quarter : Nat) (runs : List Bool) (s : State) : Out :=
  if 4 ≤ quarter then .fault (.noSuchUnit "quarter" quarter) else
  .next (
    let u := s.quarter quarter
    if !s.running || !s.boot.applied || !s.inService quarter || u.untested || decide (2 ≤ u.rotation.darned) then s else
    let s1 := s.advanceTo (s.ownInstant (s.nextRotation quarter))
    let r := u.rotation
    match r.holding .darned, r.testDarned with
    | some d, true =>
      (s1.darnPeriod quarter d (periodPasses runs)).modRotation quarter (fun r => { r with testDarned := (r.holding .board).isNone })
    | d, _ =>
      match r.holding .board with
      | some x =>
        let s2 := s1.boardPeriod quarter x (periodPasses runs)
        if d.isSome then s2.modRotation quarter (fun r => { r with testDarned := true }) else s2
      | none => s1)

/-- SHADOW_STEP (R883, R886, R887): at an executed step Y's state is copied into X, and both columns run the step. -/
def execShadowStep (quarter : Nat) (s : State) : Out :=
  if 4 ≤ quarter then .fault (.noSuchUnit "quarter" quarter) else
  .next (if (s.rotation quarter).shadow.isSome && (s.quarter quarter).jobs.any (fun j => decide (0 < j.started))
    then s.modRotation quarter (fun r => { r with shadowRan := true }) else s)

/-- R885: COL_SUSPECT in the device ring and in the rings of the contexts that wrote a plane since column `y` last passed. -/
def State.suspectEvents (s : State) (q y by_ : Nat) : State :=
  let last := assocGet (s.rotation q).lastPass y
  let payload := columnPayload q y by_ 0 0 ((last.map (·.2)).getD 0)
  let cs := ((s.quarter q).planeWriters.filter (fun w => decide ((last.map (·.1)).getD 0 ≤ w.2) && (s.entry w.1).state != .detached)).map (·.1)
  cs.foldl (fun s c => s.contextEvent c Code.colSuspect payload) (s.deviceEvent Code.colSuspect none payload)

/-- R884, R885: the compare of the BOARD column `x` with the WORK column `y`.  The model holds the values that a healthy column computes,
which are those of `x` (log entry 23). -/
def State.boardCompare (s : State) (q x y : Nat) (equal : Bool) : State :=
  let l := (s.rotation q).role y
  if equal then
    s.modRotation q (fun r => { (r.setRole x l).setRole y .board with shadow := none, shadowRan := false })
  else
    let s1 := (s.bump 2 52 2 1).modRotation q (fun r => r.setRole x l)
    (s1.darnColumn q y x 1).suspectEvents q y x

/-- R892, R893: the compare of the darned column `d` with the WORK column `y`. -/
def State.reinstateCompare (s : State) (q d y : Nat) (equal : Bool) : State :=
  let r := s.rotation q
  let event := fun (s : State) (code : Nat) => s.deviceEvent code none (columnPayload q d 0xFFFF r.darnPasses 0 0)
  if equal then
    event (s.modRotation q (fun r => { (r.setRole d (r.role y)).setRole y .spare with
      shadow := none, shadowRan := false, darnPasses := 0, testDarned := false })) Code.colReinstate
  else
    event ((s.bump 2 52 2 1).modRotation q (fun r => { r with shadow := none, shadowRan := false, darnPasses := 0 })) Code.colReinstateFail

/-- SHADOW_COMPARE (R884 to R886, R889, R892, R893): the end of the shadow step. -/
def execShadowCompare (quarter : Nat) (equal : Bool) (s : State) : Out :=
  if 4 ≤ quarter then .fault (.noSuchUnit "quarter" quarter) else
  .next (
    let r := s.rotation quarter
    match r.shadow, r.shadowRan with
    | some (x, y), true =>
      if r.role x == ColRole.darned then s.reinstateCompare quarter x y equal else s.boardCompare quarter x y equal
    | _, _ => s)

/-! ### Removal of a quarter -/

/-- `n` of a list of instants, newest first, lie within some 1 s (Table 16.8). -/
def withinSecond (n : Nat) (ts : List Nat) : Bool :=
  (ts.zip (ts.drop (n - 1))).any (fun p => decide (p.1 < p.2 + 1000000000))

/-- Table 16.8: a cause of removal holds for a quarter. -/
def Quarter.mustGo (u : Quarter) (cause : Nat) : Bool :=
  if cause = 0 then decide (2 ≤ u.rotation.darned)
  else if cause = 1 then withinSecond 4 u.planeUes
  else if cause = 2 then withinSecond 16 u.pegUes
  else if cause = 3 then withinSecond 4 u.pathUes
  else false

/-- Table 16.5: the payload of a quarter's unit event. -/
def quarterPayload (q cause : Nat) : List Byte := [5, BitVec.ofNat 8 q, 0, 0, 0xFF, 0xFF, 0, BitVec.ofNat 8 cause]

/-- R908: removal begins: the tracks are preempted and the live planes held there are to be parked. -/
def State.beginRemoval (s : State) (q cause : Nat) : State :=
  let jobs := (s.quarter q).jobs
  let s1 := s.modQuarter q (fun u => { u with leaving := true, removeCause := cause })
  let s2 := jobs.foldl (fun s j => s.settle j.ctx) (s1.preemptWhere q .removal true (fun _ => true))
  ((s2.quarter q).planes.filterMap (fun p => p.holder)).foldl (fun s h =>
    if ((s.entry h.1).plane h.2).live = 0 then s else s.queueInternal (.park h.1 h.2)) s2

/-- R908: every track of the quarter is free, and it holds no live plane. -/
def State.removalReady (s : State) (q : Nat) : Bool :=
  s.tracksFree q && (s.quarter q).planes.all (fun p => match p.holder with | some (c, pl) => ((s.entry c).plane pl).live == 0 | none => true)

/-- R385, R393, R858, R908, R1030: the quarter leaves service, and every context bound to it is rebound. -/
def State.finishRemoval (s : State) (q : Nat) : State :=
  let cause := (s.quarter q).removeCause
  let bound := (s.residents.map (·.2)).filter (fun c => (s.entry c).quarter == some q)
  let s1 := s.modQuarter q (fun u => { u with leaving := false, removed := true, claim := false, claimAt := none, stepPermit := false, parkChosen := none })
  let s2 := bound.foldl State.rebindAway s1
  (s2.deviceEvent Code.quarterRemoved none (quarterPayload q cause)).refreshStat

/-- QUARTER_REMOVE (R894, R906 to R908): a quarter for which a cause of Table 16.8 holds leaves service, once its tracks are free and its
live planes parked; the last quarter in service stays, untested. -/
def execQuarterRemove (quarter cause : Nat) (s : State) : Out :=
  if 4 ≤ quarter then .fault (.noSuchUnit "quarter" quarter) else
  .next (
    let u := s.quarter quarter
    if !s.running || !s.ready || !s.inService quarter || u.untested || (!u.leaving && !u.mustGo cause) then s
    else if s.quartersUp == [quarter] then
      (s.modQuarter quarter (fun u => { u with untested := true, leaving := false, rotation := { u.rotation with shadow := none, shadowRan := false } })).deviceEvent
        Code.quarterUntested none (quarterPayload quarter cause)
    else
      let s1 := if u.leaving then s else s.beginRemoval quarter cause
      if s1.removalReady quarter then s1.finishRemoval quarter else s1)

/-! ### Debug BIST -/

/-- Table 15.3 for a bank that fails in a debug BIST: lines that a restoring slot holds there leave it first (R897). -/
def State.debugFinding (s : State) (f : Finding) : State :=
  match f with
  | .bank i b =>
    let sl := s.slice i
    match sl.numberOf b, sl.freeSpare with
    | some n, none =>
      let used := (sl.lines.filter (fun x => x.1 % 32 == n)).map (·.1)
      (s.modSlice i (fun sl => used.foldl (fun sl l => sl.moveLine n l) sl)).applyFinding f
    | _, _ => s.applyFinding f
  | _ => s.applyFinding f

/-- Table 16.9: BANK_RETIRE of a bank that a debug BIST found to fail, and that served a bank number before, with the slices as they were. -/
def State.debugRetire (s : State) (before : List Slice) (f : Finding) : State :=
  match f with
  | .bank i b =>
    match (before.getD i {}).numberOf b with
    | some n =>
      let by_ := if (s.slice i).gone.contains n then 0xFFFF else (s.slice i).serves.getD n n
      (s.bump 2 56 2 1).deviceEvent Code.bankRetire none (bankPayload i b by_ 0 2)
    | none => s
  | _ => s

/-- R889, Table 16.9: the events of the columns and banks that a debug BIST of the quarters `up` retires, with the arrays and slices as they were
(log entry 81). -/
def State.debugEvents (s : State) (quarters : List Quarter) (slices : List Slice) (up : List Nat) (findings : List Finding) : State :=
  findings.foldl (fun s f => s.debugRetire slices f) (up.foldl (fun s q => s.darnEvents q (quarters.getD q {}).rotation) s)

/-- Table 16.6: DBG_BIST. -/
def State.debugBistEvent (s : State) (findings : List Finding) : State :=
  s.deviceEventParts Code.dbgBist none
    ((natLe 2 findings.length ++ [BitVec.ofNat 8 s.quartersMask, 0] ++ natLe 2 s.power.cclk) :: s.findingPages findings)

/-- R841, R879: the quarters `up` have been tested, with these findings. -/
def State.quartersTested (s : State) (up : List Nat) (fs : List Finding) : State :=
  { s with quarters := s.quarters.zipIdx.map (fun p => if up.contains p.2 then p.1.afterTest p.2 fs else p.1) }

/-- R910, R911: the BIST instrument shows the findings of the test that it ran. -/
def State.showFindings (s : State) (findings : List Finding) : State :=
  { s with instruments := { s.instruments with refusedBist := none, findings := findings } }

/-- R911, Table 15.3: a debug BIST runs on every quarter in service, for 2^25 cclk, and its findings are acted on and written. -/
def State.debugBist (s : State) (findings : List Finding) : State :=
  let up := s.quartersUp
  let fs := s.fuseFindings ++ findings
  let s1 := ((findings.foldl State.debugFinding (s.advanceTo (s.now + s.cclkNs 33554432))).quartersTested up fs).showFindings findings
  let s2 := (s1.residents.map (·.2)).foldl (fun s c => if s.mustLeave (s.entry c) then s.rebindAway c else s) s1
  ((s2.debugEvents s.quarters s.slices up findings).debugBistEvent findings).refreshStat

/-- DEBUG_BIST (R842, R910, R911): refused while a context is resident or a switch is in progress. -/
def execDebugBist (findings : List Finding) (s : State) : Out :=
  .next (
    if !s.running || !s.ready then s else
    let resident := (s.residents.filter (fun x => (s.entry x.2).restore.isNone)).length
    let reason := if 0 < resident then some 0 else if s.switch.step != .idle then some 1 else none
    match reason with
    | some n =>
      ({ s with instruments := { s.instruments with refusedBist := some n } }).deviceEvent Code.dbgBistRefused none
        ([BitVec.ofNat 8 n, 0] ++ natLe 2 resident)
    | none => s.debugBist findings)

/-! ### HEALTH (Table 16.10) -/

/-- Counters of a page, from an offset on: widths in bytes. -/
def State.countersFrom (s : State) (page : Nat) : Nat → List Nat → List Byte
  | _, [] => []
  | off, w :: ws => natLe w (s.healthOf page off) ++ s.countersFrom page (off + w) ws

/-- A temperature in two's complement, 1/16 °C (R913). -/
def temp16 (t : Int) : List Byte := natLe 2 (BitVec.ofInt 16 t).toNat

/-- Page 0: identity. -/
def State.healthIdentity (s : State) : List Byte :=
  let v := s.levels.mv
  [BitVec.ofNat 8 Config.member, 0xB0, BitVec.ofNat 8 s.boot.stat, BitVec.ofNat 8 (s.profNum % 8 + 8 * b2n s.profRom)] ++
  natLe 2 s.capW ++ natLe 2 s.power.cclk ++
  [BitVec.ofNat 8 s.quartersMask, BitVec.ofNat 8 s.degraded, BitVec.ofNat 8 s.refresh.period, BitVec.ofNat 8 (b2n s.sealKey.isSome)] ++
  ((List.range 4).map (fun i => natLe 2 (v.getD i 0))).flatten ++
  natLe 2 (((List.range 4).map (fun i => s.levels.level.getD i 0 * 16 ^ i)).foldl (· + ·) 0) ++
  [BitVec.ofNat 8 (bitsMask 4 ((List.range 4).filter (fun i => levelMargin (v.getD i 0)))), 0] ++ natLe 4 s.health.seq

/-- R949: an energy over a time in ns, in 0.1 W. -/
def tenthWatts (energy ns : Nat) : Nat := energy / (energyUnit * max 1 ns)

/-- Page 1: thermal and power. -/
def State.healthThermal (s : State) : List Byte :=
  let t := s.thermal
  let p := s.power
  ((List.range 4).map (fun q => temp16 (highest (t.working (4 * q) 4)))).flatten ++ temp16 t.trf ++ temp16 (highest (t.working 24 4)) ++
  ((List.range 4).map (fun k => temp16 (s.hbm.hbmStacks.getD k {}).temp)).flatten ++
  natLe 2 (min 0xFFFF (tenthWatts p.energy (s.now - s.health.startAt))) ++ natLe 2 (min 0xFFFF (tenthWatts p.peak 100000)) ++
  natLe 4 (min 0xFFFFFFFF p.idleSteps) ++
  s.countersFrom 1 52 [2, 2] ++ [BitVec.ofNat 8 p.vid]

/-- Page 4: the host link. -/
def State.healthHost (s : State) : List Byte :=
  s.countersFrom 4 24 [4, 4, 2, 2] ++ [BitVec.ofNat 8 s.links.host.mset, BitVec.ofNat 8 s.links.host.st.row] ++
  s.countersFrom 4 38 [2, 2, 2, 2, 2, 2, 2, 2, 2, 2, 2, 2, 2]

/-- Page 5: the word of quarter `q`. -/
def State.columnWord (s : State) (q : Nat) : Nat :=
  let r := s.rotation q
  let at_ := fun (c : Option Nat) => c.getD 0x1FF
  let darned := (List.range 258).filter (fun c => r.role c == ColRole.darned)
  at_ (r.holding .board) + at_ (r.holding .spare) * 2 ^ 9 + at_ darned.head? * 2 ^ 18 + at_ (darned.getD 1 0x1FF) * 2 ^ 27 +
  r.darnPasses % 256 * 2 ^ 36 + b2n (s.inService q) * 2 ^ 44 + b2n (s.quarter q).untested * 2 ^ 45

/-- Page 6: the word of slice `i`. -/
def State.bankWord (s : State) (i : Nat) : Nat :=
  let sl := s.slice i
  let heldBy := fun (b : Nat) => (sl.numberOf b).getD 0x3F
  let out := fun (b : Nat) => let st := (sl.banks.getD b {}).status; b2n (st == .suspect || st == .retired)
  let tested := (List.range 34).find? (fun b => (sl.banks.getD b {}).status == .retired || (sl.banks.getD b {}).status == .suspect)
  heldBy 32 + heldBy 33 * 2 ^ 6 + (out 32 + 2 * out 33) * 2 ^ 12 + bitsMask 32 sl.gone * 2 ^ 14 +
  ((tested.map (fun b => (sl.banks.getD b {}).passes)).getD 0) % 256 * 2 ^ 46

/-- Pages 7 to 22: fabric port `n`. -/
def State.healthPort (s : State) (n : Nat) : List Byte :=
  let p := s.fport n
  [BitVec.ofNat 8 p.st.row, BitVec.ofNat 8 p.txSet, BitVec.ofNat 8 p.failedMask, 0] ++
  s.countersFrom (7 + n) 28 [4, 2, 2, 2, 2, 2, 2, 2, 2, 2, 2, 2, 2, 2, 2]

/-- R914: the violation pages: six entries in each. -/
def State.healthViolations (s : State) : List (List Byte) :=
  let vs := s.health.violations.filter (fun v => v.2 != 0)
  (List.range ((vs.length + 5) / 6)).map (fun p =>
    (((vs.drop (6 * p)).take 6).map (fun v => natLe 2 (v.1 % 65536) ++ [BitVec.ofNat 8 (v.1 / 65536)] ++ natLe 3 v.2)).flatten)

/-- R912, Table 16.10: the pages of a HEALTH event. -/
def State.healthPages (s : State) : List (List Byte) :=
  [ s.healthIdentity, s.healthThermal,
    s.countersFrom 2 24 [4, 2, 2, 2, 2, 2, 2, 2, 2, 4, 2, 2, 2, 2, 2],
    s.countersFrom 3 24 [4, 2, 2, 4, 2, 2, 4, 2, 2, 4, 2, 2, 2, 1],
    s.healthHost,
    ((List.range 4).map (fun q => natLe 8 (s.columnWord q))).flatten,
    ((List.range 4).map (fun i => natLe 8 (s.bankWord i))).flatten ++ [BitVec.ofNat 8 s.ceilingNow] ] ++
  (List.range 16).map s.healthPort ++ s.healthViolations

/-- R940, Table 16.6: the IMON_TRIP event of a HEALTH period in which a trip began. -/
def State.imonEvent (s : State) : State :=
  let p := s.power
  match p.firstTrip with
  | some (i, t) =>
    s.deviceEvent Code.imonTrip none
      (natLe 2 (min p.trips 0xFFFF) ++ natLe 2 (p.maxMean / 8) ++ natLe 2 i ++ natLe 2 0 ++ natLe 8 t ++ [BitVec.ofNat 8 p.vid])
  | none => s

/-- HEALTH_RECORD (R800, R912 to R914, R940, R948, R949): the event of a HEALTH period, and the start of the next. -/
def execHealthRecord (s : State) : Out :=
  .next (match s.health.dueAt with
    | none => s
    | some t =>
      if !s.running || !s.ready then s else
      let s1 := (s.advanceTo t).imonEvent
      let s2 := s1.deviceEventParts Code.health none s1.healthPages
      { s2 with
        health := { s2.health with seq := (s2.health.seq + 1) % 2 ^ 32, startAt := s2.now, dueAt := some (t + 1000000 * s2.profile.healthMs) }
        power := { s2.power with trips := 0, maxMean := 0, firstTrip := none, idleSteps := 0, energy := 0, intervals := 0, window := [], peak := 0 } })

end Sys2Proof.Machine
end

