-- ==== Sys2Proof/Machine/Switch.lean ====
section
/-! DEFINITION. Machine/Switch.lean: selecting a profile (§14.6), and the steps of a profile switch: stage, check, rinse, apply and
report (§14.7). -/
namespace Sys2Proof.Machine

/-! ### Selecting a profile -/

/-- PSEL_SAMPLE (R774 to R776): the pins are sampled every 10 µs; a value other than the one under debounce restarts the debounce. -/
def execPselSample (value : Nat) (s : State) : Out :=
  .next (
    if !s.running || !s.boot.latched || s.straps.pselLink then s else
    let s1 := s.advanceTo ((s.now / 10000 + 1) * 10000)
    let w := s1.switch
    if w.pselSince.isSome && w.pselValue == value % 8 then { s1 with switch := { w with pselAt := s1.now } }
    else { s1 with switch := { w with pselValue := value % 8, pselSince := some s1.now, pselAt := s1.now } })

/-- PSEL_DEBOUNCE_DONE (R774, R777, R779): the value has held in every sample of 1 ms and is taken; one that differs from the value last taken raises a
switch request.  The first value taken selects the bring-up profile. -/
def execPselDebounceDone (s : State) : Out :=
  .next (match s.switch.pselSince with
    | none => s
    | some t =>
      if !s.running || s.straps.pselLink || s.switch.pselTaken == some s.switch.pselValue || decide (s.switch.pselAt + 10000 < t + 1000000) then s else
      let s1 := s.advanceTo (t + 1000000)
      let w := s1.switch
      { s1 with switch := { w with
        pselTaken := some w.pselValue, queued := if w.pselTaken.isSome then some w.pselValue else w.queued
        pselFirst := if w.pselTaken.isSome then w.pselFirst else s1.now } })

/-! ### Abandoning a switch -/

/-- A context stays out of its slot until it is a candidate again: those that the rinse has spilled, by former slot (R375, R799). -/
def State.spilledToCandidates (s : State) : State :=
  ((List.range 64).filterMap (fun k => (s.switch.spilled.find? (fun x => x.2 == k)).map (·.1))).foldl State.makeCandidate s

/-- The spills of a rinse that have not begun are not made (R792). -/
def State.dropRinseSpills (s : State) : State :=
  s.dropInternal (fun i => match i with | .evict c => s.switch.toSpill.contains c && !s.spillBegun c | _ => false)

/-- R773, R779, R792, R934: a switch ends without an apply: the profile in force stays, CCLK and the voltage are those it asks for,
and PROFILE_REJECT is written. -/
def State.abandonSwitch (s : State) (r : Reject) : State :=
  let n := s.switch.number
  let s1 := if s.rinsing then s.dropRinseSpills else s
  let s2 := match s1.power.rising with
    | some (old, _) =>
      let s := s1.sendVid old
      { s with power := { s.power with vCode := old, rising := none } }
    | none => s1
  let s3 : State := { s2 with power := { s2.power with
    cclk := if s2.power.relocking then s2.profile.cclkMhz else s2.power.cclk, relocking := false } }
  let s4 := { s3 with switch := { s3.switch with step := .idle } }.spilledToCandidates
  let s5 : State := { s4 with switch := { s4.switch with rinse := false, toSpill := [], spilled := [], returned := [] } }
  (s5.rejectEvent n r).refreshStat

/-! ### Stage and check -/

/-- PROFILE_SWITCH_START (R773, R780 to R785): the queued request starts: its record is staged and checked. -/
def execProfileSwitchStart (s : State) : Out :=
  .next (match s.switch.queued with
    | none => s
    | some n =>
      if !s.running || !s.ready || s.switch.step != .idle then s else
      let s1 := ({ s with switch := { s.switch with queued := none, number := n } }).showStat 0xD
      match s1.checkRecord n false with
      | some r => (s1.rejectEvent n r).refreshStat
      | none =>
        let p := parseProfile ((assocGet s1.profStore n).getD [])
        let rinse := s1.needsRinse p
        { s1 with switch := { s1.switch with
          staged := p, rinse := rinse, step := if rinse then .waitRinse else .ready, waitPeriod := s1.period, toSpill := [], spilled := [], returned := [] } })

/-! ### The rinse -/

/-- R467: the instant at which the rinse starts: this one, or, while a claim is in force, the end of the frame period in which the wait
began. -/
def State.rinseInstant (s : State) : Nat :=
  if (List.range 4).any s.claimed then s.ownInstant (periodStart s.frameHz (Int.ofNat s.switch.waitPeriod + 1)) else s.now

/-- R788: the RESTORE of a candidate whose slot cannot stay is abandoned: it is a candidate in its place, with no slot. -/
def State.abandonRestore (s : State) (c : Nat) : State :=
  (((s.freeSlot c).dropInternal (fun i => i.ctx == c)).modEntry c (fun e => { e with restore := none, planes := [{}, {}] })).settle c

/-- R788: the candidates in slots whose RESTORE a rinse toward the staged profile abandons. -/
def State.restoresLost (s : State) : List Nat :=
  let p := s.switch.staged
  ((s.residents.filter (fun x => (s.entry x.2).restore.isSome &&
    (p.tilesPerCtx != s.profile.tilesPerCtx || decide (p.residentCtx ≤ x.1)))).map (·.2))

/-- R787, R788: what a rinse spills, by slot: the contexts of R788, and the evictions in progress. -/
def State.rinsePlan (s : State) : List Nat :=
  let spills := s.rinseSpills s.switch.staged
  (s.residents.map (·.2)).filter (fun c => spills.contains c || (s.internal.contains (.evict c) && s.spillBegun c))

/-- R786: a rinse request meets every track of a quarter; what it displaces is spilled whole (R340). -/
def State.rinsePreempt (s : State) (plan : List Nat) (q : Nat) : State :=
  let jobs := (s.quarter q).jobs
  let s1 := jobs.foldl (fun s j => s.preemptJob q j .rinse (j.kind == .evict || plan.contains j.ctx)) s
  jobs.foldl (fun s j => s.settle j.ctx) s1

/-- R790: the live planes held in the quarters that leave service are to be parked. -/
def State.parkLeaving (s : State) : State :=
  (List.range 4).foldl (fun s q =>
    if s.leavesWithSwitch q then
      ((s.quarter q).planes.filterMap (fun p => p.holder)).foldl (fun s h =>
        if ((s.entry h.1).plane h.2).live = 0 then s else s.queueInternal (.park h.1 h.2)) s
    else s) s

/-- R472, Table 9.4: the quarters with reserved work are suspended with cause PROFILE. -/
def State.suspendProfile (s : State) : State :=
  s.quartersUp.foldl (fun s q => if (s.reservedOn q).isEmpty then s else s.suspend q suspProfile) s

/-- RINSE_START (R467, R786 to R791, R793): the rinse begins; the return tests of the quarters that the staged mask names run. -/
def execRinseStart (returns : List (Nat × List Finding)) (s : State) : Out :=
  .next (
    if !s.running || s.switch.step != .waitRinse then s else
    let s1 := (s.advanceTo s.rinseInstant).suspendProfile
    let plan := s1.rinsePlan
    let s2 := s1.quartersUp.foldl (fun s q => s.rinsePreempt plan q) s1
    let s3 := s2.restoresLost.foldl State.abandonRestore s2
    let s4 := s3.dropInternal (fun i => match i with | .evict c => !plan.contains c | _ => false)
    let s5 := plan.foldl (fun s c => s.queueInternal (.evict c)) s4
    let tested := returns.filter (fun x => decide (x.1 < 4) && bitAt s.switch.staged.quarterMask x.1 && (s.quarter x.1).removed)
    let s6 : State := { s5 with switch := { s5.switch with
      step := .rinsing, rinseAt := s5.now, toSpill := plan, spilled := [], returned := tested } }
    s6.parkLeaving.rinseProgress)

/-- RINSE_TIMEOUT (R792): 100 ms after the rinse start. -/
def execRinseTimeout (s : State) : Out :=
  .next (
    if !s.rinsing || !s.running then s else
    (s.advanceTo (s.switch.rinseAt + 100000000)).abandonSwitch { code := Code.rinseTimeout })

/-- VID_SETTLE_TIMEOUT (R934): 100 µs after the code that was sent for a CCLK rise. -/
def execVidSettleTimeout (s : State) : Out :=
  .next (match s.power.rising with
    | none => s
    | some (_, t) =>
      if s.switch.step = .idle then s else (s.advanceTo (t + 100000)).abandonSwitch { code := Code.vidSettle })

/-! ### The window drain -/

/-- R796: a transaction in a changed window range is outstanding. -/
def State.windowBusy (s : State) : Bool := s.fabric.txns.any (fun t => t.state != .posted && s.inSwitchRange t.spa)

/-- R1033, Table 10.3, Table 10.4: a transaction that was held back is classified under the windows now in force. -/
def State.reclassify (s : State) (t : Txn) : State :=
  let drop := fun (s : State) => s.modFabric (fun f => { f with txns := f.txns.filter (fun x => x.id != t.id) })
  let now := s.place t.spa
  let write := t.isWrite
  match t.owner with
  | .op c =>
    if now.plain || (now == .notify && t.opc == 0x07) then
      s.modFabric (fun f => { f with txns := f.txns.map (fun x => if x.id = t.id then { x with notify := now == .notify } else x) })
    else
      -- The segment issues none of its writes.
      let s1 := s.modFabric (fun f => { f with txns := f.txns.filter (fun x => !(x.owner == .op c && x.isWrite == write && x.state == .posted && x.seq == t.seq)) })
      let routine := match s.jobOf c with
        | some (_, j) => if j.kind = .restore then some 0x83 else if j.kind = .evict then some 0x82 else none
        | none => none
      s1.faultContext c { code := Code.windowFault, write := write, va := t.va, spa := t.spa, routine := routine }
  | .walk _ _ => if now.plain then s else drop s
  | .record _ =>
    if now.plain then s
    else if t.kind = .read then drop s      -- ATT classifies the descriptor's page again
    else (drop s).recordLost 1
  | .device => if now.plain then s else if t.kind = .read then drop s else (drop s).recordLost 1
  | .transit _ _ => s
  | .aborted _ => if now.plain then s else drop s
  | .inbound _ _ _ _ =>
    match now with
    | .void => s.endTxn t [] [] Code.stVoid
    | .notify => if write && t.len == 8 && t.spa % 8 == 0 then
        s.modFabric (fun f => { f with txns := f.txns.map (fun x => if x.id = t.id then { x with notify := true } else x) })
      else s.endTxn t [] [] Code.stNotify
    | _ => s

/-! ### The apply edge -/

/-- R129, R122: the line counts of every slice under the profile now in force, with the slots and the lines that are in use. -/
def State.rebalance (s : State) : State :=
  let p := s.profile
  let holders := s.entries.filter (fun x => x.2.slot.isSome)
  let share : Int := Int.ofNat s.slotShare
  { s with slices := s.slices.zipIdx.map (fun x =>
      let sl := x.1
      let inUse := fun (c : Charge) => (sl.lines.filter (fun l => l.2.charge == c)).length
      let n := holders.foldl (fun (n : Int) h =>
        if !h.2.isolated then n else if h.2.isoSlice = x.2 then n - 3 * share else n + share) (sharedOf p sl.gone.length - Int.ofNat (inUse .shared))
      { sl with
        sharedFree := n.toNat, owed := (-n).toNat, reserveFree := Config.parkReserve - inUse .reserve, ceiling := none
        floorFree := holders.foldl (fun l h =>
          let k := h.2.slot.getD 0
          let f := if !h.2.isolated then p.basketFloor / 4 else if h.2.isoSlice = x.2 then p.basketFloor else 0
          if f = 0 then l else assocPut l k (f - inUse (.floor k))) [] }) }

/-- R179: each hold above the new BACKOFF_CAP is cut to it. -/
def Arb.cutHolds (a : Arb) (cap : Nat) : Arb := { a with hold := a.hold.map (min cap) }

/-- R179 at every port and allocator. -/
def State.cutHolds (s : State) : State :=
  let cap := s.profile.backoffCap
  { s with
    ports := s.ports.map (fun p => { p with arb := p.arb.cutHolds cap })
    slices := s.slices.map (fun sl => { sl with alloc := sl.alloc.cutHolds cap }) }

/-- R696, Table 13.7: a port whose PORT_CFG changes goes to DOWN, and then to TRAIN if it is enabled. -/
def State.reconfigurePort (s : State) (old : List PortCfg) (n : Nat) : State :=
  let cfg := s.profile.portCfg.getD n {}
  if old.getD n {} = cfg then s else
  let s1 := s.portDown n
  if cfg.cls = 0 then s1 else (s1.modFport n (fun p => { p with attempts := 0 })).beginTrain n .train

/-- R791, R889, R909: a quarter whose return test passed comes back into service.  A column that the fuses record fails its test too. -/
def State.returnQuarter (s : State) (x : Nat × List Finding) : State :=
  let fs := s.fuseFindings ++ x.2
  if quarterPasses x.1 fs then
    ((s.modQuarter x.1 (fun u => u.afterTest x.1 fs)).darnEvents x.1 (s.quarter x.1).rotation).deviceEvent Code.quarterReturn none
      ([5, BitVec.ofNat 8 x.1, 0, 0, 0xFF, 0xFF])
  else s

/-- R954: P_therm and B are cut to the new cap when the cap in force or THERM_CFG changes. -/
def State.cutPower (s : State) (oldCap : Nat) (old : Profile) : State :=
  if s.capW = oldCap ∧ s.profile.ttgt = old.ttgt ∧ s.profile.thys = old.thys then s else
  let s1 : State := { s with power := { s.power with ptherm := min s.power.ptherm (20 * s.capW) } }
  { s1 with power := { s1.power with account := min s1.power.account s1.accountCap } }

/-- R797, R918, R921, R932, R933, R950: CCLK at the apply edge, and the lower code that follows a fall. -/
def State.applyClock (s : State) (old : Profile) : State :=
  if s.profile.cclkMhz = old.cclkMhz then s else
  let lower := if vidOf s.profile.cclkMhz < vidOf old.cclkMhz then some (vidOf s.profile.cclkMhz, s.now + 1000) else s.power.lower
  { s with power := { s.power with cclk := s.profile.cclkMhz, relocking := false, rising := none, lower := lower } }

/-- R469, R470: a changed FRAME_HZ waits for a boundary common to both rates. -/
def State.applyRate (s : State) (old : Profile) : State :=
  let inForce := s.oldHz.getD old.frameHz
  { s with oldHz := if inForce = s.profile.frameHz then none else some inForce }

/-- R797, R798: every staged field takes effect at one edge. -/
def State.installProfile (s : State) : State :=
  let old := s.profile
  let oldCap := s.capW
  let s1 : State := { s with
    profile := s.switch.staged, profNum := s.switch.number, profRom := false
    pepoch := if s.pepoch = 0xFFFFFFFF then 1 else s.pepoch + 1 }
  let s2 := ((((s1.applyRate old).applyClock old).cutPower oldCap old).rebalance).cutHolds
  let s3 := (List.range 128).foldl State.advanceEpoch s2
  let s4 := (List.range 16).foldl (fun s n => s.reconfigurePort old.portCfg n) s3
  let s5 := s4.switch.returned.foldl State.returnQuarter s4
  (s5.residents.map (·.2)).foldl (fun s c => if s.mustLeave (s.entry c) then s.rebindAway c else s) s5

/-- R797 to R801: the apply edge and the report. -/
def State.applySwitch (s : State) : State :=
  let held := s.fabric.txns.filter (fun t => t.state == .posted && s.inSwitchRange t.spa)
  let rinse := s.switch.rinse
  let n := s.switch.spilled.length
  let s1 := s.suspendProfile.installProfile
  let s2 := { s1 with switch := { s1.switch with step := .idle, rinse := false } }.spilledToCandidates
  let s3 := held.foldl (fun s t => if s.inFlight t.id then s.reclassify t else s) s2
  let s4 : State := { s3 with switch := { s3.switch with toSpill := [], spilled := [], returned := [] } }
  (s4.appliedEvent rinse n).refreshStat

/-- PROFILE_APPLY (R784, R793 to R801, R1033): the apply edge, once every track is free and the spills and parks of a rinse are done, no
transaction in a changed window range is outstanding, and for a CCLK change the PLL has locked with the voltage reached. -/
def execProfileApply (s : State) : Out :=
  .next (
    if !s.running || !s.ready then s else
    let s1 := s.rinseProgress
    if s1.switch.step != .ready || s1.windowBusy then s1 else
    match s1.checkStaged s1.switch.staged false with
    | some r => s1.abandonSwitch r
    | none => s1.applySwitch)

end Sys2Proof.Machine
end

