-- ==== Sys2Proof/Machine/Vector.lean ====
section
/-! DEFINITION. Machine/Vector.lean: the operations of the vector unit (§2.9, §6.8 to §6.10): VAD, VMU, VMX, VMN, VSC, VEX, VRC, VRS,
VTR, VRQ, VRR, SMX and NRM.  Each command runs the routine of its operation on, up to its next wait or its commit point. -/
namespace Sys2Proof.Machine

/-! ### Results and what they raise -/

/-- A result before quantisation, with ACC_RANGE and VEC_DOMAIN (R48, R68, R69). -/
structure Res where
  val : Val
  range : Bool := false
  domain : Bool := false
  deriving DecidableEq, Repr, Inhabited

/-- A rounded element as a result. -/
def Rounded.res (r : Rounded) : Res := { val := r.val.val, range := r.range, domain := r.domain }

/-- R64: a primitive that rounds, over values. -/
def rnd (v : Val) : Res := (roundVal v).res

/-- A result with no condition. -/
def exact (v : Val) : Res := { val := v }

/-- A result carries on what the values it was computed from raised. -/
def Res.also (r : Res) (xs : List Res) : Res :=
  { r with range := r.range || xs.any (·.range), domain := r.domain || xs.any (·.domain) }

/-! ### Element-wise operations (Table 6.7) -/

/-- Table 6.7: the result of an element-wise operation on element `a`, second operand `b` and constant `c`. -/
def elemRes (o : Nat) (a b c : Val) : Res :=
  if o = 0x30 then rnd (a.add b)
  else if o = 0x31 then rnd (a.mul b)
  else if o = 0x32 then exact (a.max b)
  else if o = 0x33 then exact (a.min b)
  else if o = 0x34 then rnd (a.mul c)
  else if o = 0x35 then
    let x := rnd (a.mul c)
    (liftKernel exp2Real x.val).res.also [x]
  else if o = 0x36 then (liftKernel rcpReal a).res
  else if o = 0x37 then (liftKernel rsqReal a).res
  else exact a

/-- Element (r, k) of a tile. -/
def Tile.at_ (t : Tile) (r k : Nat) : Val := let w := t.getD r Row.zero; elemVal w.scale (w.elems.getD k 0)

/-- R298, Table 6.8: the second operand tile of ordinal `o`, if the operation reads one. -/
def vecSecond (p : List Byte) (o : Nat) : Option Nat :=
  let b := vecBsrc p
  if !usesXb (opcOf p) b then none
  else some (byteAt p 49 + (if b = 0 then o else if b = 2 then o % vecBn p else o / vecBn p))

/-- R298, Table 6.8: element (r, k) of the second operand, from its tile. -/
def secondAt (p : List Byte) (t : Tile) (r k : Nat) : Val :=
  let b := vecBsrc p
  if b = 1 then (vecCst p).val else if b = 2 then t.at_ 0 k else if b = 3 then t.at_ r 0 else t.at_ r k

/-- The 32 results of row `r` of an element-wise operation. -/
def elemRow (p : List Byte) (a b : Tile) (r : Nat) : List Res :=
  (List.range 32).map (fun k => elemRes (opcOf p) (a.at_ r k) (secondAt p b r k) (vecCst p).val)

/-- R62, R301: an output tile: ordinal `o`, its 32 rows of results. -/
def outTile (p : List Byte) (o : Nat) (rows : List (List Res)) : Tile :=
  rows.zipIdx.map (fun x => quantRow (qmodeAt p 53) (o * 1024 + x.2 * 32) (x.1.map (·.val)))

/-! ### Row operations (§6.10) -/

/-- The sum of a list of values; poison if any is poison. -/
def sumVals (xs : List Val) : Val := xs.foldl Val.add (.real Dy.zero)

/-- The row sum of a row of values given tile by tile: R-accumulated in ascending tile order (§6.10). -/
def rowSum (tiles : List (List Val)) : Res :=
  tiles.foldl (fun acc t => (rnd (acc.val.add (sumVals t))).also [acc]) (exact (.real Dy.zero))

/-- The maximum of a list of values, poison if any is poison (Table 2.5). -/
def maxVals : List Val → Val
  | [] => .real Dy.zero
  | v :: vs => vs.foldl Val.max v

/-- The members of the valid set among a row's values: position and value. -/
def validRow {α : Type} (nc : Nat) (xs : List α) : List (Nat × α) := (xs.zipIdx.map (fun x => (x.2, x.1))).filter (fun x => decide (x.1 < nc))

/-- The values of a list of positions and values, tile by tile. -/
def byTile (bn : Nat) (xs : List (Nat × Val)) : List (List Val) :=
  (List.range bn).map (fun j => (xs.filter (fun x => x.1 / 32 == j)).map (·.2))

/-- R303: the value that VRR writes for a row of values. -/
def reduceRow (p : List Byte) (xs : List Val) : Res :=
  let v := validRow (vecNc p) xs
  if vecFn p then exact (maxVals (v.map (·.2))) else rowSum (byTile (vecBn p) v)

/-- A row of SMX or NRM: the results of its valid positions in order, +0 elsewhere; the first carries what was raised on the way. -/
def padRow (len : Nat) (outs : List Res) (raised : List Res) : List Res :=
  let xs := match outs with
    | [] => []
    | x :: rest => x.also raised :: rest
  xs ++ List.replicate (len - xs.length) (exact (.real Dy.zero))

/-- R304: one row of SMX. -/
def smxRow (p : List Byte) (xs : List Val) : List Res :=
  let v := validRow (vecNc p) xs
  if v.any (fun x => x.2 == .poison) then padRow xs.length (v.map (fun _ => exact .poison)) [] else
  let c := (vecCst p).val
  let mx := maxVals (v.map (·.2))
  let es := v.map (fun x =>
    let d := rnd (x.2.add mx.neg)
    let m := rnd (d.val.mul c)
    (x.1, (liftKernel exp2Real m.val).res.also [d, m]))
  let sum := rowSum (byTile (vecBn p) (es.map (fun x => (x.1, x.2.val))))
  let g := (liftKernel rcpReal sum.val).res
  padRow xs.length (es.map (fun e => (rnd (e.2.val.mul g.val)).also [e.2])) [sum, g]

/-- R305: one row of NRM. -/
def nrmRow (p : List Byte) (xs : List Val) : List Res :=
  let v := validRow (vecNc p) xs
  if v.any (fun x => x.2 == .poison) then padRow xs.length (v.map (fun _ => exact .poison)) [] else
  let c := (vecCst p).val
  let sum := rowSum (byTile (vecBn p) v)
  let mu := if vecFn p then exact (.real Dy.zero) else (rnd (sum.val.mul c)).also [sum]
  let ds := v.map (fun x => (x.1, rnd (x.2.add mu.val.neg)))
  let ps := ds.map (fun d => (d.1, rnd (d.2.val.mul d.2.val)))
  let total := rowSum (byTile (vecBn p) (ps.map (fun x => (x.1, x.2.val))))
  let m := rnd (total.val.mul c)
  let w := rnd (m.val.add (vecCst2 p).val)
  let g := (liftKernel rsqReal w.val).res
  padRow xs.length (ds.map (fun d => (rnd (d.2.val.mul g.val)).also [d.2])) ([mu, total, m, w, g] ++ ps.map (·.2))

/-! ### The tiles of a segment -/

/-- Output tiles of a segment: ordinal of each in the operation, the tile that it is, and whether a condition was raised. -/
structure VecOut where
  tiles : List (Nat × Tile)
  range : Bool := false
  domain : Bool := false
  deriving DecidableEq, Repr, Inhabited

/-- Row `r` of tile row `i`: its values over the BN tiles. -/
def sourceRow (p : List Byte) (read : Nat → Tile) (i r : Nat) : List Val :=
  ((List.range (vecBn p)).map (fun j => (List.range 32).map (fun k => (read (byteAt p 48 + i * vecBn p + j)).at_ r k))).flatten

/-- The output of ordinal `o` of an operation of one tile for each ordinal (§6.9). -/
def elemOut (p : List Byte) (read : Nat → Tile) (o : Nat) : VecOut :=
  let a := read (byteAt p 48 + o)
  if opcOf p = 0x39 then { tiles := [(byteAt p 50 + o, a.regroup)] }
  else
    let b := match vecSecond p o with | some n => read n | none => Tile.zero
    let rows := (List.range 32).map (elemRow p a b)
    { tiles := [(byteAt p 50 + o, outTile p o rows)], range := rows.any (·.any (·.range)), domain := rows.any (·.any (·.domain)) }

/-- The output of tile row `i` of VRR (R303). -/
def reduceOut (p : List Byte) (read : Nat → Tile) (i : Nat) : VecOut :=
  let rows := (List.range 32).map (fun r => reduceRow p (sourceRow p read i r) :: List.replicate 31 (exact (.real Dy.zero)))
  { tiles := [(byteAt p 50 + i, outTile p i rows)], range := rows.any (·.any (·.range)), domain := rows.any (·.any (·.domain)) }

/-- The output of tile row `i` of SMX or NRM (R304, R305). -/
def rowOut (p : List Byte) (f : List Byte → List Val → List Res) (read : Nat → Tile) (i : Nat) : VecOut :=
  let rows := (List.range 32).map (fun r => f p (sourceRow p read i r))
  { tiles := (List.range (vecBn p)).map (fun j =>
      (byteAt p 50 + i * vecBn p + j, outTile p (i * vecBn p + j) (rows.map (fun r => (r.drop (32 * j)).take 32))))
    range := rows.any (·.any (·.range)), domain := rows.any (·.any (·.domain)) }

/-! ### Running a segment -/

/-- The tiles read for an element-wise segment: each source, and its second operand where the tile changes (Table 6.10). -/
def elemReads (p : List Byte) (ords : List Nat) : List Nat :=
  (ords.foldl (fun (acc : List Nat × Option Nat) o =>
    let b := vecSecond p o
    (acc.1 ++ [byteAt p 48 + o] ++ (if vecBsrc p != 0 && b == acc.2 then [] else b.toList), b)) ([], none)).1

/-- The tiles read for a row operation, pass by pass: one pass for VRR, two for NRM without a mean, else three (Table 6.10, log
entry 14). -/
def rowReads (p : List Byte) (ords : List Nat) : List Nat :=
  let passes := if opcOf p = 0x38 then 1 else if opcOf p = 0x41 ∧ vecFn p then 2 else 3
  (ords.map (fun i => (List.replicate passes ((List.range (vecBn p)).map (fun j => byteAt p 48 + i * vecBn p + j))).flatten)).flatten

/-- A vector segment: its tiles are read, its results staged and written through the vector unit's write lane. -/
def State.vecSegment (s : State) (q c : Nat) (reads : List Nat) (outs : List VecOut) : Prog :=
  let dests := (outs.map (fun o => o.tiles.map (·.1))).flatten
  let s0 := if (s.job c).asked then s else
    (s.postLines q laneDvRead kindVec c (reads.filterMap (s.readPort c))).modJob q c (fun j => { j with asked := true })
  (s0.stageLines q c laneDvWrite kindDrw dests).andThen fun s =>
  let s1 := s.postOnce q c (fun s => s.postLines q laneDvWrite kindDrw c (dests.map (s.stagedPort c)))
  (Prog.until (s1.lanesDone q c) s1).andThen fun s =>
  let s2 := s.stageTiles q c (outs.map (·.tiles)).flatten []
  .stop (s2.modJob q c (fun j => { j with accRange := outs.any (·.range), vecDomain := outs.any (·.domain) }))

/-- The routine of an element-wise operation (R297 to R302, R307). -/
def State.vecElem (s : State) (opc c : Nat) (found : List Found) : State :=
  s.runOp opc c found (fun s q j op =>
    s.vecSegment q c (elemReads op.pkt j.ordinals) (j.ordinals.map (elemOut op.pkt (s.readFor q c found))))

/-- The routine of a row operation (R303 to R305, R308). -/
def State.vecRow (s : State) (opc c : Nat) (found : List Found) (out : List Byte → (Nat → Tile) → Nat → VecOut) : State :=
  s.runOp opc c found (fun s q j op =>
    s.vecSegment q c (rowReads op.pkt j.ordinals) (j.ordinals.map (out op.pkt (s.readFor q c found))))

/-- VAD: add(a, b) (Table 6.7). -/
def execVad (ctx : Nat) (found : List Found) (s : State) : Out := opCommand ctx found (s.vecElem 0x30 ctx found)

/-- VMU: mul(a, b) (Table 6.7). -/
def execVmu (ctx : Nat) (found : List Found) (s : State) : Out := opCommand ctx found (s.vecElem 0x31 ctx found)

/-- VMX: max(a, b) (Table 6.7). -/
def execVmx (ctx : Nat) (found : List Found) (s : State) : Out := opCommand ctx found (s.vecElem 0x32 ctx found)

/-- VMN: min(a, b) (Table 6.7). -/
def execVmn (ctx : Nat) (found : List Found) (s : State) : Out := opCommand ctx found (s.vecElem 0x33 ctx found)

/-- VSC: scale(a, c) (Table 6.7). -/
def execVsc (ctx : Nat) (found : List Found) (s : State) : Out := opCommand ctx found (s.vecElem 0x34 ctx found)

/-- VEX: exp2(R(a × c)) (Table 6.7, R67). -/
def execVex (ctx : Nat) (found : List Found) (s : State) : Out := opCommand ctx found (s.vecElem 0x35 ctx found)

/-- VRC: rcp(a) (Table 6.7, R68). -/
def execVrc (ctx : Nat) (found : List Found) (s : State) : Out := opCommand ctx found (s.vecElem 0x36 ctx found)

/-- VRS: rsq(a) (Table 6.7, R69). -/
def execVrs (ctx : Nat) (found : List Found) (s : State) : Out := opCommand ctx found (s.vecElem 0x37 ctx found)

/-- VTR: regroup (Table 6.7, R82). -/
def execVtr (ctx : Nat) (found : List Found) (s : State) : Out := opCommand ctx found (s.vecElem 0x39 ctx found)

/-- VRQ: a, exact (Table 6.7). -/
def execVrq (ctx : Nat) (found : List Found) (s : State) : Out := opCommand ctx found (s.vecElem 0x3A ctx found)

/-- VRR: the sum or the maximum of each row (R303). -/
def execVrr (ctx : Nat) (found : List Found) (s : State) : Out := opCommand ctx found (s.vecRow 0x38 ctx found reduceOut)

/-- SMX (R304). -/
def execSmx (ctx : Nat) (found : List Found) (s : State) : Out := opCommand ctx found (s.vecRow 0x40 ctx found (fun p => rowOut p smxRow))

/-- NRM (R305). -/
def execNrm (ctx : Nat) (found : List Found) (s : State) : Out := opCommand ctx found (s.vecRow 0x41 ctx found (fun p => rowOut p nrmRow))

end Sys2Proof.Machine
end

