-- ==== Sys2Proof/Machine/Dispatch.lean ====
section
/-! DEFINITION. Machine/Dispatch.lean: one arm for each command, each a direct call of its meaning. -/
namespace Sys2Proof.Machine

/-- The effect of a command on everything but the queue. -/
def exec (i : Instr) (s : State) : Host.Outcome State Fault Refusal :=
  match i with
  | .pwrgoodFall => Sys2Proof.Machine.execPwrgoodFall s
  | .resetAssert => Sys2Proof.Machine.execResetAssert s
  | .resetRelease selfRefreshed => Sys2Proof.Machine.execResetRelease selfRefreshed s
  | .strapLatch boot remapEn sealLocal pselLink testmode fuseOk trngOk => Sys2Proof.Machine.execStrapLatch boot remapEn sealLocal pselLink testmode fuseOk trngOk s
  | .levelPinMeasure samples => Sys2Proof.Machine.execLevelPinMeasure samples s
  | .pllsLocked => Sys2Proof.Machine.execPllsLocked s
  | .flashSfdpRead found => Sys2Proof.Machine.execFlashSfdpRead found s
  | .holdCleared => Sys2Proof.Machine.execHoldCleared s
  | .imageCopyVerify readOk copy => Sys2Proof.Machine.execImageCopyVerify readOk copy s
  | .microRamRemap => Sys2Proof.Machine.execMicroRamRemap s
  | .bist findings => Sys2Proof.Machine.execBist findings s
  | .bringupApply reached romReached => Sys2Proof.Machine.execBringupApply reached romReached s
  | .hbmTraining attempts repaired => Sys2Proof.Machine.execHbmTraining attempts repaired s
  | .hbmInitialise => Sys2Proof.Machine.execHbmInitialise s
  | .fabricTrainingEnd => Sys2Proof.Machine.execFabricTrainingEnd s
  | .readiness => Sys2Proof.Machine.execReadiness s
  | .bringupPhaseTimeout => Sys2Proof.Machine.execBringupPhaseTimeout s
  | .statHoldExpiry => Sys2Proof.Machine.execStatHoldExpiry s
  | .pllLockLoss core => Sys2Proof.Machine.execPllLockLoss core s
  | .sdrefclkLoss quad => Sys2Proof.Machine.execSdrefclkLoss quad s
  | .energyInterval => Sys2Proof.Machine.execEnergyInterval s
  | .powerStepDecision quarters => Sys2Proof.Machine.execPowerStepDecision quarters s
  | .imonSample halfAmps => Sys2Proof.Machine.execImonSample halfAmps s
  | .imonTripHoldExpiry => Sys2Proof.Machine.execImonTripHoldExpiry s
  | .thermalCeilingUpdate => Sys2Proof.Machine.execThermalCeilingUpdate s
  | .staticBandEval => Sys2Proof.Machine.execStaticBandEval s
  | .sensorSample readings failed => Sys2Proof.Machine.execSensorSample readings failed s
  | .hbmTemperatureRead readings failed => Sys2Proof.Machine.execHbmTemperatureRead readings failed s
  | .vidSettleTimeout => Sys2Proof.Machine.execVidSettleTimeout s
  | .vidLowerCode => Sys2Proof.Machine.execVidLowerCode s
  | .trfRefresh slice bank found => Sys2Proof.Machine.execTrfRefresh slice bank found s
  | .trfRefreshUrgent slice bank found => Sys2Proof.Machine.execTrfRefreshUrgent slice bank found s
  | .refIntervalChange => Sys2Proof.Machine.execRefIntervalChange s
  | .bankRetire slice bank cause => Sys2Proof.Machine.execBankRetire slice bank cause s
  | .bankHandoverSwap slice => Sys2Proof.Machine.execBankHandoverSwap slice s
  | .bankEvacuate slice bank => Sys2Proof.Machine.execBankEvacuate slice bank s
  | .bankMarch slice bank ok => Sys2Proof.Machine.execBankMarch slice bank ok s
  | .bankReinstate slice bank => Sys2Proof.Machine.execBankReinstate slice bank s
  | .portRound slice port found => Sys2Proof.Machine.execPortRound slice port found s
  | .debugTransfer slice line => Sys2Proof.Machine.execDebugTransfer slice line s
  | .allocatorRound slice => Sys2Proof.Machine.execAllocatorRound slice s
  | .arrayStepStart quarter => Sys2Proof.Machine.execArrayStepStart quarter s
  | .fabricTargetRound target path words => Sys2Proof.Machine.execFabricTargetRound target path words s
  | .hbmReadReturn txn errs => Sys2Proof.Machine.execHbmReadReturn txn errs s
  | .hbmBankRefresh dram => Sys2Proof.Machine.execHbmBankRefresh dram s
  | .hbmRetrain => Sys2Proof.Machine.execHbmRetrain s
  | .hbmScrubRead stack corrected bad => Sys2Proof.Machine.execHbmScrubRead stack corrected bad s
  | .storeScrub found => Sys2Proof.Machine.execStoreScrub found s
  | .trngRefill => Sys2Proof.Machine.execTrngRefill s
  | .saltDrawResume ctx => Sys2Proof.Machine.execSaltDrawResume ctx s
  | .oprReceive link pkt => Sys2Proof.Machine.execOprReceive link pkt s
  | .nop ctx found => Sys2Proof.Machine.execNop ctx found s
  | .att ctx found => Sys2Proof.Machine.execAtt ctx found s
  | .det ctx found => Sys2Proof.Machine.execDet ctx found s
  | .spl ctx found => Sys2Proof.Machine.execSpl ctx found s
  | .frm ctx found => Sys2Proof.Machine.execFrm ctx found s
  | .fnc ctx found => Sys2Proof.Machine.execFnc ctx found s
  | .ntf ctx found => Sys2Proof.Machine.execNtf ctx found s
  | .ldt ctx found => Sys2Proof.Machine.execLdt ctx found s
  | .stt ctx found => Sys2Proof.Machine.execStt ctx found s
  | .cpt ctx found => Sys2Proof.Machine.execCpt ctx found s
  | .zrt ctx found => Sys2Proof.Machine.execZrt ctx found s
  | .rls ctx found => Sys2Proof.Machine.execRls ctx found s
  | .aop ctx found => Sys2Proof.Machine.execAop ctx found s
  | .acl ctx found => Sys2Proof.Machine.execAcl ctx found s
  | .mma ctx found => Sys2Proof.Machine.execMma ctx found s
  | .mms ctx found => Sys2Proof.Machine.execMms ctx found s
  | .asd ctx found => Sys2Proof.Machine.execAsd ctx found s
  | .adr ctx found => Sys2Proof.Machine.execAdr ctx found s
  | .vad ctx found => Sys2Proof.Machine.execVad ctx found s
  | .vmu ctx found => Sys2Proof.Machine.execVmu ctx found s
  | .vmx ctx found => Sys2Proof.Machine.execVmx ctx found s
  | .vmn ctx found => Sys2Proof.Machine.execVmn ctx found s
  | .vsc ctx found => Sys2Proof.Machine.execVsc ctx found s
  | .vex ctx found => Sys2Proof.Machine.execVex ctx found s
  | .vrc ctx found => Sys2Proof.Machine.execVrc ctx found s
  | .vrs ctx found => Sys2Proof.Machine.execVrs ctx found s
  | .vrr ctx found => Sys2Proof.Machine.execVrr ctx found s
  | .vtr ctx found => Sys2Proof.Machine.execVtr ctx found s
  | .vrq ctx found => Sys2Proof.Machine.execVrq ctx found s
  | .smx ctx found => Sys2Proof.Machine.execSmx ctx found s
  | .nrm ctx found => Sys2Proof.Machine.execNrm ctx found s
  | .translationWalk ctx va => Sys2Proof.Machine.execTranslationWalk ctx va s
  | .segmentCommit quarter track held => Sys2Proof.Machine.execSegmentCommit quarter track held s
  | .operationComplete ctx => Sys2Proof.Machine.execOperationComplete ctx s
  | .park ctx found => Sys2Proof.Machine.execPark ctx found s
  | .unpark ctx found => Sys2Proof.Machine.execUnpark ctx found s
  | .evict ctx found => Sys2Proof.Machine.execEvict ctx found s
  | .restore ctx found => Sys2Proof.Machine.execRestore ctx found s
  | .ismove ctx found => Sys2Proof.Machine.execIsmove ctx found s
  | .candidateSlot => Sys2Proof.Machine.execCandidateSlot s
  | .contextRebind ctx => Sys2Proof.Machine.execContextRebind ctx s
  | .periodStart => Sys2Proof.Machine.execPeriodStart s
  | .frameDeadline ctx => Sys2Proof.Machine.execFrameDeadline ctx s
  | .flitTransmit link => Sys2Proof.Machine.execFlitTransmit link s
  | .flitReceive link flit => Sys2Proof.Machine.execFlitReceive link flit s
  | .retryReqReceive link flit => Sys2Proof.Machine.execRetryReqReceive link flit s
  | .retryReqRepeat link => Sys2Proof.Machine.execRetryReqRepeat link s
  | .idleFlitSend link => Sys2Proof.Machine.execIdleFlitSend link s
  | .replayTimeout link => Sys2Proof.Machine.execReplayTimeout link s
  | .replayLimit link => Sys2Proof.Machine.execReplayLimit link s
  | .creditStallTimeout link => Sys2Proof.Machine.execCreditStallTimeout link s
  | .linkStateTimeout => Sys2Proof.Machine.execLinkStateTimeout s
  | .moduleActiveChange mask => Sys2Proof.Machine.execModuleActiveChange mask s
  | .moduleRetrain module => Sys2Proof.Machine.execModuleRetrain module s
  | .initReceive link flit => Sys2Proof.Machine.execInitReceive link flit s
  | .initDoneReceive link flit => Sys2Proof.Machine.execInitDoneReceive link flit s
  | .mrd link pkt => Sys2Proof.Machine.execMrd link pkt s
  | .mwr link pkt => Sys2Proof.Machine.execMwr link pkt s
  | .mfa link pkt => Sys2Proof.Machine.execMfa link pkt s
  | .mcs link pkt => Sys2Proof.Machine.execMcs link pkt s
  | .rwr link pkt => Sys2Proof.Machine.execRwr link pkt s
  | .cpldReceive link pkt => Sys2Proof.Machine.execCpldReceive link pkt s
  | .cplReceive link pkt => Sys2Proof.Machine.execCplReceive link pkt s
  | .hostCompletionTimeout tag => Sys2Proof.Machine.execHostCompletionTimeout tag s
  | .fabricCompletionTimeout link tag => Sys2Proof.Machine.execFabricCompletionTimeout link tag s
  | .tagHoldExpiry link tag => Sys2Proof.Machine.execTagHoldExpiry link tag s
  | .sealPacket link pkt => Sys2Proof.Machine.execSealPacket link pkt s
  | .ringPacket link pkt => Sys2Proof.Machine.execRingPacket link pkt s
  | .profilePacket link pkt => Sys2Proof.Machine.execProfilePacket link pkt s
  | .timePacket link pkt => Sys2Proof.Machine.execTimePacket link pkt s
  | .haltPacket link pkt => Sys2Proof.Machine.execHaltPacket link pkt s
  | .haltCack => Sys2Proof.Machine.execHaltCack s
  | .resumePacket link pkt => Sys2Proof.Machine.execResumePacket link pkt s
  | .linkViolationReport => Sys2Proof.Machine.execLinkViolationReport s
  | .fpTrainingFrame port frames => Sys2Proof.Machine.execFpTrainingFrame port frames s
  | .fpCodedStreamStart port => Sys2Proof.Machine.execFpCodedStreamStart port s
  | .fpMarkerLock port marks => Sys2Proof.Machine.execFpMarkerLock port marks s
  | .fpStateChange port => Sys2Proof.Machine.execFpStateChange port s
  | .fpStateTimeout port => Sys2Proof.Machine.execFpStateTimeout port s
  | .fpFailedRetry port => Sys2Proof.Machine.execFpFailedRetry port s
  | .fpUeRateRetrain port count corrected => Sys2Proof.Machine.execFpUeRateRetrain port count corrected s
  | .fpLaneFail port lane => Sys2Proof.Machine.execFpLaneFail port lane s
  | .width port flit => Sys2Proof.Machine.execWidth port flit s
  | .widthSwitch port => Sys2Proof.Machine.execWidthSwitch port s
  | .fpLaneRetrain port lane frames => Sys2Proof.Machine.execFpLaneRetrain port lane frames s
  | .fpLaneBerRemove port lane => Sys2Proof.Machine.execFpLaneBerRemove port lane s
  | .packetForward => Sys2Proof.Machine.execPacketForward s
  | .forwardHoldExpiry => Sys2Proof.Machine.execForwardHoldExpiry s
  | .pinLapse index => Sys2Proof.Machine.execPinLapse index s
  | .streamEpochResume dest => Sys2Proof.Machine.execStreamEpochResume dest s
  | .pselSample value => Sys2Proof.Machine.execPselSample value s
  | .pselDebounceDone => Sys2Proof.Machine.execPselDebounceDone s
  | .profileSwitchStart => Sys2Proof.Machine.execProfileSwitchStart s
  | .rinseStart returns => Sys2Proof.Machine.execRinseStart returns s
  | .rinseTimeout => Sys2Proof.Machine.execRinseTimeout s
  | .profileApply => Sys2Proof.Machine.execProfileApply s
  | .rotationBoundary quarter runs => Sys2Proof.Machine.execRotationBoundary quarter runs s
  | .shadowStep quarter => Sys2Proof.Machine.execShadowStep quarter s
  | .shadowCompare quarter equal => Sys2Proof.Machine.execShadowCompare quarter equal s
  | .quarterRemove quarter cause => Sys2Proof.Machine.execQuarterRemove quarter cause s
  | .debugBist findings => Sys2Proof.Machine.execDebugBist findings s
  | .healthRecord => Sys2Proof.Machine.execHealthRecord s
  | .pwrgoodRise => Sys2Proof.Machine.execPwrgoodRise s
  | .handshakeEntry => Sys2Proof.Machine.execHandshakeEntry s
  | .jtagHaltInstrument qmask set => Sys2Proof.Machine.execJtagHaltInstrument qmask set s

end Sys2Proof.Machine
end

