-- ==== Sys2Proof/Safety.lean ====
section
/-! DEFINITION. Safety.lean: the terms in which claims about runs are stated: the shape of the machine, the invariant that every step
keeps, the set-up that only straps, level pins and profile switches change, and what no operation but a few ever changes. -/
namespace Sys2Proof.Machine

/-- The parts have the numbers that chapter 01 gives: four quarters, four slices of four ports, four stacks, sixteen fabric ports. -/
structure State.Shape (s : State) : Prop where
  quarters : s.quarters.length = 4
  slices : s.slices.length = 4
  ports : s.ports.length = 16
  hbmStacks : s.hbm.hbmStacks.length = 4
  fports : s.links.ports.length = 16

/-- The invariant of the machine: the shape, the canonical form of memory, and a pool of at most 1,024 bits (R557). -/
structure State.Inv (s : State) : Prop where
  shape : s.Shape
  mem : Memory.wf s.hbm.mem = true
  pool : s.hbm.pool ≤ 1024

/-- R27: the device's configuration: profile, its number, its kind and epoch, straps and level pins. -/
def State.setup (s : State) : Profile × Nat × Bool × Nat × Straps × Levels :=
  (s.profile, s.profNum, s.profRom, s.pepoch, s.straps, s.levels)

/-- What every operation on the state leaves: the queue, the fuses, the form of memory, the bound of the pool and the shape; and with
`b` the set-up, and time that does not run back.  Only the resets, the latching of the straps, the level pins and the two kinds of
profile apply are without `b`. -/
structure Stays (b : Bool) (s t : State) : Prop where
  queue : t.pending = s.pending
  fuses : t.fuses = s.fuses
  setup : b = true → t.setup = s.setup
  time : b = true → s.now ≤ t.now
  mem : Memory.wf s.hbm.mem = true → Memory.wf t.hbm.mem = true
  pool : s.hbm.pool ≤ 1024 → t.hbm.pool ≤ 1024
  quarters : s.quarters.length = 4 → t.quarters.length = 4
  slices : s.slices.length = 4 → t.slices.length = 4
  ports : s.ports.length = 16 → t.ports.length = 16
  hbmStacks : s.hbm.hbmStacks.length = 4 → t.hbm.hbmStacks.length = 4
  fports : s.links.ports.length = 16 → t.links.ports.length = 16

/-- A command answers a next state of which `post` holds. -/
def Completes (c : Instr) (s : State) (post : State → Prop) : Prop := ∃ t, exec c s = .next t ∧ post t

/-- Nothing runs: every context is DETACHED, no routine or transaction is left, both links are DOWN and there is no seal. -/
structure State.Quiet (s : State) : Prop where
  entries : s.entries = []
  internal : s.internal = []
  jobs : ∀ q, (s.quarter q).jobs = []
  txns : s.fabric.txns = []
  host : s.links.host.st = .down
  fports : ∀ n, (s.fport n).st = .down
  sealKey : s.sealKey = none

/-- Context `c` runs operation `op` on quarter `q`: the first of its queue and not done, with its routine `j` short of its commit
point and not waiting for a salt. -/
structure State.Runs (s : State) (c q : Nat) (j : Job) (op : Op) : Prop where
  ctx : c < 512
  head : (s.entry c).headOp = some op
  left : op.done = false
  job : s.jobOf c = some (q, j)
  kind : j.kind = .op
  gather : j.stage = .gather
  salt : j.awaitsSalt = false

/-- Context `c` could start operation `op` on quarter `q` now: it runs nothing, its tracks are free and no claim shuts it out. -/
structure State.CouldStart (s : State) (c q : Nat) (op : Op) : Prop where
  ctx : c < 512
  head : (s.entry c).headOp = some op
  left : op.done = false
  fresh : op.issued = false
  shape : s.quarters.length = 4
  quarter : q < 4
  idle : s.jobOf c = none
  could : s.couldRun c = some (q, op)
  tracks : s.tracksOpen q (opcTracks (opcOf op.pkt)) = true
  claim : s.claimed q = false

/-- The pages of a list of ranges are translated for the routine of context `c`, and no part of them may not be accessed. -/
def State.Placed (s : State) (c : Nat) (ranges : List (Nat × Nat)) : Prop :=
  (∀ a ∈ pagesOf ranges, (s.job c).pages.any (fun p => p.1 == a / 4096) = true) ∧
  ∀ p ∈ (s.job c).places ranges, (s.place p.2.1).plain = true

/-- The staging lines of a list of tiles are there, and every line transfer of the routine has been made. -/
def State.LinesReady (s : State) (c q : Nat) (tiles : List Nat) : Prop :=
  (∀ n ∈ tiles, (s.stagedLine c n).isSome = true) ∧ (s.job c).fetched = true ∧ s.lanesDone q c = true

/-- The routine of context `c` on quarter `q` is at its commit point with a list of value writes staged: tile and rows. -/
def State.AtCommit (s t : State) (c q : Nat) (values : List (Nat × Tile)) : Prop :=
  ∃ k, t.jobOf c = some (q, k) ∧ k.stage = .staged ∧
    k.staged = values.map (fun x => { tile := x.1, line := s.stagedLine c x.1, rows := x.2 })

/-- Every byte of a list of ranges has been read for the routine of context `c`: the pieces are `ps`. -/
def State.AtHand (s : State) (c : Nat) (ranges : List (Nat × Nat)) (ps : List Piece) : Prop :=
  s.Placed c ranges ∧ s.gather c ranges = some ps

/-- Of a view with a residency map, operation `op` has read the bytes that hold the bits of a list of block tiles. -/
def Op.MapRead (op : Op) (v : View) (tiles : List (Nat × Nat)) : Prop :=
  v.rmen = true → ∃ bs, op.mapBits = some bs ∧ ∀ a ∈ v.mapBytes tiles, bs.any (fun b => b.1 == a) = true

/-- R96a: the line map names each line once, in rising order, and no owner twice. -/
def Slice.OneOwner (sl : Slice) : Prop := (sl.lines.map (·.1)).Pairwise (· < ·) ∧ (sl.lines.map (·.2.owner)).Nodup

/-- The operation commands: the opcode of Table 5.13, the context and the errors met. -/
def opCommandOf : Instr → Option (Nat × Nat × List Found)
  | .nop c f => some (0x00, c, f) | .det c f => some (0x02, c, f) | .spl c f => some (0x03, c, f) | .frm c f => some (0x05, c, f)
  | .fnc c f => some (0x06, c, f) | .ntf c f => some (0x07, c, f) | .ldt c f => some (0x10, c, f) | .stt c f => some (0x11, c, f)
  | .cpt c f => some (0x12, c, f) | .zrt c f => some (0x13, c, f) | .rls c f => some (0x14, c, f) | .aop c f => some (0x20, c, f)
  | .mma c f => some (0x21, c, f) | .mms c f => some (0x22, c, f) | .adr c f => some (0x23, c, f) | .acl c f => some (0x24, c, f)
  | .asd c f => some (0x25, c, f) | .vad c f => some (0x30, c, f) | .vmu c f => some (0x31, c, f) | .vmx c f => some (0x32, c, f)
  | .vmn c f => some (0x33, c, f) | .vsc c f => some (0x34, c, f) | .vex c f => some (0x35, c, f) | .vrc c f => some (0x36, c, f)
  | .vrs c f => some (0x37, c, f) | .vrr c f => some (0x38, c, f) | .vtr c f => some (0x39, c, f) | .vrq c f => some (0x3A, c, f)
  | .smx c f => some (0x40, c, f) | .nrm c f => some (0x41, c, f) | _ => none

/-- Table 6.7: the vector operations with one output tile for each ordinal. -/
def elementwise : List Nat := [0x30, 0x31, 0x32, 0x33, 0x34, 0x35, 0x36, 0x37, 0x39, 0x3A]

/-- §6.10: the output of tile row `i` of a row operation. -/
def rowOutOf (p : List Byte) (read : Nat → Tile) (i : Nat) : VecOut :=
  if opcOf p = 0x38 then reduceOut p read i else if opcOf p = 0x40 then rowOut p smxRow read i else rowOut p nrmRow read i

/-- R163, R168: a lane's queue after a grant that moves `n` lines: the first request leaves when it has none left. -/
def afterGrant (n : Nat) : List LaneReq → List LaneReq
  | [] => []
  | x :: rest => if x.left ≤ n then rest else { x with left := x.left - n } :: rest

/-- The requests of lane index `r`, whichever of them are posted. -/
def State.laneQueue (s : State) (r : Nat) : List LaneReq :=
  ((s.quarter (r / 8)).lanes.getD (r % 8) []).map (fun x => { x with cls := none })

end Sys2Proof.Machine
end

