-- ==== Sys2Proof/Certificates/Slice0/Obligations.lean ====
section
/-! DEFINITION. Certificates/Slice0/Obligations.lean: the statements for the provers. -/
open Sys2Proof Sys2Proof.Machine

/-- A step runs the command at the front of the queue, and idles on an empty one (1.2 How the parts meet).  For every command c and state s
whose queue has c at its front, step s is exec c on s with the rest of the queue; on an empty queue a step answers the state unchanged
(the queue and its idling are the model's, log entry 1: the table has commands of their own for what the clock brings about). -/
def Obligations.StepRunsFrontCommand : Prop :=
  (∀ (c : Instr) (rest : List Instr) (s : State), s.pending = c :: rest → step s = exec c { s with pending := rest }) ∧
    (∀ s : State, s.pending = [] → step s = .next s)

/-- No command changes the queue or the fuses, and the device's own time never runs back but at a release of RESET_N (R651, R816, R821, 15.6
BIST, 14.1 Straps).  Whatever the command, a next state has the same queue of waiting commands (exec has its effect on everything but the
queue) and the same fuses, and for every command but RESET_RELEASE the device's own time (the count that the timebase is made of) stays
where it is or moves on. -/
def Obligations.CommandsLeaveQueueFusesAndTime : Prop :=
  ∀ (c : Instr) (s t : State), exec c s = .next t → t.pending = s.pending ∧ t.fuses = s.fuses ∧
    ((∀ b, c ≠ .resetRelease b) → s.now ≤ t.now)

/-- A command answers a next state exactly when every unit it names exists; otherwise it faults (1.1 Parts and where they sit, R674, R25).
For every command whose units all exist (quarters, tracks, slices, banks, lines, stacks, targets, links, ports, lanes, modules, context
numbers, devices and found errors in range) and every state, exec answers a next state: no command faults for what the state holds, and
none is refused.  A command with a unit that the part does not have answers the fault noSuchUnit: the model's own stop, for no such
command exists on the part. -/
def Obligations.CommandsStopOnlyForAbsentUnits : Prop :=
  ∀ (c : Instr) (s : State), (c.wf = true → ∃ t, exec c s = .next t) ∧
    (c.wf = false → ∃ what index, exec c s = .fault (.noSuchUnit what index))

/-- The state after reset meets the invariant and nothing runs in it (R350, R815, R817, R862, 15.1 Supplies and resets).  State.reset meets
the invariant of StepKeepsInvariant, is quiet (every context DETACHED, no routine, both links DOWN, no seal), shows STAT 0x0 with RESET_N
asserted, lists no memory, uses no line and has an empty queue.  Where the spec gives a register no reset value the value is the model's
(log entry 26). -/
def Obligations.ResetIsQuietAndWellShaped : Prop :=
  State.reset.Inv ∧ State.reset.Quiet ∧ State.reset.boot.stat = 0 ∧ State.reset.boot.resetN = false ∧
    State.reset.hbm.mem = [] ∧ State.reset.pending = [] ∧ ∀ i, (State.reset.slice i).OneOwner

/-- Every step keeps the invariant of the machine (R557, R530, 1.1 Parts and where they sit, 11.4 Memory contents).  From every state that
meets the invariant (four quarters, four slices with sixteen ports, four stacks and sixteen fabric ports; memory in its canonical form; at
most 1,024 bits in the TRNG pool), every step that answers a next state answers one that meets it. -/
def Obligations.StepKeepsInvariant : Prop :=
  ∀ s t : State, s.Inv → step s = .next t → t.Inv

/-- Configuration changes only by straps, level pins, profile applies and reset (R26, R27, 14.7 Switching profiles, 15.1 Supplies and resets).
No command but STRAP_LATCH, LEVEL_PIN_MEASURE, BRINGUP_APPLY, PROFILE_APPLY and the two assertions of reset (PWRGOOD_FALL, RESET_ASSERT)
changes the profile in force, its number, kind or epoch, the straps or the level pins; in particular no read or write of memory, no packet
and no operation does. -/
def Obligations.OnlySetupCommandsChangeConfiguration : Prop :=
  ∀ (c : Instr) (s t : State), exec c s = .next t → c ≠ .pwrgoodFall → c ≠ .resetAssert → c ≠ .profileApply →
    (∀ mv, c ≠ .levelPinMeasure mv) → (∀ a b, c ≠ .bringupApply a b) →
    (∀ b r l p m f g, c ≠ .strapLatch b r l p m f g) →
    t.profile = s.profile ∧ t.profNum = s.profNum ∧ t.profRom = s.profRom ∧ t.pepoch = s.pepoch ∧ t.straps = s.straps ∧
      t.levels = s.levels

/-- PWRGOOD_FALL and RESET_ASSERT: everything stops, STAT 0x0, and power loss keeps no HBM content (R815, R817, R818, R820, R401, R862).  With
PWRGOOD high, PWRGOOD_FALL, and with RESET_N high, RESET_ASSERT complete: every routine stops, the contexts are DETACHED, both links are
DOWN, the seal is discarded, STAT shows 0x0, and the fuses stay.  PWRGOOD_FALL keeps no HBM content; RESET_ASSERT keeps every byte when no
write was issued and not yet admitted, in the fabric or in a link's buffer.  Otherwise nothing changes. -/
def Obligations.ResetAssertionStopsTheDevice : Prop :=
  ∀ s : State,
    (s.boot.pwrgood = true → Completes .pwrgoodFall s (fun t => t.Quiet ∧ t.boot.pwrgood = false ∧ t.boot.resetN = false ∧
      t.boot.stat = 0 ∧ t.hbm.mem = [] ∧ t.hbm.badWords = [] ∧ t.fuses = s.fuses ∧ t.now = s.now)) ∧
    (s.boot.pwrgood = false → exec .pwrgoodFall s = .next s) ∧
    (s.boot.resetN = true → Completes .resetAssert s (fun t => t.Quiet ∧ t.boot.resetN = false ∧ t.boot.stat = 0 ∧
      t.fuses = s.fuses ∧ t.now = s.now ∧
      ((∀ x ∈ s.fabric.txns, x.isWrite = true → x.state ≠ .posted) → s.bufferedWrites = [] → t.hbm.mem = s.hbm.mem ∧ t.hbm.badWords = s.hbm.badWords))) ∧
    (s.boot.resetN = false → exec .resetAssert s = .next s)

/-- RESET_RELEASE and PWRGOOD_RISE (R816, R651, R821, R847).  With PWRGOOD high and RESET_N low, RESET_RELEASE completes: RESET_N is high, the
timebase is 0, and HBM is to be initialised exactly when the release is a power-on reset or some stack had not completed self-refresh
entry; nothing else changes.  With PWRGOOD low, PWRGOOD_RISE completes: PWRGOOD is high and the next release is a power-on reset; nothing
else changes. -/
def Obligations.ReleaseOfResetStartsTheTimebase : Prop :=
  ∀ s : State,
    (∀ sr : Bool, s.boot.resetN = false → s.boot.pwrgood = true → Completes (.resetRelease sr) s (fun t =>
      t = { s with now := 0, tbOffset := 0, boot := t.boot } ∧ t.timebase = 0 ∧ t.boot.resetN = true ∧ t.boot.pwrgood = true ∧
      t.boot.stat = s.boot.stat ∧ t.boot.powerOn = s.boot.powerOn ∧ t.boot.needInit = (s.boot.powerOn || !sr))) ∧
    (∀ sr : Bool, s.boot.resetN = true ∨ s.boot.pwrgood = false → exec (.resetRelease sr) s = .next s) ∧
    (s.boot.pwrgood = false → Completes .pwrgoodRise s (fun t => t = { s with boot := t.boot } ∧ t.boot.pwrgood = true ∧
      t.boot.powerOn = true ∧ t.boot.resetN = s.boot.resetN)) ∧
    (s.boot.pwrgood = true → exec .pwrgoodRise s = .next s)

/-- STRAP_LATCH and LEVEL_PIN_MEASURE: straps latched, levels decided, or a fatal code (R739, R742, R749, R750, R753, R755, 15.2 The bring-up
phases).  After the release and before any latch, STRAP_LATCH completes with the straps at the sampled values and the time at the third
REFCLK edge; fuses that do not read bring FUSE_FAIL; later strap levels change nothing.  Under STAT 0x1, LEVEL_PIN_MEASURE completes once:
with an IDH level below 8 and a device ID below N_max the levels are those that the means of the 16 samples of each pin decide and STAT
0x2 follows (the voltage kept for HEALTH is the mean rounded down, the model's choice, log entry 80); otherwise LVL_INVALID is fatal.
Straps, levels, bring-up and time are all that changes. -/
def Obligations.StrapsAreLatchedOnce : Prop :=
  ∀ s : State,
    (∀ (b : Nat) (r l p m f g : Bool), s.boot.resetN = true → s.boot.latched = false → s.boot.phase = 0 →
      Completes (.strapLatch b r l p m f g) s (fun t =>
        t.straps = { boot := b % 4, remapEn := r, sealLocal := l, pselLink := p, testmode := m } ∧ t.boot.latched = true ∧
        t.boot.trngOk = g ∧ t.now = max s.now 30 ∧
        (f = true → t = { s with now := t.now, straps := t.straps, boot := t.boot } ∧ t.boot.phase = 1 ∧
          t.boot.holding = (b % 4 == 3)) ∧
        (f = false → t.boot.phase = 0xF ∧ t.boot.fatal = some Code.fuseFail))) ∧
    (∀ (b : Nat) (r l p m f g : Bool), s.boot.latched = true → exec (.strapLatch b r l p m f g) s = .next s) ∧
    (∀ xs : List (List Nat), s.boot.phase = 1 → s.levels.measured = false → Completes (.levelPinMeasure xs) s (fun t =>
      t.levels = { mv := (List.range 4).map (fun i => samplesSum (xs.getD i []) / 16), level := (List.range 4).map (fun i => decideLevel (xs.getD i []))
                   measured := true } ∧
      (if 8 ≤ decideLevel (xs.getD 0 []) ∨ nMaxTable.getD (decideLevel (xs.getD 2 [])) 1 ≤
            16 * decideLevel (xs.getD 0 []) + decideLevel (xs.getD 1 [])
        then t.boot.phase = 0xF ∧ t.boot.fatal = some Code.lvlInvalid
        else t.boot.phase = 2 ∧ t = { s with now := t.now, levels := t.levels, boot := t.boot }))) ∧
    (∀ xs : List (List Nat), s.levels.measured = true → exec (.levelPinMeasure xs) s = .next s)

/-- PLLS_LOCKED, FLASH_SFDP_READ, HOLD_CLEARED and MICRO_RAM_REMAP (R760, R823, R825, R826, R831, R837, R917, R922, R929, R971, R985).  Under
STAT 0x2, PLLS_LOCKED completes: both PLLs are locked, CCLK is 800 MHz and VID carries the boot code 0x78; a device that reads flash
enters 0x3, one whose BOOT reads none goes on to BIST or the apply.  Under 0x3 with flash read and no hold, FLASH_SFDP_READ completes with
the capture point at which the signature reads, with the read mode (0 where it reads at none) and the idle data lines high, and enters
0x4.  HOLD_CLEARED clears the hold and notes when; without a hold it changes nothing.  At the end of 0x6, MICRO_RAM_REMAP remaps exactly
where REMAP_EN is set and a copy passed. -/
def Obligations.PllsFlashAndHold : Prop :=
  ∀ s : State,
    (s.boot.phase = 2 → Completes .pllsLocked s (fun t => t = { s with boot := t.boot, power := t.power } ∧ t.boot.ioLock = true ∧
      t.boot.coreLock = true ∧ t.power.cclk = 800 ∧ t.power.vCode = 0x78 ∧ t.power.taken = 0x78 ∧
      t.power.strobes = s.power.strobes + 1 ∧
      t.boot.phase = (if s.straps.boot = 2 then (if s.boot.powerOn then 7 else 0x10) else 3))) ∧
    (∀ mode passes, s.boot.phase = 3 → s.boot.holding = false → s.straps.boot ≠ 2 → Completes (.flashSfdpRead ⟨mode, passes⟩) s (fun t =>
      t = { s with boot := t.boot } ∧ t.boot.phase = 4 ∧ t.boot.spiHigh = true ∧ t.boot.capture = capturePoint passes ∧
      t.boot.sfdp = some (if (capturePoint passes).isNone then 0 else min mode 2))) ∧
    (∀ found, s.boot.holding = true → exec (.flashSfdpRead found) s = .next s) ∧
    (s.boot.holding = true → Completes .holdCleared s (fun t => t = { s with boot := { s.boot with holding := false, holdEnd := s.now } })) ∧
    (s.boot.holding = false → exec .holdCleared s = .next s) ∧
    (s.boot.phase = 6 → Completes .microRamRemap s (fun t => t = { s with boot := t.boot } ∧
      t.boot.remapped = (s.straps.remapEn && s.boot.copyUsed.isSome) ∧
      t.boot.phase = (if s.boot.powerOn ∨ s.straps.boot = 1 then 7 else 0x10))) ∧
    (s.boot.phase ≠ 6 → exec .microRamRemap s = .next s)

/-- IMAGE_COPY_VERIFY: a copy that passes fills the profile store, two failures load nothing (R766, R767, R768, R769, R827, R828, R829, R830,
R831).  Under STAT 0x4 with fewer than two copies read, IMAGE_COPY_VERIFY completes.  A copy that meets every verification order gives the
profile store its valid records and the default profile number and bring-up reaches 0x6; a first copy that fails leaves STAT 0x4 with its
failing order recorded; after a second failure no copy is used, micro-RAM holds nothing and bring-up reaches 0x6.  Only bring-up, the
stores and time change.  In any other phase nothing changes. -/
def Obligations.ImagesAreVerifiedOnce : Prop :=
  ∀ (s : State) (ok : Bool) (copy : List Byte),
    (s.boot.phase = 4 → s.boot.copies.length < 2 → Completes (.imageCopyVerify ok copy) s (fun t =>
      t = { s with now := t.now, boot := t.boot, stores := t.stores, profStore := t.profStore } ∧
      t.boot.copies = s.boot.copies ++ [s.copyOrder ok copy] ∧
      (s.copyOrder ok copy = 0 → t.boot.copyUsed = some s.boot.copies.length ∧ t.boot.pdef = byteAt copy 7 % 8 ∧
        t.profStore = storedRecords copy ∧ t.boot.phase = 6) ∧
      (s.copyOrder ok copy ≠ 0 → t.boot.copyUsed = s.boot.copyUsed ∧ t.profStore = s.profStore ∧
        (s.boot.copies.length = 0 → t.boot.phase = 4) ∧ (s.boot.copies.length = 1 → t.boot.phase = 6 ∧ t.stores.micro = [])))) ∧
    (s.boot.phase ≠ 4 ∨ 2 ≤ s.boot.copies.length → exec (.imageCopyVerify ok copy) s = .next s)

/-- BIST: each quarter is in service or out as the findings say, and all out is fatal (R838, R839, R840, R841, R879, 15.6 BIST).  Under STAT
0x7 with four quarters, BIST completes: a quarter is removed exactly when the columns that the fuses and the findings name in it are more
than one or a unit of it failed; the columns of its array take the roles of a fresh test; the findings are recorded.  With a quarter left
bring-up goes on to the apply; with none BIST_FAIL is fatal.  In any other phase nothing changes. -/
def Obligations.BistSetsServiceOfQuarters : Prop :=
  ∀ (s : State) (fs : List Finding),
    (s.boot.phase = 7 → s.quarters.length = 4 → Completes (.bist fs) s (fun t =>
      t.boot.findings = fs ∧
      (∀ q, q < 4 → (t.quarter q).removed = !quarterPasses q (s.fuseFindings ++ fs) ∧
        (t.quarter q).rotation.roles = rolesAfterTest (columnsIn q (s.fuseFindings ++ fs))) ∧
      ((∀ q, q < 4 → quarterPasses q (s.fuseFindings ++ fs) = false) → t.boot.phase = 0xF ∧ t.boot.fatal = some Code.bistFail) ∧
      ((∃ q, q < 4 ∧ quarterPasses q (s.fuseFindings ++ fs) = true) → t.boot.phase = 0x10 ∧ t.profile = s.profile))) ∧
    (s.boot.phase ≠ 7 → exec (.bist fs) s = .next s)

/-- BRINGUP_APPLY: the selected profile, else the ROM profile, else PROFILE_NONE (R777, R832, R833, R834, R835, R836, R798).  At the bring-up
apply with a selected profile number (debounced, or the default under PSEL_LINK), BRINGUP_APPLY completes.  A record that passes every
check, with the voltage reached, is the profile in force with epoch 1 and its CCLK; otherwise the default ROM profile is, where it passes
the check of the staged fields and its voltage is reached, and the refusing code is kept; otherwise PROFILE_NONE is fatal.  Before the
debounce is complete, and in any other phase, nothing changes. -/
def Obligations.BringupApplyTakesOneProfile : Prop :=
  ∀ (s : State) (r rr : Bool),
    (s.boot.phase = 0x10 → s.straps.pselLink = true ∨ s.switch.pselTaken.isSome = true →
      (s.checkRecord s.bringUpNumber true = none → r = true → Completes (.bringupApply r rr) s (fun t =>
        t.profile = parseProfile ((assocGet s.profStore s.bringUpNumber).getD []) ∧ t.profNum = s.bringUpNumber ∧
        t.profRom = false ∧ t.pepoch = 1 ∧ t.power.cclk = t.profile.cclkMhz ∧ t.boot.applied = true ∧ t.boot.phase = 8)) ∧
      (∀ code, ((∃ x, s.checkRecord s.bringUpNumber true = some x ∧ code = x.code) ∨
          (s.checkRecord s.bringUpNumber true = none ∧ r = false ∧ code = Code.vidSettle)) →
        Completes (.bringupApply r rr) s (fun t => t.boot.refused = code ∧
          (if s.checkStaged {} true = none ∧ rr = true
            then t.profile = {} ∧ t.profNum = 0 ∧ t.profRom = true ∧ t.pepoch = 1 ∧ t.boot.applied = true ∧ t.boot.phase = 8
            else t.boot.phase = 0xF ∧ t.boot.fatal = some Code.profileNone)))) ∧
    (s.boot.phase = 0x10 → s.straps.pselLink = false → s.switch.pselTaken = none → exec (.bringupApply r rr) s = .next s) ∧
    (s.boot.phase ≠ 0x10 → exec (.bringupApply r rr) s = .next s)

/-- HBM_TRAINING and HBM_INITIALISE (R843, R844, R845, R846, R847, R848).  Under STAT 0x8, HBM_TRAINING completes once: with every stack
trained in at most three attempts all are trained and out of self-refresh, and the host link follows at once where no initialisation is
due; a stack that took more is HBM_TRAIN_FAIL.  HBM_INITIALISE, where training is done and initialisation is due, completes with every
byte of memory 0 and every word good, and the host link goes to TRAIN under STAT 0x9. -/
def Obligations.HbmComesUpInitialised : Prop :=
  ∀ s : State, s.boot.phase = 8 →
    (∀ at_ rep : List Nat, s.boot.trained = false → s.hbm.hbmStacks.length = 4 →
      ((∀ k, k < 4 → at_.getD k 1 ≤ 3) → Completes (.hbmTraining at_ rep) s (fun t => t.boot.trained = true ∧
        t.hbm.mem = s.hbm.mem ∧ (∀ k, k < 4 → (t.hbm.hbmStacks.getD k {}).trained = true ∧ (t.hbm.hbmStacks.getD k {}).selfRefresh = false) ∧
        (if s.boot.needInit then t.boot.phase = 8 else t.boot.phase = 9 ∧ t.links.host.st = .train))) ∧
      ((∃ k, k < 4 ∧ 3 < at_.getD k 1) → Completes (.hbmTraining at_ rep) s (fun t =>
        t.boot.phase = 0xF ∧ t.boot.fatal = some Code.hbmTrainFail))) ∧
    (s.boot.trained = true → s.boot.needInit = true → Completes .hbmInitialise s (fun t =>
      (∀ a, Memory.read t.hbm.mem a = 0) ∧ t.hbm.badWords = [] ∧ t.hbm.hbmStacks = s.hbm.hbmStacks ∧ t.boot.initialised = true ∧
      t.boot.phase = 9 ∧ t.links.host.st = .train ∧ t.links.ports = s.links.ports)) ∧
    (s.boot.trained = false ∨ s.boot.needInit = false → exec .hbmInitialise s = .next s)

/-- FABRIC_TRAINING_END, READINESS and STAT_HOLD_EXPIRY (R855, R857, R858, R859, R860, R912, R987).  Under STAT 0xA, FABRIC_TRAINING_END
completes: readiness is due, with the second of R855 spent unless every enabled port is ACTIVE or FAILED; only bring-up and time change.
When readiness is due, READINESS completes: the device is ready and the first HEALTH record is due HEALTH_MS later.  A STAT value held
back is shown once its microsecond is over; with none held back nothing changes. -/
def Obligations.ReadinessFollowsFabricTraining : Prop :=
  ∀ s : State,
    (s.boot.phase = 0xA → Completes .fabricTrainingEnd s (fun t => t = { s with now := t.now, boot := t.boot } ∧
      t.boot.phase = 0x11 ∧
      t.now = (if (s.links.ports.zipIdx).all (fun p => (s.profile.portCfg.getD p.2 {}).cls == 0 || p.1.st == .active || p.1.st == .failed)
        then s.now else max s.now (s.boot.phaseAt + 1000000000)))) ∧
    (s.boot.phase = 0x11 → Completes .readiness s (fun t => t.ready = true ∧ t.hbm = s.hbm ∧ t.profile = s.profile ∧
      t.quarters = s.quarters ∧ t.entries = s.entries ∧ t.health.dueAt = some (s.now + 1000000 * s.profile.healthMs))) ∧
    (∀ v, s.boot.statNext = some v → Completes .statHoldExpiry s (fun t => t = { s with now := t.now, boot := t.boot } ∧
      t.boot.stat = v ∧ t.boot.statNext = none ∧ t.now = max s.now (s.boot.statSince + 1000) ∧ t.boot.statSince = t.now)) ∧
    (s.boot.statNext = none → exec .statHoldExpiry s = .next s)

/-- BRINGUP_PHASE_TIMEOUT, PLL_LOCK_LOSS and SDREFCLK_LOSS (R822, R856, R861, R919, R920, 15.8 Links, 17.1 Clocks).  In a phase that Table
15.4 names no other outcome for, BRINGUP_PHASE_TIMEOUT completes with PHASE_TIMEOUT fatal (PLL_LOCK_FAIL under 0x2), at the limit of the
phase; under 0xA readiness follows.  While the device runs with its IOCLK PLL locked, PLL_LOCK_LOSS of that PLL, or of the core PLL
outside a relock, completes with PLL_LOCK_FAIL.  SDREFCLK_LOSS of quad q completes: no port of the quad is ACTIVE or in RESYNC, and
memory, contexts and the state of the host link are as before. -/
def Obligations.PhasesThatFailEndBringup : Prop :=
  ∀ s : State,
    (s.boot.phase = 1 ∨ s.boot.phase = 4 ∨ s.boot.phase = 5 ∨ s.boot.phase = 6 ∨ s.boot.phase = 7 ∨ s.boot.phase = 8 →
      Completes .bringupPhaseTimeout s (fun t => t.boot.phase = 0xF ∧ t.boot.fatal = some Code.phaseTimeout ∧
        t.now = max s.now (s.boot.phaseAt + phaseLimit s.boot.phase))) ∧
    (s.boot.phase = 3 → s.boot.holding = false → Completes .bringupPhaseTimeout s (fun t => t.boot.phase = 0xF ∧
      t.boot.fatal = some Code.phaseTimeout)) ∧
    (s.boot.phase = 2 → Completes .bringupPhaseTimeout s (fun t => t.boot.phase = 0xF ∧ t.boot.fatal = some Code.pllLockFail)) ∧
    (s.boot.phase = 0xA → Completes .bringupPhaseTimeout s (fun t => t.boot.phase = 0x11 ∧
      t.now = max s.now (s.boot.phaseAt + 1000000000))) ∧
    (s.boot.phase = 0xB → exec .bringupPhaseTimeout s = .next s) ∧
    (∀ core : Bool, s.running = true → s.boot.ioLock = true → (core = true → s.power.relocking = false) →
      Completes (.pllLockLoss core) s (fun t => t.boot.phase = 0xF ∧ t.boot.fatal = some Code.pllLockFail ∧
        (core = true → t.boot.coreLock = false) ∧ (core = false → t.boot.ioLock = false))) ∧
    (∀ q, q < 4 → s.links.ports.length = 16 → Completes (.sdrefclkLoss q) s (fun t =>
      (∀ i, i < 4 → (t.fport (4 * q + i)).st.isUp = false) ∧ t.hbm.mem = s.hbm.mem ∧ t.entries = s.entries ∧ t.quarters = s.quarters ∧
      t.links.host.st = s.links.host.st))

/-- ENERGY_INTERVAL and STATIC_BAND_EVAL (R942, R944, R945, R949, R952, 17.5 The power model).  While the device runs with a profile applied,
ENERGY_INTERVAL completes at the next microsecond of the timebase: the account gains the income of one microsecond, pays for the
interval's events and for the static power, and stops at 100 µs of income; the interval's sums start again from 0.  On a running device
STATIC_BAND_EVAL completes, 1 ms after the last: the static band is that of the hottest junction.  Nothing but power, time and the instant
of the evaluation changes. -/
def Obligations.EnergyAccountTakesIncomeAndCost : Prop :=
  ∀ s : State,
    (s.boot.applied = true → s.running = true → Completes .energyInterval s (fun t =>
      t = { s with now := t.now, power := t.power } ∧ s.now < t.now ∧ t.now ≤ s.now + 1000 ∧ (t.now + s.tbOffset) % 1000 = 0 ∧
      t.power.account = min (s.power.account + Int.ofNat (s.income 1) - Int.ofNat s.power.eint -
        Int.ofNat (s.power.band * 10000 * energyUnit)) (Int.ofNat (s.income 100)) ∧
      t.power.eint = 0 ∧ t.power.esteps = 0 ∧ t.power.intervals = s.power.intervals + 1 ∧
      t.power.energy = s.power.energy + (s.power.eint + s.power.esteps + s.power.band * 10000 * energyUnit))) ∧
    (s.boot.applied = false ∨ s.running = false → exec .energyInterval s = .next s) ∧
    (s.running = true → Completes .staticBandEval s (fun t => t = { s with
        now := max s.now (s.thermal.bandAt + 1000000)
        power := { s.power with band := staticBand s.thermal.junction }
        thermal := { s.thermal with bandAt := t.now } })) ∧
    (s.running = false → exec .staticBandEval s = .next s)

/-- POWER_STEP_DECISION: a step is paid for or an idle step is inserted (R939, R945, R946, R947).  POWER_STEP_DECISION completes for every
mask of quarters and leaves memory, tiles, time and the quarters outside the mask (an operation of a reserved segment that has to wait is
told so: its event may be posted).  For one quarter q with a step ready: in a thermal hold, in an IMON trip unless the context is
ISOLATED, or with the account below the energy of the step (and 20 µs of income more unless the step is reserved), an idle step is
inserted; else the step is paid for and permitted and the pointer moves behind q.  With no step ready nothing changes. -/
def Obligations.StepDecisionsFollowTheAccount : Prop :=
  ∀ s : State,
    (∀ m : Nat, Completes (.powerStepDecision m) s (fun t =>
      t.hbm = s.hbm ∧ t.links.ports = s.links.ports ∧ t.slices = s.slices ∧ t.now = s.now ∧ t.profile = s.profile ∧ t.thermal = s.thermal ∧
      (∀ q, bitAt m q = false → t.quarter q = s.quarter q) ∧ (m % 16 = 0 → t = s))) ∧
    (∀ q, q < 4 → s.quarters.length = 4 → (s.quarter q).stepReady = none → exec (.powerStepDecision (2 ^ q)) s = .next s) ∧
    (∀ q j, q < 4 → s.quarters.length = 4 → (s.quarter q).stepReady = some j → Completes (.powerStepDecision (2 ^ q)) s (fun t =>
      if s.thermal.hold = true ∨ (s.power.tripHolds s.now = true ∧ (s.entry j.ctx).isolated = false) ∨
          s.power.account < Int.ofNat (if j.reserved then s.stepEnergy else s.stepEnergy + s.income 20)
        then t.power = { s.power with idleSteps := s.power.idleSteps + 1 } ∧ (t.quarter q).stepPermit = false ∧
          (j.reserved = false → t = { s with power := t.power })
        else t = { s with power := t.power, quarters := t.quarters } ∧
          t.power = { s.power with account := s.power.account - Int.ofNat s.stepEnergy
                                   esteps := s.power.esteps + s.stepEnergy, ptr := (q + 1) % 4 } ∧
          t.quarter q = { s.quarter q with stepPermit := true }))

/-- SENSOR_SAMPLE and HBM_TEMPERATURE_READ (R576, R821, R958, R959, R960, R963, R964, 17.7 Temperature).  From STAT 0x2 on, SENSOR_SAMPLE
completes at the next 10 µs with the readings and failures of the 28 sensors; a junction of 115 °C or more ends in the thermal shutdown
(STAT 0xE, VID 0x50, nothing running).  HBM_TEMPERATURE_READ completes, 1 ms after the last: a stack takes its reading, keeps its last one
where its sensor fails, and counts as 104 °C where all four fail; a stack above 85 °C refreshes every 1.95 µs, any other every 3.9 µs, and
memory is as before. -/
def Obligations.SensorsSetThresholdsAndRefresh : Prop :=
  ∀ s : State,
    (∀ (rs : List Int) (fs : List Bool), s.running = true → 2 ≤ s.boot.phase → Completes (.sensorSample rs fs) s (fun t =>
      t.now = (s.now / 10000 + 1) * 10000 ∧ t.thermal.readings = (List.range 28).map (fun i => rs.getD i 0) ∧
      t.thermal.failed = (List.range 28).map (fun i => fs.getD i false) ∧
      (115 * 16 ≤ t.thermal.junction → t.boot.phase = 0xE ∧ t.thermal.shutdown = true ∧ t.power.taken = 0x50 ∧ t.sealKey = none ∧
        t.internal = []) ∧
      (t.thermal.junction < 115 * 16 → t.hbm.mem = s.hbm.mem ∧ t.boot.phase = s.boot.phase))) ∧
    (∀ (rs : List Int) (fs : List Bool), s.running = true → s.hbm.hbmStacks.length = 4 →
      Completes (.hbmTemperatureRead rs fs) s (fun t => t.hbm.mem = s.hbm.mem ∧ t.now = max s.now (s.thermal.stacksAt + 1000000) ∧
        t.thermal.stacksAt = t.now ∧ t.slices = s.slices ∧
        (∀ k, k < 4 → (t.hbm.hbmStacks.getD k {}).temp = (if (List.range 4).all (fun i => fs.getD i false) = true then failedGroup
            else if fs.getD k false = true then (s.hbm.hbmStacks.getD k {}).temp else rs.getD k 0) ∧
          (t.hbm.hbmStacks.getD k {}).refInterval = if 85 * 16 < (t.hbm.hbmStacks.getD k {}).temp then 1950 else 3900))) ∧
    (s.running = false → (∀ rs fs, exec (.sensorSample rs fs) s = .next s) ∧ (∀ rs fs, exec (.hbmTemperatureRead rs fs) s = .next s))

/-- VID_LOWER_CODE and VID_SETTLE_TIMEOUT (R923, R932, R933, R934).  With a lower code due, VID_LOWER_CODE completes: the code is sent at its
instant and is the voltage in force; with none due nothing changes.  During a switch whose higher voltage has not been reached,
VID_SETTLE_TIMEOUT completes 100 µs after the code was sent and abandons the switch; with no code outstanding nothing changes. -/
def Obligations.VidCodesFollowClockChanges : Prop :=
  ∀ s : State,
    (∀ code a, s.power.lower = some (code, a) → Completes .vidLowerCode s (fun t => t = { s with now := t.now, power := t.power } ∧
      t.now = max s.now a ∧ t.power.taken = code ∧ t.power.vid = code ∧ t.power.vCode = code ∧ t.power.lower = none ∧
      t.power.strobes = s.power.strobes + 1)) ∧
    (s.power.lower = none → exec .vidLowerCode s = .next s) ∧
    (∀ old a, s.power.rising = some (old, a) → s.switch.step ≠ .idle → Completes .vidSettleTimeout s (fun t =>
      t.now = max s.now (a + 100000) ∧ t.switch.step = .idle ∧ t.profile = s.profile ∧ t.hbm.mem = s.hbm.mem ∧ t.power.rising = none)) ∧
    (s.power.rising = none ∨ s.switch.step = .idle → exec .vidSettleTimeout s = .next s)

/-- IMON_SAMPLE, IMON_TRIP_HOLD_EXPIRY and THERMAL_CEILING_UPDATE (R937, R938, R940, R953, 17.4 The IMON backstop, 17.6 The thermal ceiling).
While the device runs, IMON_SAMPLE completes at the next half microsecond with the sample in front of the last eight; with a profile
applied and eight samples taken, a mean above I_trip sets the trip, and counts one where none held; the trip stays until 20 µs after the
mean fell, which IMON_TRIP_HOLD_EXPIRY ends.  (No mean of fewer than eight samples is compared: the model's choice, log entry 81.)
THERMAL_CEILING_UPDATE of a running device with a profile applied completes, 1 ms after the last, and changes P_therm alone (kept in 1/20
W, so that 5 % of the cap is one cap): at T_ctl of at least TTGT it falls by 5 % of the cap, not below 25 %; at T_ctl of at most TTGT -
THYS it rises by 5 %, not above the cap; else it stays. -/
def Obligations.TripsAndTheThermalCeiling : Prop :=
  ∀ s : State,
    (∀ x, s.running = true → Completes (.imonSample x) s (fun t =>
      t = { s with now := t.now, power := t.power, health := t.health } ∧ t.now = (s.now / 500 + 1) * 500 ∧
      t.power.samples = (x :: s.power.samples).take 8 ∧
      (s.boot.applied = false ∨ s.power.samples.length < 7 → t.power = { s.power with samples := t.power.samples } ∧ t.health = s.health) ∧
      (s.boot.applied = true → 7 ≤ s.power.samples.length →
        (s.imonExceeds t.power.samples = true → t.power.trip = true ∧ t.power.fallAt = none ∧
          t.power.trips = (if s.power.tripHolds t.now then s.power.trips else s.power.trips + 1)) ∧
        (s.imonExceeds t.power.samples = false → t.power.trip = s.power.tripHolds t.now ∧
          t.power.fallAt = if s.power.tripHolds t.now then some (s.power.fallAt.getD t.now) else none)))) ∧
    (∀ a, s.power.trip = true → s.power.fallAt = some a → Completes .imonTripHoldExpiry s (fun t =>
      t = { s with now := t.now, power := t.power } ∧ t.now = max s.now (a + 20000) ∧ t.power.trip = false ∧
      t.power.fallAt = none ∧ t.power.samples = s.power.samples)) ∧
    (s.power.trip = false ∨ s.power.fallAt = none → exec .imonTripHoldExpiry s = .next s) ∧
    (s.running = true → s.boot.applied = true → Completes .thermalCeilingUpdate s (fun t =>
      t = { s with
        now := max s.now (s.thermal.ceilingAt + 1000000)
        power := { s.power with ptherm := t.power.ptherm }
        thermal := { s.thermal with ceilingAt := t.now } } ∧
      (Int.ofNat (16 * s.profile.ttgt) ≤ s.tCtl → t.power.ptherm = max (s.power.ptherm - s.capW) (5 * s.capW)) ∧
      (s.tCtl < Int.ofNat (16 * s.profile.ttgt) → s.tCtl ≤ Int.ofNat (16 * s.profile.ttgt) - Int.ofNat (16 * s.profile.thys) →
        t.power.ptherm = min (s.power.ptherm + s.capW) (20 * s.capW)) ∧
      (s.tCtl < Int.ofNat (16 * s.profile.ttgt) → Int.ofNat (16 * s.profile.ttgt) - Int.ofNat (16 * s.profile.thys) < s.tCtl →
        t.power.ptherm = s.power.ptherm))) ∧
    (s.running = false ∨ s.boot.applied = false → exec .thermalCeilingUpdate s = .next s)

/-- TRF_REFRESH and TRF_REFRESH_URGENT: a bank refreshes its next row in its slot, or waits for a free round (R132, R137, R138, R139, R142,
3.7 Refresh).  With no error met, a refresh of a bank that is in refresh completes no earlier than the slot of the bank's next row opens
(an urgent one, than three quarters of it have passed).  With no lane at the port the first refresh that waits there, or this one, reads
its row (every line reads as before where no handover runs, and 25 core energy units are charged); with a lane that can win it waits at
its port.  The urgent one always reads the row and leaves the port's arbitration alone.  A bank out of refresh changes nothing. -/
def Obligations.TrfRefreshReadsOneRow : Prop :=
  ∀ (s : State) (i b p : Nat), i < 4 → b < 34 → s.slices.length = 4 → s.ports.length = 16 → s.running = true →
    b < (s.slice i).banks.length → p = (s.slice i).portOfBank b → p < 4 →
    ((s.slice i).inRefresh b = true →
      ((s.port i p).pendingRef = [] → (∀ r x, r < 32 → ((s.quarter (r / 8)).lanes.getD (r % 8) []).head? = some x → x.port ≠ 4 * i + p) →
        Completes (.trfRefresh i b []) s (fun t =>
          t = { s with now := max s.now (s.slotInstant i b 0), slices := t.slices, ports := t.ports, power := (s.chargeCore 25).power } ∧
          ((t.slice i).banks.getD b {}).refRow = (((s.slice i).banks.getD b {}).refRow + 1) % 256 ∧
          (t.port i p).pendingRef = [] ∧ (∀ j, j ≠ i → t.slice j = s.slice j) ∧
          ((s.slice i).handover = none → ∀ line, (t.slice i).readLine line = (s.slice i).readLine line))) ∧
      (((s.port i p).arb.winners s.profile.waitLimit (fun _ => 0) (s.portRequests i p)).isEmpty = false →
        Completes (.trfRefresh i b []) s (fun t => t = { s with now := max s.now (s.slotInstant i b 0), ports := t.ports } ∧
          t.port i p = { s.port i p with pendingRef := addOnce (s.port i p).pendingRef b })) ∧
      Completes (.trfRefreshUrgent i b []) s (fun t =>
        t = { s with now := max s.now (s.slotInstant i b 3), slices := t.slices, ports := t.ports, power := (s.chargeCore 25).power } ∧
        ((t.slice i).banks.getD b {}).refRow = (((s.slice i).banks.getD b {}).refRow + 1) % 256 ∧
        (∀ k, k < 4 → (t.port i k).arb = (s.port i k).arb) ∧ (∀ j, j ≠ i → t.slice j = s.slice j) ∧
        ((s.slice i).handover = none → ∀ line, (t.slice i).readLine line = (s.slice i).readLine line))) ∧
    ((s.slice i).inRefresh b = false → exec (.trfRefresh i b []) s = .next s ∧ exec (.trfRefreshUrgent i b []) s = .next s)

/-- PORT_ROUND: the winners move at most BURST_LIMIT lines each and the arbitration state follows (R158, R163, R166, R167, R168, R169, R170).
With no error met, PORT_ROUND of a running device completes: once the lines that write lanes have sent are in their latches, wait, loss,
hold and pointer of the port become those of R166; each winner's request loses the lines that it has there, at most BURST_LIMIT, and
leaves its lane when none is left; every other lane keeps its lines.  In a round with a winner no slice changes; in one without the first
refresh that waits is done.  No other port changes, and nothing but quarters, slices, ports and power does. -/
def Obligations.PortRoundServesItsWinners : Prop :=
  ∀ (s u : State) (i p : Nat) (late : List (Nat × Nat)) (won : List Nat), i < 4 → p < 4 → s.quarters.length = 4 → s.ports.length = 16 →
    s.running = true → u = s.latchPort i p late →
    won = (u.port i p).arb.winners s.profile.waitLimit (fun r => ((u.laneHead i p r).bind (·.cls)).getD 0) (u.portRequests i p) →
    Completes (.portRound i p ⟨late, []⟩) s (fun t =>
      t = { s with quarters := t.quarters, slices := t.slices, ports := t.ports, power := t.power } ∧
      (t.port i p).arb = (u.port i p).arb.after s.profile.waitLimit s.profile.backoffBase s.profile.backoffCap (u.portRequests i p) won ∧
      (∀ k, k ≠ 4 * i + p → t.ports[k]? = s.ports[k]?) ∧
      (∀ r, r < 32 → t.laneQueue r =
        if r ∈ won then afterGrant (min (s.supplied i p r late) s.profile.burstLimit) (s.laneQueue r) else s.laneQueue r) ∧
      (won ≠ [] → t.slices = s.slices ∧ (t.port i p).pendingRef = (s.port i p).pendingRef) ∧
      (won = [] → (t.port i p).pendingRef = (s.port i p).pendingRef.tail))

/-- BANK_RETIRE and BANK_HANDOVER_SWAP (R146, R150, R895, R896, R897).  Of a bank in service whose condition of Table 16.9 holds, in a slice
without a handover, BANK_RETIRE completes: with a free spare a handover from the bank to it begins, else the bank waits to be evacuated;
no line changes and no other slice does.  After a verify sweep of 256 rows without a difference BANK_HANDOVER_SWAP completes: the target
serves the bank number and is in service, the source is retired (or free again where the target was a returning bank), the handover is
over and every line of another bank number reads as before; nothing but the slice changes. -/
def Obligations.BanksRetireThroughASpare : Prop :=
  ∀ (s : State) (i : Nat), i < 4 → s.slices.length = 4 →
    (∀ b n c, b < 34 → s.running = true → b < (s.slice i).banks.length → (s.slice i).numberOf b = some n →
      ((s.slice i).banks.getD b {}).status = .serving →
      (s.slice i).handover = none → ((s.slice i).banks.getD b {}).mustRetire c = true →
      Completes (.bankRetire i b c) s (fun t => t.hbm = s.hbm ∧ t.entries = s.entries ∧ t.quarters = s.quarters ∧ t.now = s.now ∧
        (∀ j, j ≠ i → t.slice j = s.slice j) ∧ (∀ line, (t.slice i).readLine line = (s.slice i).readLine line) ∧
        (∀ sp, (s.slice i).freeSpare = some sp → (t.slice i).handover = some { bank := n, source := b, target := sp } ∧
          (t.slice i).banks = (s.slice i).banks) ∧
        ((s.slice i).freeSpare = none → t = { s with slices := t.slices } ∧ ((t.slice i).banks.getD b {}).status = .retiring))) ∧
    (∀ h, (s.slice i).handover = some h → h.phase = .verify → h.rows = 256 → h.source ≠ h.target →
      h.bank < (s.slice i).serves.length → h.source < (s.slice i).banks.length → h.target < (s.slice i).banks.length →
      Completes (.bankHandoverSwap i) s (fun t => t = { s with slices := t.slices } ∧ (∀ j, j ≠ i → t.slice j = s.slice j) ∧
        (t.slice i).handover = none ∧ (t.slice i).serves.getD h.bank h.bank = h.target ∧
        ((t.slice i).banks.getD h.target {}).status = .serving ∧
        ((t.slice i).banks.getD h.source {}).status =
          (if ((s.slice i).banks.getD h.target {}).status = .retired then .free else .retired) ∧
        (∀ line, line % 32 ≠ h.bank → (t.slice i).readLine line = (s.slice i).readLine line))) ∧
    (∀ h, (s.slice i).handover = some h → (h.phase = .fill ∨ h.rows ≠ 256) → exec (.bankHandoverSwap i) s = .next s)

/-- BANK_MARCH, BANK_REINSTATE and BANK_EVACUATE (R152, R897, R898, R899, R902, R903, R904).  BANK_MARCH of a bank that no handover fills
completes: a retired bank counts consecutive passes, a free spare that fails becomes suspect, and a suspect spare with REINSTATE_PASSES
passes is free again; nothing else changes.  BANK_REINSTATE of a retired bank with enough passes completes: a bank that a spare replaced
gets a handover back, a bank whose lines had left serves its number again from the next sweep boundary.  BANK_EVACUATE of a bank that
waits for it completes: with room for its lines it is retired and its number is gone; where the shared part cannot supply 256 lines and no
slot ceiling or a higher one than is needed is in force, a slot ceiling is set. -/
def Obligations.BanksMarchReturnAndLeave : Prop :=
  ∀ (s : State) (i b : Nat), i < 4 → b < 34 → s.slices.length = 4 → b < (s.slice i).banks.length →
    (∀ ok : Bool, s.running = true → ((s.slice i).handover.map (·.target)) ≠ some b →
      Completes (.bankMarch i b ok) s (fun t => t = { s with slices := t.slices } ∧ (∀ j, j ≠ i → t.slice j = s.slice j) ∧
        t.slice i = { s.slice i with banks := (t.slice i).banks } ∧
        (∀ k, k ≠ b → (t.slice i).banks[k]? = (s.slice i).banks[k]?) ∧
        (((s.slice i).banks.getD b {}).status = .serving ∨ ((s.slice i).banks.getD b {}).status = .retiring →
          (t.slice i).banks = (s.slice i).banks) ∧
        (((s.slice i).banks.getD b {}).status = .retired → ((t.slice i).banks.getD b {}).status = .retired ∧
          ((t.slice i).banks.getD b {}).passes = if ok then ((s.slice i).banks.getD b {}).passes + 1 else 0) ∧
        (((s.slice i).banks.getD b {}).status = .free → ((t.slice i).banks.getD b {}).status = if ok then .free else .suspect) ∧
        (((s.slice i).banks.getD b {}).status = .suspect → ((t.slice i).banks.getD b {}).status =
          if s.profile.reinstatePasses ≤ (if ok then ((s.slice i).banks.getD b {}).passes + 1 else 0) then .free else .suspect))) ∧
    (∀ n, s.running = true → ((s.slice i).banks.getD b {}).served = some n → ((s.slice i).banks.getD b {}).status = .retired →
      s.profile.reinstatePasses ≤ ((s.slice i).banks.getD b {}).passes → (s.slice i).handover = none →
      Completes (.bankReinstate i b) s (fun t => t.hbm = s.hbm ∧ t.quarters = s.quarters ∧ t.entries = s.entries ∧
        (n ∈ (s.slice i).gone → n < (s.slice i).serves.length → n ∉ (t.slice i).gone ∧ (t.slice i).serves.getD n n = b ∧
          ((t.slice i).banks.getD b {}).status = .serving ∧ t.now = max s.now s.nextSweep) ∧
        (n ∉ (s.slice i).gone → 32 ≤ (s.slice i).serves.getD n n → t.now = s.now ∧
          (t.slice i).handover = some { bank := n, source := (s.slice i).serves.getD n n, target := b }) ∧
        (n ∉ (s.slice i).gone → (s.slice i).serves.getD n n < 32 → t.now = s.now ∧ ((t.slice i).banks.getD b {}).status = .free))) ∧
    (∀ n, (s.slice i).numberOf b = some n → ((s.slice i).banks.getD b {}).status = .retiring →
      (((s.slice i).sharedFree < 256 ∧ ((s.slice i).ceiling = none ∨ s.ceilingWithout i < s.ceilingNow)) → Completes (.bankEvacuate i b) s (fun t =>
        (t.slice i).ceiling.isSome = true ∧ ((t.slice i).banks.getD b {}).status = .retiring ∧ t.hbm = s.hbm)) ∧
      (¬((s.slice i).sharedFree < 256 ∧ ((s.slice i).ceiling = none ∨ s.ceilingWithout i < s.ceilingNow)) →
        (((s.slice i).lines.filter (fun x => x.1 % 32 == n)).length ≤
          ((List.range 8192).filter (fun l => l % 32 != n && (s.slice i).isFree l)).length) →
        Completes (.bankEvacuate i b) s (fun t => (t.slice i).gone = (s.slice i).gone ++ [n] ∧
          ((t.slice i).banks.getD b {}).status = .retired ∧ (∀ j, j ≠ i → t.slice j = s.slice j) ∧ t.hbm = s.hbm ∧
          t.quarters = s.quarters ∧ t.entries = s.entries)))

/-- REF_INTERVAL_CHANGE, DEBUG_TRANSFER, ALLOCATOR_ROUND and ARRAY_STEP_START (R134, R135, R136, R172, R173, R184, R186, R187, R189, R800,
R1028).  REF_INTERVAL_CHANGE completes: where the sweep period asked for (20 µs while hot, else REF_INTERVAL_US) is in force it stays,
otherwise it takes effect at the next sweep boundary, and every line reads as before.  DEBUG_TRANSFER completes with the line as a read
delivers it, at least 2,112 cclk after the one before.  ALLOCATOR_ROUND completes: only its slice changes, and each use that leaves the
waiting list has taken one shared line.  ARRAY_STEP_START completes: where a step is permitted with its lines at the array edge, the
permission is used up and the routine counts one step more; otherwise nothing changes. -/
def Obligations.TrfScheduleAllocatorAndSteps : Prop :=
  ∀ s : State,
    (s.running = true → s.boot.applied = true → Completes .refIntervalChange s (fun t =>
      t.hbm = s.hbm ∧ (∀ i line, (t.slice i).readLine line = (s.slice i).readLine line) ∧ t.quarters = s.quarters ∧ t.entries = s.entries ∧
      (∀ want, want = (if (s.refresh.hot && !(match s.refresh.coolSince with | some c => decide (c + 10000000 ≤ s.nextSweep) | none => false))
            then 20 else s.profile.refIntervalUs) →
        t.refresh.period = want ∧ (want = s.refresh.period → t.now = s.now ∧ t.refresh.origin = s.refresh.origin ∧ t.slices = s.slices) ∧
        (want ≠ s.refresh.period → t.now = max s.now s.nextSweep ∧ t.refresh.origin = s.nextSweep)))) ∧
    (∀ i line, s.running = true → i < 4 → line < 8192 → Completes (.debugTransfer i line) s (fun t =>
      t = { s with now := t.now, instruments := { s.instruments with line := some (i, line, (s.slice i).readLine line), lineAt := some t.now }
                   power := (s.chargeCore 25).power } ∧
      t.now = (match s.instruments.lineAt with | some a => max s.now (a + s.cclkNs 2112) | none => s.now))) ∧
    (∀ i, i < 4 → s.slices.length = 4 → (s.slice i).waiting ≠ [] → Completes (.allocatorRound i) s (fun t =>
      t = { s with slices := t.slices } ∧ (∀ j, j ≠ i → t.slice j = s.slice j) ∧
      (t.slice i).sharedFree + (s.slice i).waiting.length = (s.slice i).sharedFree + (t.slice i).waiting.length ∧
      (t.slice i).waiting ⊆ (s.slice i).waiting ∧ (t.slice i).payload = (s.slice i).payload)) ∧
    (∀ i, i < 4 → (s.slice i).waiting = [] → exec (.allocatorRound i) s = .next s) ∧
    (∀ q, q < 4 → s.quarters.length = 4 → Completes (.arrayStepStart q) s (fun t =>
      t = { s with quarters := t.quarters } ∧ (∀ k, k ≠ q → t.quarter k = s.quarter k) ∧
      t.quarter q = (if (s.quarter q).stepPermit = true ∧ (∃ j ∈ (s.quarter q).jobs, j.edge = true) then
        { s.quarter q with stepPermit := false, jobs := (s.quarter q).jobs.map (fun j =>
            if j.edge then { j with edge := false, started := j.started + 1 } else j) }
        else s.quarter q)))

/-- FABRIC_TARGET_ROUND: a round changes only bytes that a posted write or atomic names; a lone request takes effect (R514, R532, R543, R550,
R566, R567, R574).  On a running device with memory in canonical form FABRIC_TARGET_ROUND completes.  Tiles and planes stay, and so does
time but for an access of SLOW; a byte of memory changes only if a write or an atomic posted at the target covers it; at the other targets
than the stacks none does.  With one eligible request at an HBM target: a write leaves its enabled bytes in memory (a response with the
time of the grant in it); a read is admitted with the bytes of memory as its data. -/
def Obligations.FabricRoundsWriteOnlyPostedBytes : Prop :=
  ∀ (s : State) (k : Nat) (path : List (Nat × Nat)) (words : List (Nat × HbmFound)), k < 7 → s.running = true → Memory.wf s.hbm.mem = true →
    Completes (.fabricTargetRound k path words) s (fun t => t.slices = s.slices ∧ (∀ q, (t.quarter q).planes = (s.quarter q).planes) ∧
      (k ≠ 6 → t.now = s.now) ∧ (4 ≤ k → t.hbm.mem = s.hbm.mem) ∧
      (∀ a, (∀ x ∈ s.postedAt k, x.kind ≠ .read → a < spaOff x.spa ∨ spaOff x.spa + max 8 (s.stamped x).data.length ≤ a) →
        Memory.read t.hbm.mem a = Memory.read s.hbm.mem a) ∧
      (∀ x, k < 4 → (s.postedAt k).filter s.eligibleAt = [x] →
        (x.kind = .write → (∀ i, i < (s.stamped x).data.length → enabledAt x.enables i = true →
            Memory.read t.hbm.mem (spaOff x.spa + i) = (s.stamped x).data.getD i 0) ∧
          (∀ i, i < (s.stamped x).data.length → enabledAt x.enables i = false →
            Memory.read t.hbm.mem (spaOff x.spa + i) = Memory.read s.hbm.mem (spaOff x.spa + i))) ∧
        (x.kind = .read → t.hbm.mem = s.hbm.mem ∧ ∀ y ∈ t.fabric.txns, y.id = x.id →
          y.state = .admitted ∧ y.got = Memory.readN s.hbm.mem (spaOff x.spa) x.len)))

/-- HBM_READ_RETURN, HBM_BANK_REFRESH, HBM_RETRAIN, HBM_SCRUB_READ and TRNG_REFILL (R538, R540, R544, R557, R576, R577, R578, R579, R580,
R582, R583, R584).  Each completes and leaves the bytes of memory as they are.  HBM_READ_RETURN of an admitted read serves its pieces, and
the next burst of its master's response channel leaves the fabric, an operation's good data going to its routine.  HBM_BANK_REFRESH and
HBM_RETRAIN of a stack in use complete at their instants: the bank or the channel is kept, and the next channel of 64 is due.
HBM_SCRUB_READ of a ready device moves its stack on by one unit and makes no word good.  TRNG_REFILL, 10 µs after the last, adds 256 bits
to the pool, up to 1,024. -/
def Obligations.HbmUpkeepLeavesMemory : Prop :=
  ∀ s : State,
    (∀ (r x : Txn) (u : State) (c : Nat), s.fabric.txns.find? (fun y => y.id == r.id && y.state == .admitted) = some r →
      u = s.serveTxn (s.firstOfId r).id → u.nextResponse r.master = some x → x.owner = .op c → x.kind = .read →
      Completes (.hbmReadReturn r.id []) s (fun t =>
        t = { s with now := u.now, hbm := t.hbm, fabric := t.fabric, power := t.power, health := t.health } ∧ t.hbm.mem = s.hbm.mem ∧
        t.fabric.txns = s.fabric.txns.filter (fun y => y.id != x.id) ∧
        (x.bad = [] → t.fabric.got = s.fabric.got ++ [{ owner := .op c, spa := x.spa, data := x.got, bad := [], st := 0 }]))) ∧
    (∀ pc sid b, pc < 128 → sid < 3 → b < 16 → s.running = true → s.stackUp (pc / 32) = true → Completes (.hbmBankRefresh ⟨pc, sid, b⟩) s (fun t =>
      t = { s with now := t.now, hbm := t.hbm } ∧ t.hbm.mem = s.hbm.mem ∧ s.now ≤ t.now ∧ s.channelFree pc ≤ t.now ∧
      assocGet t.hbm.refreshed (bankKey pc (16 * sid + b)) = some t.now ∧
      (∀ a, assocGet s.hbm.refreshed (bankKey pc (16 * sid + b)) = some a → a + (s.hbm.hbmStacks.getD (pc / 32) {}).refInterval ≤ t.now))) ∧
    (s.running = true → s.stackUp (s.hbm.retrainAt / 16) = true → Completes .hbmRetrain s (fun t =>
      t = { s with now := t.now, hbm := t.hbm, health := t.health, free := t.free } ∧ t.hbm.mem = s.hbm.mem ∧
      t.hbm.retrainAt = (s.hbm.retrainAt + 1) % 64 ∧ t.hbm.retraining = some (s.hbm.retrainAt, t.now + 1200) ∧
      max s.now (s.retrainDue s.hbm.retrainAt) ≤ t.now ∧
      t.hbm.retrainMs = (if s.hbm.retrainAt = 63 then s.profile.rtMs else s.hbm.retrainMs))) ∧
    (∀ k corrected bad, k < 4 → s.hbm.hbmStacks.length = 4 → s.ready = true → Completes (.hbmScrubRead k corrected bad) s (fun t =>
      t.hbm.mem = s.hbm.mem ∧ (t.hbm.hbmStacks.getD k {}).scrubAt = ((s.hbm.hbmStacks.getD k {}).scrubAt + 1) % stackUnits ∧
      (∀ w ∈ s.hbm.badWords, w ∈ t.hbm.badWords) ∧ t.slices = s.slices ∧ t.quarters = s.quarters ∧ t.entries = s.entries)) ∧
    (s.running = true → Completes .trngRefill s (fun t => t = { s with now := t.now, hbm := t.hbm } ∧ t.hbm.mem = s.hbm.mem ∧
      t.now = max s.now (s.hbm.trngAt + 10000) ∧ t.hbm.trngAt = t.now ∧ t.hbm.pool = min 1024 (s.hbm.pool + 256))) ∧
    (s.running = false → exec .trngRefill s = .next s ∧ exec .hbmRetrain s = .next s)

/-- STORE_SCRUB and SALT_DRAW_RESUME (R144, R348, R558, R559, R868, R916, 16.1 Errors and the units that find them).  STORE_SCRUB of a running
device completes, a millisecond of scrubbing after the last; with no error found only time and that instant change; of one corrected plane
word it counts one correction; of one uncorrectable TRF payload of a line that is no structural zero it marks the line lost in its slice.
SALT_DRAW_RESUME of a routine that waits for its salt completes when the pool has 48 bits and the data track is free: the routine holds
the data track, 48 bits leave the pool and the context has a salt (a free value); with fewer bits nothing changes.  In every case memory
stays as it is. -/
def Obligations.ScrubbedStoresAndSaltDraws : Prop :=
  ∀ s : State,
    (s.running = true → Completes (.storeScrub []) s (fun t => t = { s with
        now := max s.now (s.stores.scrubAt + 1000000)
        stores := { s.stores with scrubAt := t.now } })) ∧
    (s.running = false → exec (.storeScrub []) s = .next s) ∧
    (∀ q p e, s.running = true → q < 4 → p < 2 → e < 65536 → Completes (.storeScrub [.element q p e false true]) s (fun t =>
      t = { (s.bump 2 24 4 1) with now := t.now, stores := t.stores } ∧ t.stores.bad = s.stores.bad ∧ t.stores.micro = s.stores.micro)) ∧
    (∀ i line, s.running = true → i < 4 → line < 8192 → s.slices.length = 4 → ((s.slice i).word line).zsrc = false →
      Completes (.storeScrub [.payload i line false]) s (fun t => line ∈ (t.slice i).lost ∧ t.hbm.mem = s.hbm.mem)) ∧
    (∀ c q j, c < 512 → s.jobOf c = some (q, j) → j.awaitsSalt = true →
      (48 ≤ s.hbm.pool → s.tracksOpen q [trackData] = true → (s.entry c).salt = none → (assocGet s.entries c).isSome = true →
        Completes (.saltDrawResume c) s (fun t => t.hbm = { s.hbm with pool := s.hbm.pool - 48 } ∧
          (t.entry c).salt = some (Config.salt s.free.salts) ∧
          (∃ k, t.jobOf c = some (q, k) ∧ k.tracks = [trackData] ∧ k.awaitsSalt = false ∧ k.takenAt = s.now))) ∧
      (s.hbm.pool < 48 → exec (.saltDrawResume c) s = .next s))

/-- TRANSLATION_WALK: a walk posts its next table read, faults its context, or fills the caches (R495, R497, R503, R504, R505).  Of an address
whose walk is in flight, TRANSLATION_WALK completes.  Where the next table entry is not cached and has not been read it is asked for,
once, by one 8-byte read of the page walker; where the entries read end in a leaf, the walk is over and the quarter's cache serves the
page; an entry that is not valid faults the context's routine.  Memory and tiles stay as they are in the first two cases.  With no walk in
flight nothing changes. -/
def Obligations.WalksReadTheirTables : Prop :=
  ∀ (s : State) (c va : Nat), c < 512 →
    (∀ w, s.fabric.walks.find? (fun w => w.ctx == c && w.va / 4096 == va / 4096) = some w →
      (∀ lvl a, s.walkFrom w [4, 3, 2, 1] (s.entry c).desc.troot [] = .need lvl a →
        (s.fabric.txns.any (fun x => x.owner == .walk c w.va) = false → Completes (.translationWalk c va) s (fun t =>
          t = { s with fabric := { s.fabric with nextId := s.fabric.nextId + 1, txns := t.fabric.txns } } ∧
          ∃ x, t.fabric.txns = s.fabric.txns ++ [x] ∧ x.owner = .walk c w.va ∧ x.kind = .read ∧ x.spa = a ∧ x.len = 8 ∧
            x.master = masterPwk ∧ x.target = s.targetOf a)) ∧
        (s.fabric.txns.any (fun x => x.owner == .walk c w.va) = true → exec (.translationWalk c va) s = .next s)) ∧
      (∀ e tables, s.walkFrom w [4, 3, 2, 1] (s.entry c).desc.troot [] = .leaf e tables → Completes (.translationWalk c va) s (fun t =>
        t = { s with fabric := t.fabric, quarters := t.quarters, free := t.free } ∧
        t.fabric.walks = s.fabric.walks.erase w ∧ t.fabric.txns = s.fabric.txns ∧
        (w.quarter < s.quarters.length → e ∈ (t.quarter w.quarter).tlb))) ∧
      (∀ i, s.walkFrom w [4, 3, 2, 1] (s.entry c).desc.troot [] = .bad i →
        Completes (.translationWalk c va) s (fun t => t = (s.endWalk w).faultContext c i))) ∧
    (s.fabric.walks.find? (fun w => w.ctx == c && w.va / 4096 == va / 4096) = none → exec (.translationWalk c va) s = .next s)

/-- Fetch-add and compare-swap at the HBM controller (R526, R527).  On a word that is good both atomics answer the old 64-bit value, little-
endian, and change no byte outside the word.  Fetch-add leaves (old + operand) mod 2^64 in the word; compare-swap leaves the swap value (a
64-bit value) where the old value equals the compare value, and otherwise writes nothing. -/
def Obligations.AtomicsActOnOneWord : Prop :=
  ∀ (h : Hbm) (a : Nat), Memory.wf h.mem = true → a ∉ h.badWords →
    (∀ x, (h.atomic a (.fetchAdd x)).2 = some (leNat (Memory.readN h.mem a 8)) ∧
      leNat (Memory.readN (h.atomic a (.fetchAdd x)).1.mem a 8) = (leNat (Memory.readN h.mem a 8) + x) % 2 ^ 64 ∧
      (∀ b, b < a ∨ a + 8 ≤ b → Memory.read (h.atomic a (.fetchAdd x)).1.mem b = Memory.read h.mem b)) ∧
    (∀ c w, w < 2 ^ 64 → (h.atomic a (.compareSwap c w)).2 = some (leNat (Memory.readN h.mem a 8)) ∧
      (leNat (Memory.readN h.mem a 8) = c → leNat (Memory.readN (h.atomic a (.compareSwap c w)).1.mem a 8) = w ∧
        (∀ b, b < a ∨ a + 8 ≤ b → Memory.read (h.atomic a (.compareSwap c w)).1.mem b = Memory.read h.mem b)) ∧
      (leNat (Memory.readN h.mem a 8) ≠ c → (h.atomic a (.compareSwap c w)).1 = h))

/-- OPR_RECEIVE: an operation packet is admitted to its context, refused, or kept for readiness (R199, R200, R201, R206, R360, R366, R619).
On a ready device, an OPR from the host with its 80 bytes, four slots, no tag and no reserved field, for a context of this device,
completes: it leaves its buffer; with the expected number, fewer than 64 operations queued and a context neither DETACHED nor FAULTED (a
DET is admitted to a FAULTED one) it joins the queue and the expected number goes up by 1 modulo 2^16; otherwise queue and number stay; an
ATT of a free context number waits in its entry.  Memory, tiles and quarters' planes stay.  Before readiness, and while another packet
waits before it on its channel, nothing changes. -/
def Obligations.AdmissionFollowsTheChecks : Prop :=
  ∀ (s : State) (pkt : List Byte) (c : Nat), c = ctxOf (bytesAt pkt 16 64) % 512 →
    (s.running = true → s.ready = true → s.inTurn 0 pkt = true → pktType pkt = tOpr → pkt.length = 80 → pktNsl pkt = 4 → pktTag pkt = 0 →
      zeroAt pkt 4 12 = true → byteAt pkt 1 < 64 → byteAt pkt 3 < 16 → natAt pkt 18 2 / 512 = s.devId →
      Completes (.oprReceive 0 pkt) s (fun t => t.hbm = s.hbm ∧ t.now = s.now ∧
        (opcOf (bytesAt pkt 16 64) ≠ 0x01 → (s.entry c).state ≠ .detached → (assocGet s.entries c).isSome = true →
          seqOf (bytesAt pkt 16 64) = (s.entry c).expSeq → (s.entry c).queue.length < 64 →
          ((s.entry c).state = .faulted → opcOf (bytesAt pkt 16 64) = 0x02) →
          (t.entry c).expSeq = ((s.entry c).expSeq + 1) % 65536 ∧ (t.entry c).queue.length = (s.entry c).queue.length + 1 ∧
          ((t.entry c).queue.getLast?.map (fun x => x.pkt)) = some (bytesAt pkt 16 64)) ∧
        (opcOf (bytesAt pkt 16 64) ≠ 0x01 →
          ((s.entry c).state = .detached ∨ seqOf (bytesAt pkt 16 64) ≠ (s.entry c).expSeq ∨ 64 ≤ (s.entry c).queue.length ∨
            ((s.entry c).state = .faulted ∧ opcOf (bytesAt pkt 16 64) ≠ 0x02)) →
          (t.entry c).expSeq = (s.entry c).expSeq ∧ (t.entry c).queue = (s.entry c).queue) ∧
        (opcOf (bytesAt pkt 16 64) = 0x01 → (s.entry c).state = .detached → (s.entry c).att = none →
          (t.entry c).att = some (bytesAt pkt 16 64)))) ∧
    (s.ready = false ∨ s.inTurn 0 pkt = false → exec (.oprReceive 0 pkt) s = .next s)

/-- An operation that a content check refuses leaves its queue without effect (R202, R204, R207, R220, R221).  For each of the thirty
operation commands and every state in which its context could start its first operation, a content check that fails completes with a NAK:
the operation has left the queue, one more NAK is counted, the progress names its sequence number, no routine runs, and memory, tiles and
planes are as before. -/
def Obligations.RefusedOperationsHaveNoEffect : Prop :=
  ∀ (s : State) (i : Instr) (o c q code : Nat) (op : Op), opCommandOf i = some (o, c, []) → s.CouldStart c q op → opcOf op.pkt = o →
    s.issueCheck c op = some code →
    Completes i s (fun t => (t.entry c).naks = ((s.entry c).naks + 1) % 65536 ∧ (t.entry c).done = seqOf op.pkt ∧
      (t.entry c).queue.length + 1 = (s.entry c).queue.length ∧ t.jobOf c = none ∧ t.hbm = s.hbm ∧ t.now = s.now ∧
      (∀ k, (t.quarter k).planes = (s.quarter k).planes) ∧ ((s.entry c).ahead = none → t.slices = s.slices))

/-- NOP, DET, FRM, AOP, ACL, ZRT and RLS: one segment that needs no transfer (R204, R225, R226, R253, R254, R256, R263, R264, R313, R365).
For these seven, a context that could start its first operation, with every content check passed, the turn on its track and a good
dispatch word, completes with the segment on the control track and its effects staged.  Memory, planes, tiles and time stay; ZRT stages a
structural write of each tile of its range and RLS a release, without a port transfer.  An operation of another opcode of Table 5.13, and
one whose segments have all committed, change nothing. -/
def Obligations.PlainOperationsStartAndStage : Prop :=
  ∀ (s : State) (i : Instr) (o c q : Nat) (op : Op), (o, i) ∈ [(0x00, Instr.nop c []), (0x02, .det c []), (0x05, .frm c []), (0x20, .aop c []),
      (0x24, .acl c []), (0x13, .zrt c []), (0x14, .rls c [])] →
    (opcOf op.pkt = o → s.CouldStart c q op → s.issueCheck c op = none → s.hasTurn q c op = true →
      s.atDispatch o [] = [] → Completes i s (fun t => t.hbm = s.hbm ∧ t.now = s.now ∧ (t.entry c).state = .running ∧
        (∀ k, (t.quarter k).planes = (s.quarter k).planes) ∧ ((s.entry c).ahead = none → t.slices = s.slices) ∧
        ∃ k, t.jobOf c = some (q, k) ∧ k.stage = .staged ∧ k.tracks = opcTracks o ∧ k.base = op.ord ∧ k.takenAt = s.now ∧
          k.staged = (if o = 0x13 ∨ o = 0x14 then (List.range (byteAt op.pkt 50 + 1)).map (fun d =>
            { tile := byteAt op.pkt 48 + d, structural := true, release := o == 0x14 }) else []))) ∧
    (∀ j, opcOf op.pkt = o → s.Runs c q j op → Completes i s (fun t => t = { s with quarters := t.quarters } ∧
      (∀ k, t.quarter k = { s.quarter k with jobs := (t.quarter k).jobs }) ∧
      ∃ k, t.jobOf c = some (q, k) ∧ k = { j with stage := .staged, staged := k.staged })) ∧
    (c < 512 → (s.entry c).headOp = some op → (op.done = true ∨ (opcOf op.pkt ≠ o ∧ opcKnown (opcOf op.pkt) = true)) →
      exec i s = .next s)

/-- FNC waits for its context's accesses, NTF issues one 8-byte write, SPL of a SPILLED context has no effect (R212, R227, R228, R229, R230,
R326, R371, R372).  A running FNC completes with its commit point reached where its context has no access in flight, and otherwise changes
nothing.  A running NTF whose page is translated, may be written (a doorbell may be) and is held by no profile switch completes with one
write of 8 bytes posted at the SPA of its address and its commit point reached; memory is as before.  SPL of a context that holds no slot,
or whose restore has not committed, completes with its commit point reached and nothing written. -/
def Obligations.FencesNotifiesAndEmptySpills : Prop :=
  ∀ (s : State) (c q : Nat) (j : Job) (op : Op), s.Runs c q j op →
    (opcOf op.pkt = 0x06 →
      (s.accessesPending c = false → Completes (.fnc c []) s (fun t => t = { s with quarters := t.quarters } ∧
        t.jobOf c = some (q, { j with stage := .staged }))) ∧
      (s.accessesPending c = true → exec (.fnc c []) s = .next s)) ∧
    (opcOf op.pkt = 0x07 → natAt op.pkt 8 6 % 8 = 0 → j.pages.any (fun p => p.1 == natAt op.pkt 8 6 / 4096) = true →
      ((s.place (j.spaOf (natAt op.pkt 8 6))).plain = true ∨ s.place (j.spaOf (natAt op.pkt 8 6)) = .notify) →
      s.inSwitchRange (j.spaOf (natAt op.pkt 8 6)) = false →
      Completes (.ntf c []) s (fun t => t = { s with quarters := t.quarters, fabric := t.fabric } ∧
        t.jobOf c = some (q, { j with stage := .staged, issued := true, classified := true, writesDone := 1 }) ∧
        ∃ x, t.fabric.txns = s.fabric.txns ++ [x] ∧ x.kind = .write ∧ x.owner = .op c ∧ x.spa = j.spaOf (natAt op.pkt 8 6) ∧ x.len = 8 ∧
          x.data = bytesAt op.pkt 16 8)) ∧
    (opcOf op.pkt = 0x03 → ((s.entry c).slot = none ∨ (s.entry c).restore.isSome = true) →
      Completes (.spl c []) s (fun t => t = { s with quarters := t.quarters } ∧
        t.jobOf c = some (q, { j with stage := .staged, len := 0 })))

/-- LDT: with its map, data and lines at hand, a segment stages the tiles formed from memory (R237, R238, R239, R240, R241, R243, R325).  A
running LDT segment with its residency bits and tensor data read and its staging lines there completes at its commit point: each block
tile with an element in a block whose bit is 1 (or without a map) is staged with the tile formed from the bytes read, every other one as a
structural zero.  Memory, entries and fabric transactions are as before. -/
def Obligations.LoadsStageTheTilesTheyForm : Prop :=
  ∀ (s : State) (c q : Nat) (j : Job) (op : Op) (v : View) (res : Nat → Nat → Bool) (ps : List Piece) (tiles : List (Nat × Nat × Nat)),
    s.Runs c q j op → opcOf op.pkt = 0x10 → v = moveView op.pkt → res = op.residency v →
    tiles = j.ordinals.map (fun o => (byteAt op.pkt 48 + o, v.tileAt o)) → op.MapRead v (tiles.map (·.2)) →
    j.asked = true → s.AtHand c ((tiles.map (fun x => v.tileBytes res x.2.1 x.2.2)).flatten) ps →
    s.LinesReady c q ((tiles.filter (fun x => !v.structural res x.2.1 x.2.2)).map (·.1)) →
    Completes (.ldt c []) s (fun t => t = { s with quarters := t.quarters, slices := t.slices, fabric := t.fabric } ∧
      t.fabric.txns = s.fabric.txns ∧
      ∃ k, t.jobOf c = some (q, k) ∧ k.stage = .staged ∧ k.poisoned = (poisonedChunks ps).length ∧
        k.staged = ((tiles.filter (fun x => !v.structural res x.2.1 x.2.2)).map (fun x =>
            { tile := x.1, line := s.stagedLine c x.1, rows := v.formTile res (ps.filter (fun p =>
                (v.tileBytes res x.2.1 x.2.2).any (fun r => decide (r.1 ≤ p.va) && decide (p.va < r.1 + r.2)))) x.2.1 x.2.2 })) ++
          ((tiles.filter (fun x => v.structural res x.2.1 x.2.2)).map (fun x => { tile := x.1, structural := true })))

/-- STT: a segment issues the writes of its tiles, in ascending ordinal and address, and memory changes only when they are admitted (R244,
R245, R246, R247, R326, R327, R328).  A running STT segment whose pages are translated and classified and whose line transfers have been
made completes at its commit point, with one write posted for each piece of each row of the tiles whose writes had not been issued before,
in order, carrying the bytes that the tiles store; memory, tiles and entries are as before. -/
def Obligations.StoresIssueTheirWritesInOrder : Prop :=
  ∀ (s : State) (c q : Nat) (j : Job) (op : Op), s.Runs c q j op → opcOf op.pkt = 0x11 →
    (∀ a ∈ pagesOf ((j.ordinals.map (fun o => (moveView op.pkt).storeRanges ((moveView op.pkt).tileAt o).1 ((moveView op.pkt).tileAt o).2)).flatten),
      j.pages.any (fun p => p.1 == a / 4096) = true) →
    j.classified = true → j.fetched = true → s.lanesDone q c = true → j.base ≤ j.writesDone → j.writesDone ≤ j.base + j.len →
    Completes (.stt c []) s (fun t => t = { s with quarters := t.quarters, fabric := t.fabric } ∧
      (∃ k, t.jobOf c = some (q, k) ∧ k.stage = .staged ∧ k.issued = true ∧ k.writesDone = j.base + j.len) ∧
      ∃ xs, t.fabric.txns = s.fabric.txns ++ xs ∧ (∀ x ∈ xs, x.kind = .write ∧ x.owner = .op c ∧ x.state = .posted) ∧
        xs.map (fun x => (x.va, x.len, x.spa, x.data)) =
          (((j.ordinals.filter (fun o => decide (j.writesDone ≤ o))).map (fun o =>
            s.sttWrites q c [] (moveView op.pkt) (byteAt op.pkt 48) o)).flatten.map (fun w => (pieces 4096 w.1 w.2.length).map (fun p =>
              (p.1, p.2, j.spaOf p.1, bytesAt w.2 (p.1 - w.1) p.2)))).flatten)

/-- CPT stages each source tile, ADR each drained block (R51, R58, R249, R251, R252, R290, R291, R292).  A running CPT segment with its lines
and transfers made completes at its commit point: each source that is no structural zero is staged for its destination with the rows that
a read of it delivers, each structural zero as a structural write.  A running ADR segment likewise stages for each block position the 32 ×
32 plane elements under its quantisation, +0 where the sub-block is not live.  Only slices, the quarter (and for ADR the energy charged)
change. -/
def Obligations.CopiesAndDrainsStageTheirTiles : Prop :=
  ∀ (s : State) (c q : Nat) (j : Job) (op : Op), s.Runs c q j op →
    (opcOf op.pkt = 0x12 →
      s.LinesReady c q ((j.ordinals.filter (fun o => !(s.tileFlags c (byteAt op.pkt 48 + o)).zsrc)).map (byteAt op.pkt 49 + ·)) →
      Completes (.cpt c []) s (fun t => t = { s with quarters := t.quarters, slices := t.slices } ∧
        ∃ k, t.jobOf c = some (q, k) ∧ k.stage = .staged ∧
          k.staged = ((j.ordinals.filter (fun o => !(s.tileFlags c (byteAt op.pkt 48 + o)).zsrc)).map (fun o =>
              { tile := byteAt op.pkt 49 + o, line := s.stagedLine c (byteAt op.pkt 49 + o), rows := s.readTile c (byteAt op.pkt 48 + o) })) ++
            ((j.ordinals.filter (fun o => (s.tileFlags c (byteAt op.pkt 48 + o)).zsrc)).map (fun o =>
              { tile := byteAt op.pkt 49 + o, structural := true })))) ∧
    (opcOf op.pkt = 0x23 → s.LinesReady c q (j.ordinals.map (byteAt op.pkt 48 + ·)) →
      Completes (.adr c []) s (fun t => t = { s with quarters := t.quarters, slices := t.slices, power := t.power } ∧
        s.AtCommit t c q (j.ordinals.map (fun o => (byteAt op.pkt 48 + o,
          drainTile (qmodeAt op.pkt 51) ((geomOf op.pkt).sub (o / (geomOf op.pkt).nt) (o % (geomOf op.pkt).nt))
            (s.drainBlock q c (geomOf op.pkt).pl j.phys ((geomOf op.pkt).sub (o / (geomOf op.pkt).nt) (o % (geomOf op.pkt).nt))))))))

/-- ASD seeds its block; MMA and MMS add the group sums of a started step (R52, R53, R54, R189, R274, R275, R288, R289).  A running ASD
segment with its transfers made completes at its commit point with each block of its plane set to the elements of its source tile, and
nothing but the quarter changed.  A running MMA or MMS segment whose steps are chosen: with the last step started, its group sums are
added to the plane and the commit point is reached; with a step waiting at the array edge nothing changes; with every line of the next
step in its peg, or its transfer made, one line for each block row and column is at the edge.  (MMS may stage lines of its next segment
beside this; MMA changes nothing but the quarter.) -/
def Obligations.SeedsAndStepsAccumulateInThePlane : Prop :=
  ∀ (s : State) (c q : Nat) (j : Job) (op : Op), s.Runs c q j op → (j.phys.getD 0) < (s.quarter q).planes.length →
    (opcOf op.pkt = 0x25 → j.fetched = true → s.lanesDone q c = true →
      Completes (.asd c []) s (fun t => t = { s with quarters := t.quarters } ∧ t.jobOf c = some (q, { j with stage := .staged }) ∧
        (t.quarter q).plane (j.phys.getD 0) = j.ordinals.foldl (fun x o =>
          x.setBlock ((geomOf op.pkt).sub (o / (geomOf op.pkt).nt) (o % (geomOf op.pkt).nt)) (Tile.seeds (s.readTile c (byteAt op.pkt 48 + o))))
          ((s.quarter q).plane (j.phys.getD 0)))) ∧
    (∀ i b, ((opcOf op.pkt = 0x21 ∧ i = .mma c [] ∧ b = fun n o => BSource.window (bTile op.pkt n o)) ∨
        (opcOf op.pkt = 0x22 ∧ i = .mms c [] ∧ b = fun n o => s.streamed c (geomOf op.pkt).pcol n o)) → j.loaded = true →
      (j.summed < j.started → j.steps[j.started]? = none → Completes i s (fun t => t.hbm = s.hbm ∧ t.now = s.now ∧
        (t.quarter q).plane (j.phys.getD 0) = (((s.quarter q).plane (j.phys.getD 0)).step (geomOf op.pkt) j.lines).1 ∧
        (opcOf op.pkt = 0x21 → t = { s with quarters := t.quarters }) ∧
        ∃ k, t.jobOf c = some (q, k) ∧ k.stage = .staged ∧ k.summed = j.started ∧
          k.accRange = (j.accRange || (((s.quarter q).plane (j.phys.getD 0)).step (geomOf op.pkt) j.lines).2))) ∧
      (opcOf op.pkt = 0x21 → j.started ≤ j.summed → j.steps[j.summed]?.isSome = true → j.edge = true → exec i s = .next s) ∧
      (∀ o, j.started ≤ j.summed → j.steps[j.summed]? = some o → j.edge = false → s.lanesDone q c = true →
        (∀ x ∈ s.stepMisses q c op.pkt b o, x.1 ∈ j.missed) → Completes i s (fun t => t.hbm = s.hbm ∧ t.now = s.now ∧
          (t.quarter q).planes = (s.quarter q).planes ∧ (opcOf op.pkt = 0x21 → t = { s with quarters := t.quarters }) ∧
          ∃ k, t.jobOf c = some (q, k) ∧ k.edge = true ∧ k.stepAsked = false ∧
            k.lines.length = (geomOf op.pkt).mt + (geomOf op.pkt).nt)))

/-- The thirteen vector operations stage the tiles of Table 6.7 and §6.10 (R297, R298, R299, R300, R301, R303, R304, R305, R307, R308).  A
running segment of VAD, VMU, VMX, VMN, VSC, VEX, VRC, VRS, VTR, VRQ, VRR, SMX or NRM whose reads are made and whose lines are there
completes at its commit point: each output tile is staged with the rows of its operation on the tiles as reads deliver them, ACC_RANGE and
VEC_DOMAIN are noted where an element raised them, and nothing but slices and the quarter changes. -/
def Obligations.VectorOperationsStageTheirResults : Prop :=
  ∀ (s : State) (i : Instr) (o c q : Nat) (j : Job) (op : Op) (outs : List VecOut),
    (o, i) ∈ [(0x30, Instr.vad c []), (0x31, .vmu c []), (0x32, .vmx c []), (0x33, .vmn c []), (0x34, .vsc c []), (0x35, .vex c []),
      (0x36, .vrc c []), (0x37, .vrs c []), (0x39, .vtr c []), (0x3A, .vrq c []), (0x38, .vrr c []), (0x40, .smx c []), (0x41, .nrm c [])] → opcOf op.pkt = o → s.Runs c q j op → j.asked = true →
    outs = j.ordinals.map (fun x => if o ∈ elementwise then elemOut op.pkt (s.readTile c) x else rowOutOf op.pkt (s.readTile c) x) →
    s.LinesReady c q ((outs.map (fun x => x.tiles.map (·.1))).flatten) →
    Completes i s (fun t => t = { s with quarters := t.quarters, slices := t.slices } ∧
      (∃ k, t.jobOf c = some (q, k) ∧ k.accRange = outs.any (·.range) ∧ k.vecDomain = outs.any (·.domain)) ∧
      s.AtCommit t c q ((outs.map (·.tiles)).flatten))

/-- SEGMENT_COMMIT: the segment's routine leaves its tracks and its operation advances by the segment (R22, R255, R306, R310, R324, R326, 7.3
Segments and commit points).  With a routine of an operation at its commit point on a track, and neither a preemption nor a rebind waiting
for it, SEGMENT_COMMIT completes: time is at least the segment's end, the routine holds no track of the quarter, memory is as before, and
(SPL apart) the operation's next ordinal, its segments and its count grow by the segment's, and it is done exactly when its ordinals are.
With no routine and no park, unpark or ISMOVE at its commit point on the track nothing changes. -/
def Obligations.CommitAdvancesItsOperation : Prop :=
  ∀ (s : State) (q tr held : Nat) (j : Job) (op : Op), (q < 4 → tr < 4 →
    (s.quarter q).jobs.find? (fun j => j.tracks.contains tr && j.stage == .staged) = some j → j.kind = .op → j.yielding = false →
    (s.entry j.ctx).rebindTo = none → (s.entry j.ctx).headOp = some op →
      Completes (.segmentCommit q tr held) s (fun t => t.hbm.mem = s.hbm.mem ∧ t.now = max s.now (j.takenAt + s.cclkNs held) ∧
        (∀ k ∈ (t.quarter q).jobs, k.ctx ≠ j.ctx) ∧
        (opcOf op.pkt ≠ 0x03 → ∃ op', (t.entry j.ctx).headOp = some op' ∧ op'.pkt = op.pkt ∧ op'.ord = op.ord + j.len ∧
          op'.segs = op.segs + 1 ∧ op'.count = op.count + segmentCount j (opcOf op.pkt) ∧
          op'.done = decide (opOrdinals op.pkt ≤ op.ord + j.len)))) ∧
    (q < 4 → tr < 4 → (s.quarter q).jobs.find? (fun j => j.tracks.contains tr && j.stage == .staged) = none →
      (s.quarter q).moves.find? (fun m => m.tracks.contains tr && m.staged) = none → exec (.segmentCommit q tr held) s = .next s)

/-- AOP at its commit (R263).  At the commit of an AOP its plane is OPEN with its 64 live flags clear, and no line of any slice is in use any
more for a parked sub-block of the plane, whatever the plane's state before (each such line goes back to where its charge fell). -/
def Obligations.AopOpensAnEmptyPlane : Prop :=
  ∀ (s : State) (q tr held : Nat) (j : Job) (op : Op), q < 4 → tr < 4 →
    (s.quarter q).jobs.find? (fun j => j.tracks.contains tr && j.stage == .staged) = some j → j.kind = .op → j.yielding = false →
    (s.entry j.ctx).rebindTo = none → (s.entry j.ctx).headOp = some op → opcOf op.pkt = 0x20 → (s.entry j.ctx).planes.length = 2 →
    Completes (.segmentCommit q tr held) s (fun t =>
      (t.entry j.ctx).plane (bitsAt (byteAt op.pkt 48) 0 1) = { isOpen := true, live := 0, loc := .none } ∧
      ∀ i, ∀ x ∈ (t.slice i).lines, ∀ sub k, x.2.owner ≠ .parked j.ctx (bitsAt (byteAt op.pkt 48) 0 1) sub k)

/-- ACL, ZRT and RLS at their commit: the plane is closed and held nowhere; every tile of the range is a structural zero, and no peg keeps it
(R264, R101, R266, R88, R89, R90, R119, R253, R254).  At the commit of an ACL its plane is CLOSED with its live flags clear and held
nowhere, no line is in use for a parked sub-block of it, and no physical plane holds it.  At the commit of a ZRT or RLS segment as the
routine stages it, in slices whose lines each serve one owner, every tile of the range reads as 32 zero rows with the flags of a
structural zero (live 0 after RLS), no peg that is valid names it, and no port transfer was posted. -/
def Obligations.ReleasedPlanesAndTilesAreEmpty : Prop :=
  ∀ (s : State) (q tr held : Nat) (j : Job) (op : Op), q < 4 → tr < 4 →
    (s.quarter q).jobs.find? (fun j => j.tracks.contains tr && j.stage == .staged) = some j → j.kind = .op → j.yielding = false →
    (s.entry j.ctx).rebindTo = none → (s.entry j.ctx).headOp = some op →
    (opcOf op.pkt = 0x24 → (s.entry j.ctx).planes.length = 2 → Completes (.segmentCommit q tr held) s (fun t =>
      (t.entry j.ctx).plane (bitsAt (byteAt op.pkt 48) 0 1) = { isOpen := false, live := 0, loc := .none } ∧
      (∀ k p, ((t.quarter k).plane p).holder ≠ some (j.ctx, bitsAt (byteAt op.pkt 48) 0 1)) ∧
      ∀ i, ∀ x ∈ (t.slice i).lines, ∀ sub k, x.2.owner ≠ .parked j.ctx (bitsAt (byteAt op.pkt 48) 0 1) sub k)) ∧
    ((opcOf op.pkt = 0x13 ∨ opcOf op.pkt = 0x14) → (∀ i, (s.slice i).OneOwner) →
    j.staged = (List.range (byteAt op.pkt 50 + 1)).map (fun d =>
      { tile := byteAt op.pkt 48 + d, structural := true, release := opcOf op.pkt == 0x14 }) →
    Completes (.segmentCommit q tr held) s (fun t => (∀ k, (t.quarter k).lanes = (s.quarter k).lanes) ∧
      ∀ d, d ≤ byteAt op.pkt 50 → t.readTile j.ctx (byteAt op.pkt 48 + d) = Tile.zero ∧
        (t.tileFlags j.ctx (byteAt op.pkt 48 + d)).zero = true ∧ (t.tileFlags j.ctx (byteAt op.pkt 48 + d)).zsrc = true ∧
        (opcOf op.pkt = 0x14 → (t.tileFlags j.ctx (byteAt op.pkt 48 + d)).live = false) ∧
        (∀ k, ∀ g ∈ (t.quarter k).pegsA ++ (t.quarter k).pegsB, g.valid = true → g.slot = (s.entry j.ctx).slot.getD 0 →
          g.tile ≠ byteAt op.pkt 48 + d)))

/-- SEGMENT_COMMIT: every staged line becomes its tile's line, with the metadata of Table 3.3 (R87, R88, R97, R183, R324, 3.3 Tile metadata).
At the commit of a segment of an operation of a resident context with value writes staged for distinct tiles, in slices whose lines each
serve one owner, every such tile reads afterwards as the rows staged for it and its metadata word is that of a value write over its
previous word: live, zero and poison by the rows, zsrc 0, the version up by 1 modulo 16; and every slice's lines still serve one owner
each. -/
def Obligations.CommittedTilesReadAsStaged : Prop :=
  ∀ (s : State) (q tr held : Nat) (j : Job) (op : Op) (n : Nat), q < 4 → tr < 4 →
    (s.quarter q).jobs.find? (fun j => j.tracks.contains tr && j.stage == .staged) = some j → j.kind = .op → j.yielding = false →
    (s.entry j.ctx).rebindTo = none → (s.entry j.ctx).headOp = some op →
    (s.entry j.ctx).slot = some n → s.slices.length = 4 → (∀ i, (s.slice i).OneOwner) → (j.staged.map (·.tile)).Nodup →
    (∀ x ∈ j.staged, x.line.isSome = true) → (opcOf op.pkt ≠ 0x20 ∧ opcOf op.pkt ≠ 0x24 ∧ opcOf op.pkt ≠ 0x03) →
    (∀ x ∈ j.staged, ∀ l, x.line = some l → s.stagedLine j.ctx x.tile = some l ∧
      l ∉ (s.slice ((s.entry j.ctx).sliceOf x.tile)).lost ∧
      assocGet (s.slice ((s.entry j.ctx).sliceOf x.tile)).payload ((s.slice ((s.entry j.ctx).sliceOf x.tile)).payKey l) = some x.rows) →
    Completes (.segmentCommit q tr held) s (fun t => (∀ x ∈ j.staged, t.readTile j.ctx x.tile = x.rows ∧
      t.tileWord j.ctx x.tile = metaValue (s.tileWord j.ctx x.tile) x.tile x.rows) ∧
      ∀ i, (t.slice i).OneOwner)

/-- OPERATION_COMPLETE: the operation leaves its queue; DET frees the entry, SPL the slot (R212, R214, R220, R367, R370, R418, R521).  Where
the first operation of a context has committed every segment and may complete, and no routine of the context runs, OPERATION_COMPLETE
completes: memory stays, and the operation leaves the queue with its number as the progress, FRM sets the frame; after DET the entry is
free; after SPL of a resident context it is SPILLED and holds no slot.  An operation with segments left, and an FNC with an access of its
context in flight, change nothing. -/
def Obligations.CompletedOperationsLeaveTheQueue : Prop :=
  ∀ (s : State) (c : Nat) (op : Op), c < 512 → (s.entry c).headOp = some op →
    (s.mayComplete c op = true → s.jobOf c = none →
      Completes (.operationComplete c) s (fun t => t.hbm = s.hbm ∧ t.now = s.now ∧
        (opcOf op.pkt ≠ 0x02 → (t.entry c).queue.map (·.pkt) = (s.entry c).queue.tail.map (·.pkt) ∧ (t.entry c).done = seqOf op.pkt) ∧
        (opcOf op.pkt ≠ 0x02 → opcOf op.pkt ≠ 0x03 → (t.entry c).queue = (s.entry c).queue.tail) ∧
        (opcOf op.pkt = 0x05 → (t.entry c).frm = frameOf op.pkt) ∧
        (opcOf op.pkt = 0x02 → (t.entry c).state = .detached) ∧
        (opcOf op.pkt = 0x03 → (s.entry c).slot.isSome = true → (s.entry c).restore = none →
          (t.entry c).state = .spilled ∧ (t.entry c).slot = none))) ∧
    (op.done = false → exec (.operationComplete c) s = .next s) ∧
    (opcOf op.pkt = 0x06 → (∃ x ∈ s.fabric.txns, x.owner = .op c) → exec (.operationComplete c) s = .next s)

/-- ATT: checks, the read of the descriptor, and the entry at the commit (R198, R349, R351, R357, R360, R361, R362, R483).  Of an admitted ATT
whose routine holds the control track: a reserved field, a bad address or a descriptor that fails a check completes with the context
number free again; a good address has the 256 bytes read once; a descriptor that passes reaches the commit point.  At that commit the
context is attached and SPILLED with the descriptor, the next expected number and the ATT's own number as progress. -/
def Obligations.AttachFillsItsEntry : Prop :=
  ∀ (s : State) (c q : Nat) (j : Job) (pkt : List Byte), c < 512 → (s.entry c).att = some pkt → (s.entry c).state = .detached →
    s.jobOf c = some (q, j) →
    (j.stage = .gather → attReserved pkt = true → Completes (.att c []) s (fun t => (∀ x ∈ (t.quarter q).jobs, x.ctx ≠ c) ∧ (t.entry c).att = none ∧
      (t.entry c).state = .detached ∧ t.hbm = s.hbm)) ∧
    (j.stage = .gather → attReserved pkt = false → attDspa pkt % 256 = 0 → (s.place (attDspa pkt)).plain = true →
      (j.asked = false → Completes (.att c []) s (fun t => t = { s with quarters := t.quarters, fabric := t.fabric } ∧
        t.jobOf c = some (q, { j with asked := true }) ∧ ∃ x, t.fabric.txns = s.fabric.txns ++ [x] ∧ x.kind = .read ∧ x.spa = attDspa pkt ∧
          x.len = 256 ∧ x.owner = .record c)) ∧
      (j.asked = true → s.descBytes c (attDspa pkt) = none → exec (.att c []) s = .next s) ∧
      (∀ b, j.asked = true → s.descBytes c (attDspa pkt) = some (b, false) → s.descCheck (parseDesc b (attDspa pkt)) = none →
        Completes (.att c []) s (fun t => t = { s with quarters := t.quarters } ∧ t.jobOf c = some (q, { j with stage := .staged }))) ∧
      (∀ b code, j.asked = true → s.descBytes c (attDspa pkt) = some (b, false) → s.descCheck (parseDesc b (attDspa pkt)) = some code →
        Completes (.att c []) s (fun t => (∀ x ∈ (t.quarter q).jobs, x.ctx ≠ c) ∧ (t.entry c).att = none ∧ (t.entry c).state = .detached ∧ t.hbm = s.hbm))) ∧
    (∀ tr held b, tr < 4 → j.kind = .attach → j.yielding = false →
      (s.quarter q).jobs.find? (fun j => j.tracks.contains tr && j.stage == .staged) = some j →
      s.descBytes c (attDspa pkt) = some (b, false) → Completes (.segmentCommit q tr held) s (fun t =>
        (t.entry c).state = .spilled ∧ (t.entry c).desc = parseDesc b (attDspa pkt) ∧ (t.entry c).expSeq = (seqOf pkt + 1) % 65536 ∧
        (t.entry c).done = seqOf pkt ∧ (t.entry c).queue = [] ∧ (t.entry c).slot = none ∧ ∀ x ∈ (t.quarter q).jobs, x.ctx ≠ c))

/-- EVICT, SPL of a resident context and RESTORE: a segment issues its records, or places those that verify (R413, R416, R420, R421, R422,
R423).  A spill segment of a context with its salt, whose pages are classified and whose line transfers are made, completes at its commit
point with every record of it issued: only writes of the save/restore engine (and event records) join the fabric, and memory is as before
until they are admitted.  A restore of a context without an image completes at its commit point at once; a restore segment whose records
have been read without error and verify is placed and completes at its commit point. -/
def Obligations.SpillsAndRestoresReachTheirCommit : Prop :=
  ∀ (s : State) (c q : Nat) (j : Job), c < 512 → s.jobOf c = some (q, j) → j.stage = .gather → j.awaitsSalt = false →
    (∀ i seg, ((j.kind = .evict ∧ i = .evict c []) ∨ (∃ op, s.Runs c q j op ∧ opcOf op.pkt = 0x03 ∧ i = .spl c [])) →
      (s.entry c).slot.isSome = true → (s.entry c).restore = none → (s.entry c).salt.isSome = true → j.classified = true → j.fetched = true →
      s.lanesDone q c = true → seg = s.spillSegment c j.base → j.base ≤ j.writesDone → j.writesDone ≤ j.base + seg.length →
      Completes i s (fun t => t.hbm = s.hbm ∧ t.slices = s.slices ∧ t.now = s.now ∧
        (∃ k, t.jobOf c = some (q, k) ∧ k.stage = .staged ∧ k.len = seg.length ∧ k.writesDone = j.base + seg.length) ∧
        ∃ xs, t.fabric.txns = s.fabric.txns ++ xs ∧ ∀ x ∈ xs, x.kind = .write ∧ (x.master = masterSre ∨ x.master = masterEvw))) ∧
    (j.kind = .restore → (s.entry c).desc.img = false → Completes (.restore c []) s (fun t => t = { s with quarters := t.quarters } ∧
      ∃ k, t.jobOf c = some (q, k) ∧ k.stage = .staged ∧ k.len = j.len)) ∧
    (∀ r seg (opened : Rec → List Byte), j.kind = .restore → (s.entry c).desc.img = true → (s.entry c).restore = some r → r.header.isEmpty = false →
      seg = takeUnits s.profile.segSteps ((headerRecs r.header).drop j.base) → j.asked = true → j.fetched = true → s.lanesDone q c = true →
      (∀ x ∈ seg.zipIdx, ∃ d, s.imageBytes c ((s.entry c).desc.sarea + recOffset (tileCount (headerRecs r.header)) (j.base + x.2)) x.1.len =
          some (d, false) ∧
        (headerSealer (recordKey (s.sealKey.getD 0) (s.entry c).desc.shdl (s.entry c).desc.sepoch) r.header).open_ x.1 (j.base + x.2) d =
          some (opened x.1)) →
      (∀ pl n, .sub pl n ∈ seg → (s.unreadLine c pl n 0).isSome = true) →
      Completes (.restore c []) s (fun t => t.hbm = s.hbm ∧ t.entries = s.entries ∧ t.fabric.txns = s.fabric.txns ∧
        ∃ k, t.jobOf c = some (q, k) ∧ k.stage = .staged ∧ k.len = seg.length))

/-- PARK and UNPARK, and their commit points (R84, R107, R108, R109, R110, R111, R126, R127, R267).  With a park queued for a plane with live
sub-blocks that a physical plane in no segment's use holds, its tracks free, a good dispatch word and the reserve sufficient, PARK
completes: the park holds the vector and data tracks and its line transfers are posted.  With an unpark queued, the matrix track free and
the physical plane holding nothing, UNPARK completes: the unpark holds the matrix track and the physical plane is the context's.  With
every line moved either completes at its commit point; SEGMENT_COMMIT of it, of a context that no rebind waits for, then completes: the
plane is parked and the physical plane holds nothing, or the plane holds the parked elements and no line of it is in use any more.  Memory
stays.  With none queued nothing changes. -/
def Obligations.PlanesParkAndReturn : Prop :=
  ∀ (s : State) (c pl q p : Nat), c < 512 → pl < 2 → q < 4 → (s.entry c).planes.length = 2 → s.quarters.length = 4 →
    (∀ subs, s.internal.findSome? (fun i => match i with | .park d l => if d = c then some l else none | _ => none) = some pl →
      ((s.entry c).plane pl).loc = .phys q p → subs = maskBits 64 ((s.entry c).plane pl).live →
      (s.moveOf q c .park pl = none → s.internalStarts q true true false = true → s.tracksOpen q [trackVector, trackData] = true →
        p ∉ s.planesInUse q → subs ≠ [] → s.reserveEnough c subs = true → s.atDispatch dispatchPark [] = [] →
        Completes (.park c []) s (fun t => t.hbm = s.hbm ∧ t.now = s.now ∧ t.entries = s.entries ∧ t.internal = s.internal ∧
          ∃ m, t.moveOf q c .park pl = some m ∧ m.tracks = [trackVector, trackData] ∧ m.phys = p ∧ m.subs = subs ∧ m.takenAt = s.now)) ∧
      (∀ m, s.moveOf q c .park pl = some m → m.subs = subs → (∀ l ∈ (s.quarter q).lanes, ∀ r ∈ l, r.use ≠ .move ∨ r.ctx ≠ c ∨ r.pl ≠ pl) →
        Completes (.park c []) s (fun t => t = { s with quarters := t.quarters } ∧
          t.moveOf q c .park pl = some { m with staged := true }))) ∧
    (∀ u, s.internal.findSome? (fun i => match i with | .unpark d l x => if d = c then some (l, x) else none | _ => none) = some (pl, u) →
      ((s.entry c).plane pl).loc = .parked → (s.entry c).quarter = some q →
      (s.moveOf q c .unpark pl = none → s.internalStarts q false false false = true → s.tracksOpen q [trackMatrix] = true →
        ((s.quarter q).plane u).holder = none → u < (s.quarter q).planes.length → s.atDispatch dispatchUnpark [] = [] →
        Completes (.unpark c []) s (fun t => t = { s with quarters := t.quarters } ∧ ((t.quarter q).plane u).holder = some (c, pl) ∧
          ∃ m, t.moveOf q c .unpark pl = some m ∧ m.tracks = [trackMatrix] ∧ m.phys = u ∧ m.subs = maskBits 64 ((s.entry c).plane pl).live ∧
            m.takenAt = s.now)) ∧
      (∀ m, s.moveOf q c .unpark pl = some m → (∀ l ∈ (s.quarter q).lanes, ∀ r ∈ l, r.use ≠ .move ∨ r.ctx ≠ c ∨ r.pl ≠ pl) →
        Completes (.unpark c []) s (fun t => t = { s with quarters := t.quarters } ∧
          t.moveOf q c .unpark pl = some { m with staged := true }))) ∧
    (∀ tr held m, tr < 4 → (s.quarter q).jobs = [] → (s.quarter q).moves = [m] → m.tracks.contains tr = true → m.staged = true →
      m.ctx = c → m.pl = pl → (assocGet s.entries c).isSome = true → (s.entry c).rebindTo = none →
      (m.kind = .park → m.subs = maskBits 64 ((s.entry c).plane pl).live → Completes (.segmentCommit q tr held) s (fun t =>
        t.hbm.mem = s.hbm.mem ∧ t.now = max s.now (m.takenAt + s.cclkNs held) ∧
        ((t.entry c).plane pl).loc = .parked ∧ ((t.entry c).plane pl).live = ((s.entry c).plane pl).live ∧
        ((t.quarter q).plane m.phys).holder = none)) ∧
      (m.kind = .unpark → Completes (.segmentCommit q tr held) s (fun t =>
        t.hbm.mem = s.hbm.mem ∧ t.now = max s.now (m.takenAt + s.cclkNs held) ∧
        ((t.entry c).plane pl).loc = .phys q m.phys ∧ (∀ i, ∀ x ∈ (t.slice i).lines, ∀ sub k, x.2.owner ≠ .parked c pl sub k)))) ∧
    (s.internal = [] → exec (.park c []) s = .next s ∧ exec (.unpark c []) s = .next s ∧ exec (.ismove c []) s = .next s)

/-- CANDIDATE_SLOT, CONTEXT_REBIND and ISMOVE (R94, R375, R376, R377, R382, R384, R385, R386, R393, R422).  Where a seal is held,
CANDIDATE_SLOT completes: the first candidate that a slot would serve takes the lowest free slot, the quarter that binding names and an
empty restore, and its RESTORE is queued; with no slot free and a victim its EVICT is queued; with no such candidate nothing changes.
CONTEXT_REBIND of a context that runs nothing, moves nothing and must leave its quarter binds it to the one that binding names.  ISMOVE of
an IS context whose new slice has room takes the window and the floor there and holds the data track; with every line moved it is at its
commit point.  Memory stays throughout. -/
def Obligations.SlotsBindingsAndWindows : Prop :=
  ∀ (s : State) (c : Nat), c < 512 → s.running = true → s.ready = true →
    (∀ k rest q lost, s.rinsing = false → s.sealKey.isSome = true → s.candidateList.filter s.slotCures = c :: rest →
      s.freeSlotNo = some k → s.quarterFor c = some (q, lost) → Completes .candidateSlot s (fun t => t.hbm = s.hbm ∧
        (t.entry c).slot = some k ∧ (t.entry c).quarter = some q ∧ (t.entry c).restore = some {} ∧ .restore c ∈ t.internal)) ∧
    (∀ v, s.rinsing = false → s.sealKey.isSome = true → s.candidateList.filter s.slotCures = [c] → s.freeSlotNo = none →
      s.internal = [] → s.victim = some v → Completes .candidateSlot s (fun t => t.hbm = s.hbm ∧ .evict v ∈ t.internal)) ∧
    (s.sealKey.isSome = true → s.candidateList.filter s.slotCures = [] → exec .candidateSlot s = .next s) ∧
    (∀ q lost, (s.entry c).rebindTo = none → s.mustLeave (s.entry c) = true → s.quarterFor c = some (q, lost) → s.jobOf c = none → s.movesOf c = false →
      Completes (.contextRebind c) s (fun t => t.hbm = s.hbm ∧ (t.entry c).quarter = some q ∧ (t.entry c).slot = (s.entry c).slot)) ∧
    (∀ a b k, .ismove c ∈ s.internal → (s.entry c).moving = some a → (s.entry c).quarter = some b → (s.entry c).slot = some k → a ≠ b → b < 4 →
      s.quarters.length = 4 →
      (s.moveOf b c .ismove 0 = none → s.internalStarts b false false false = true → s.tracksOpen b [trackData] = true → s.jobOf c = none →
        s.profile.tilesPerCtx + s.profile.basketFloor ≤ (s.slice b).sharedFree → s.atDispatch dispatchIsmove [] = [] → Completes (.ismove c []) s (fun t =>
          t = { s with quarters := t.quarters, slices := t.slices } ∧ (∀ i, i ≠ b → t.slice i = s.slice i) ∧
          ∃ m, t.moveOf b c .ismove 0 = some m ∧ m.tracks = [trackData] ∧ m.phys = b ∧ m.takenAt = s.now)) ∧
      (∀ m, s.moveOf b c .ismove 0 = some m → (∀ l ∈ (s.quarter b).lanes, ∀ r ∈ l, r.use ≠ .move ∨ r.ctx ≠ c ∨ r.pl ≠ 0) →
        Completes (.ismove c []) s (fun t => t = { s with quarters := t.quarters } ∧ t.moveOf b c .ismove 0 = some { m with staged := true })))

/-- PERIOD_START and FRAME_DEADLINE (R429, R449, R457, R458, R469, R472, 9.7 Misses).  On a running device with a profile applied and no
change of rate pending, PERIOD_START completes with the period after the one in progress, or the one in which the timebase lies where TIME
has moved it.  FRAME_DEADLINE of a context with a deadline to come completes at that deadline; where misses are only reported, the frame's
deadline is past in the entry and the queue stays.  Memory stays; with no deadline to come nothing changes. -/
def Obligations.PeriodsAndDeadlinesPass : Prop :=
  ∀ s : State,
    (s.running = true → s.boot.applied = true → s.oldHz = none → Completes .periodStart s (fun t => t.hbm = s.hbm ∧
      (s.periodNow = s.period → t.period = s.period + 1 ∧
        t.now = max s.now (s.ownInstant (periodStart s.frameHz (Int.ofNat s.period + 1)))) ∧
      (s.periodNow ≠ s.period → t.period = s.periodNow ∧ t.now = s.now))) ∧
    (∀ c f, c < 512 → s.running = true → (s.entry c).nextDeadline = some f → Completes (.frameDeadline c) s (fun t =>
      t.hbm = s.hbm ∧ t.now = max s.now f.deadline ∧
      (s.profile.missDrop = false → (t.entry c).queue = (s.entry c).queue ∧
        (t.entry c).frames.map (·.period) = (s.entry c).frames.map (·.period) ∧
        ∀ x ∈ (t.entry c).frames, x.period = f.period → x.past = true))) ∧
    (∀ c, c < 512 → (s.entry c).nextDeadline = none → exec (.frameDeadline c) s = .next s)

/-- FLIT_TRANSMIT, IDLE_FLIT_SEND, RETRY_REQ_REPEAT, REPLAY_TIMEOUT, REPLAY_LIMIT and CREDIT_STALL_TIMEOUT (R588, R594, R597, R601, R603,
R605, R606, R615).  On an ACTIVE link of the part (with no WIDTH to send): FLIT_TRANSMIT completes with the flit that is due on the wire,
and where no new set waits for a marker it changes the links and the energy alone; IDLE_FLIT_SEND with it 20 ns after the last;
RETRY_REQ_REPEAT while flits are dropped sends a RETRY_REQ for the number expected; REPLAY_TIMEOUT resends every unacknowledged flit 4 µs
after the oldest or the last advance of ack; REPLAY_LIMIT at eight replays, and CREDIT_STALL_TIMEOUT with a packet short of credit 50 ms
after it began to wait, take the link out of ACTIVE.  Memory stays, and on a link that is not ACTIVE the five timers change nothing. -/
def Obligations.LinksSendTheFlitThatIsDue : Prop :=
  ∀ (s : State) (link : Nat), link < 17 → s.links.ports.length = 16 →
    (s.linkActive link = true → (link ≠ 0 → (s.fport (link - 1)).widthOut = none) →
      (∀ r, r = (s.lykel link).nextFlit s.now (if link = 0 then 0 else (s.fport (link - 1)).cvn) none →
        Completes (.flitTransmit link) s (fun t => t.hbm = s.hbm ∧ t.now = s.now ∧ (t.lykel link).wire.map (·.2) = [r.2.2] ∧
          (t.lykel link).nextSeq = r.1.nextSeq ∧ (t.lykel link).unacked = r.1.unacked)) ∧
      (link ≠ 0 → (s.fport (link - 1)).setNext = none) →
      (∀ r, r = (s.lykel link).nextFlit s.now (if link = 0 then 0 else (s.fport (link - 1)).cvn) none →
        Completes (.flitTransmit link) s (fun t => t = { s with links := t.links, power := t.power } ∧
          (t.lykel link).wire.map (·.2) = [r.2.2] ∧ (t.lykel link).lastSent = s.now ∧ (t.lykel link).nextSeq = r.1.nextSeq ∧
          (t.lykel link).unacked = r.1.unacked)) ∧
      Completes (.idleFlitSend link) s (fun t => t = { s with now := t.now, links := t.links, power := t.power } ∧
        t.now = max s.now ((s.lykel link).lastSent + 20) ∧ (t.lykel link).lastSent = t.now) ∧
      ((s.lykel link).dropping = true → Completes (.retryReqRepeat link) s (fun t =>
        t = { s with now := t.now, links := t.links, power := t.power } ∧ t.now = max s.now (s.lykel link).retryAt ∧
        (t.lykel link).wire.map (·.2) = [flitBytes (s.lykel link) (if link = 0 then 0 else (s.fport (link - 1)).cvn) 1 0 3
          (natLe 2 (s.lykel link).expSeq)])) ∧
      (∀ f rest, (s.lykel link).unacked = f :: rest → Completes (.replayTimeout link) s (fun t =>
        t = { s with now := t.now, links := t.links, health := t.health } ∧
        t.now = max s.now (max f.sentAt (s.lykel link).ackAt + 4000) ∧
        (t.lykel link).resend = (s.lykel link).unacked.map (·.fseq) ∧ (t.lykel link).unacked = (s.lykel link).unacked)) ∧
      (8 ≤ (s.lykel link).replays → Completes (.replayLimit link) s (fun t => t.linkActive link = false ∧ t.hbm = s.hbm ∧ t.now = s.now)) ∧
      ((s.lykel link).replays < 8 → exec (.replayLimit link) s = .next s) ∧
      (∀ p rest, (List.range 8).filterMap (fun ch => match (s.lykel link).txq.getD ch [] with
          | p :: _ => if ((s.lykel link).credits.getD ch {}).avail < p.bytes.length / 16 then some p else none
          | [] => none) = p :: rest →
        Completes (.creditStallTimeout link) s (fun t => t.linkActive link = false ∧ t.hbm = s.hbm ∧ t.now = max s.now (p.since + 50000000)))) ∧
    (s.linkActive link = false → exec (.idleFlitSend link) s = .next s ∧ exec (.retryReqRepeat link) s = .next s ∧
      exec (.replayTimeout link) s = .next s ∧ exec (.replayLimit link) s = .next s ∧ exec (.creditStallTimeout link) s = .next s)

/-- FLIT_RECEIVE, RETRY_REQ_RECEIVE, INIT_RECEIVE and INIT_DONE_RECEIVE (R595, R596, R597, R598, R600, R658, R661, R664, R671).  On an ACTIVE
link a flit with a bad CRC is dropped and a RETRY_REQ falls due; of a good flit whose acknowledgement and credits are lawful, a DATA flit
with the expected number advances it by 1 modulo 4,096, a RETRY_REQ has the flits from its number resent.  In a handshake of the host link
a lawful INIT is taken, with the modules that both sides name as the set; INIT_DONE after it makes the link ACTIVE.  Elsewhere a flit
changes nothing, nor does a flit of another type under the last three.  Memory stays. -/
def Obligations.LinksTakeTheFlitsThatArrive : Prop :=
  ∀ (s : State) (link : Nat) (flit : List Byte), link < 17 → s.links.ports.length = 16 →
    (s.linkActive link = true →
      (flit.length = 256 → natAt flit 252 4 ≠ Crypto.crc32 (flit.take 252) → Completes (.flitReceive link flit) s (fun t =>
        t = { s with links := t.links, power := t.power, health := t.health } ∧ (t.lykel link).dropping = true ∧
        (t.lykel link).expSeq = (s.lykel link).expSeq ∧ ((s.lykel link).dropping = false → (t.lykel link).retryDue = true))) ∧
      (∀ u, flit.length = 256 → natAt flit 252 4 = Crypto.crc32 (flit.take 252) → flitReserved link flit = false → (s.chargeFlit link).takeHeader link flit = .inr u →
        (byteAt flit 0 % 4 = 0 → natAt flit 0 2 / 16 = (u.lykel link).expSeq → (u.lykel link).expSeq < 4096 → (u.lykel link).rxNeed = 0 →
          (u.lykel link).rxSkip = 0 → (∀ i, i < 240 → byteAt flit (12 + i) = 0) → Completes (.flitReceive link flit) s (fun t =>
            t = { s with links := t.links, power := t.power } ∧ (t.lykel link).expSeq = ((u.lykel link).expSeq + 1) % 4096 ∧
            (t.lykel link).ackv = true ∧ (t.lykel link).dropping = false ∧ (t.lykel link).rxq = (u.lykel link).rxq)) ∧
        (byteAt flit 0 % 4 = 1 → byteAt flit 10 % 16 = 3 → (∀ lk, (u.lykel link).replay (natAt flit 12 2 % 4096) = some lk →
          Completes (.retryReqReceive link flit) s (fun t => t = { s with links := t.links, power := t.power, health := t.health } ∧
            (t.lykel link).resend = lk.resend))))) ∧
    (link = 0 → s.inHandshake 0 = true → flit.length = 256 → natAt flit 252 4 = Crypto.crc32 (flit.take 252) → flitReserved link flit = false → byteAt flit 0 % 4 = 1 →
      (byteAt flit 10 % 16 = 1 → s.links.host.gotInit = false → byteAt flit 12 = 1 → byteAt flit 13 = 1 →
        Nat.land s.links.host.active (byteAt flit 14) % 256 ≠ 0 → byteAt flit 15 < 128 → natAt flit 24 2 < 4096 → byteAt flit 28 < 8 →
        (∀ i, 29 ≤ i → i < 252 → byteAt flit i = 0) → Completes (.initReceive 0 flit) s (fun t => t.hbm = s.hbm ∧ t.quarters = s.quarters ∧
          t.links.host.gotInit = true ∧ t.links.host.st = s.links.host.st ∧
          t.links.host.mset = bitsMask 8 (maskBits 8 (Nat.land s.links.host.active (byteAt flit 14))))) ∧
      (∀ u, byteAt flit 10 % 16 = 2 → s.links.host.gotInit = true → ((s.chargeFlit 0).becomeActive 0).takeHeader 0 flit = .inr u →
        Completes (.initDoneReceive 0 flit) s (fun t => t.hbm = s.hbm ∧ t.quarters = s.quarters ∧ t.links.host.st = .active ∧
          t.links.host.wasActive = true))) ∧
    (s.linkActive link = false → s.inHandshake link = false → exec (.flitReceive link flit) s = .next s) ∧
    (byteAt flit 0 % 4 = 0 → exec (.retryReqReceive link flit) s = .next s ∧ exec (.initReceive link flit) s = .next s ∧
      exec (.initDoneReceive link flit) s = .next s)

/-- HANDSHAKE_ENTRY, LINK_STATE_TIMEOUT, MODULE_ACTIVE_CHANGE, MODULE_RETRAIN and LINK_VIOLATION_REPORT (R658, R659, R665, R666, R669, R673,
R905).  In TRAIN with a module active, HANDSHAKE_ENTRY completes in HANDSHAKE, 1 ms after the first became active unless all eight are; in
RETRAIN the handshake is on and the state stays (log entry 29).  MODULE_ACTIVE_CHANGE takes the new set, and an ACTIVE link whose set
changes enters RESYNC.  LINK_STATE_TIMEOUT completes at the limit of the state: a third failed attempt leaves the link FAILED, an earlier
one tries again, RESYNC goes to RETRAIN.  MODULE_RETRAIN notes a module that has left the set, at most once per second.
LINK_VIOLATION_REPORT completes with the window of 1 ms empty.  Memory stays. -/
def Obligations.HostLinkStatesAndViolations : Prop :=
  ∀ s : State,
    (s.links.host.st = .train → s.links.host.active ≠ 0 → Completes .handshakeEntry s (fun t =>
      t = { s with now := t.now, links := t.links } ∧ t.links.host.st = .handshake ∧ t.links.host.since = t.now ∧ t.links.ports = s.links.ports ∧
      t.now = (if s.links.host.active = 0xFF then s.now else max s.now (s.links.host.firstActive.getD s.now + 1000000)))) ∧
    (s.links.host.st = .retrain → s.links.host.active ≠ 0 → Completes .handshakeEntry s (fun t => t = { s with links := t.links } ∧
      t.links.host = { s.links.host with shaking := true, gotInit := false })) ∧
    (s.links.host.st = .active → exec .handshakeEntry s = .next s ∧ exec .linkStateTimeout s = .next s) ∧
    (∀ m, s.links.host.st ≠ .down → s.links.host.st ≠ .failed → Completes (.moduleActiveChange m) s (fun t => t = { s with links := t.links, boot := t.boot } ∧
      t.links.host.active = m % 256 ∧ t.links.host.lk = { s.links.host.lk with offered := t.links.host.lk.offered } ∧
      (s.links.host.st ≠ .active ∨ m % 256 = s.links.host.mset → t.boot = s.boot ∧ t.links.host.lk = s.links.host.lk) ∧
      t.links.host.st = (if s.links.host.st = .active ∧ m % 256 ≠ s.links.host.mset then .resync else s.links.host.st))) ∧
    (∀ limit, ((s.links.host.st = .train ∧ s.links.host.active = 0 ∧ limit = 20000000) ∨ (s.links.host.st = .handshake ∧ limit = 10000000) ∨
        (s.links.host.st = .retrain ∧ limit = 2000000)) →
      Completes .linkStateTimeout s (fun t => t.hbm = s.hbm ∧ t.now = max s.now (s.links.host.since + limit) ∧
        t.links.host.attempts = s.links.host.attempts + 1 ∧
        t.links.host.st = (if 3 ≤ s.links.host.attempts + 1 then .failed else if s.links.host.wasActive then .retrain else .train))) ∧
    (s.links.host.st = .resync → Completes .linkStateTimeout s (fun t => t.hbm = s.hbm ∧ t.links.host.st = .retrain ∧
      t.now = max s.now (s.links.host.since + 20000))) ∧
    (∀ m, m < 8 → s.links.host.st = .active → bitAt s.links.host.active m = false → assocGet s.links.host.modRetrain m = none →
      Completes (.moduleRetrain m) s (fun t => t = { s with links := t.links } ∧ assocGet t.links.host.modRetrain m = some s.now)) ∧
    (∀ m a, m < 8 → assocGet s.links.host.modRetrain m = some a → s.now < a + 1000000000 → exec (.moduleRetrain m) s = .next s) ∧
    (s.links.violations ≠ [] → Completes .linkViolationReport s (fun t => t.hbm = s.hbm ∧ t.links.violations = [] ∧
      t.now = max s.now (s.links.vioSince + 1000000))) ∧
    (s.links.violations = [] → exec .linkViolationReport s = .next s)

/-- MRD, MWR, MFA, MCS and RWR: a lawful request for backed memory becomes one fabric transaction (R475, R487, R622, R623, R624, R634, R638,
R733, 10.4 Requests from outside).  On a running device, a request of lawful length, size and tag, with no reserved bit, for backed memory
of this device and outside a window range that a switch holds, completes: the packet leaves its buffer and one transaction for its
address, size and data is posted at its stack, owned by the requester; memory is as before until that is admitted.  (RWR comes from a
fabric port; from the host it is discarded as a violation: nothing is posted but records of this device.)  A packet of another type
changes nothing. -/
def Obligations.RequestsEnterTheFabric : Prop :=
  ∀ (s : State) (i : Instr) (k link : Nat) (p : List Byte),
    ((i = .mrd link p ∧ k = tMrd) ∨ (i = .mwr link p ∧ k = tMwr) ∨ (i = .mfa link p ∧ k = tMfa) ∨ (i = .mcs link p ∧ k = tMcs) ∨
      (i = .rwr link p ∧ k = tRwr)) → link < 17 →
    (pktType p = k → s.running = true → s.inTurn link p = true → s.inSwitchRange (reqSpa p) = false → p.length = 16 * (1 + pktNsl p) → pktNsl p = nslExpected p →
      reqReserved link p = false → reqSizeOk p = true → (k = tMfa ∨ k = tMcs → reqSpa p % 8 = 0) → (link = 0 → pktTag p ≤ 255 ∧ k ≠ tRwr) →
      (link ≠ 0 → reqSdev p ≠ s.devId) → s.tagBusy link (if link = 0 then 0 else reqSdev p) (pktTag p) = false →
      spaDev (reqSpa p) = s.devId → bitAt (reqSpa p) 51 = false → spaOff (reqSpa p) < Config.backedEnd →
      Completes i s (fun t => t = { s with links := t.links, fabric := t.fabric } ∧ ∃ x, t.fabric.txns = s.fabric.txns ++ [x] ∧
        x.kind = (requestKind p).1 ∧ x.data = (requestKind p).2 ∧ x.spa = reqSpa p ∧ x.len = reqSize p ∧
        x.target = stackOf (spaOff (reqSpa p)) ∧ x.state = .posted ∧
        x.owner = .inbound link (pktTag p) k (if link = 0 then 0 else reqSdev p))) ∧
    (pktType p ≠ k ∨ s.inTurn link p = false → exec i s = .next s) ∧
    (link = 0 → k = tRwr → pktType p = k → s.running = true → Completes i s (fun t => t.hbm = s.hbm ∧
      ∀ x ∈ t.fabric.txns, x ∈ s.fabric.txns ∨ x.owner = .device))

/-- CPL_RECEIVE, CPLD_RECEIVE, HOST_COMPLETION_TIMEOUT, FABRIC_COMPLETION_TIMEOUT and TAG_HOLD_EXPIRY (R613, R627, R628, R630, R633, R641,
R736).  A lawful CPL with status OK for an outstanding write completes with the request closed; a CPLD that carries all the data of a read
of an operation completes with the request closed and the bytes that were asked for at its routine.  A timeout completes 50 ms after the
request was sent, with it closed and its tag held for 100 ms; TAG_HOLD_EXPIRY completes at the end of the hold with the tag free.  With no
such request or hold nothing changes.  Memory stays. -/
def Obligations.CompletionsCloseTheirRequests : Prop :=
  ∀ (s : State) (link : Nat), link < 17 →
    (∀ r p, pktType p = tCpl → s.running = true → s.inTurn link p = true → (link ≠ 0 → cplDdev p = s.devId) → p.length = 16 → pktNsl p = 0 →
      cplReserved link p = false → s.outOf link (pktTag p) = some r → (r.ptype = tMwr ∨ r.ptype = tRwr) → cplLast p = true → cplBoff p = 0 →
      cplCnt p = 0 → cplSt p = 0 → Completes (.cplReceive link p) s (fun t => t.hbm = s.hbm ∧ t.now = s.now ∧
        ∀ x ∈ t.links.out, x.tag ≠ r.tag)) ∧
    (∀ r p x c, pktType p = tCpld → s.running = true → s.inTurn link p = true → (link ≠ 0 → cplDdev p = s.devId) → p.length = 16 * (1 + pktNsl p) →
      cplReserved link p = false → s.outOf link (pktTag p) = some r → r.ptype = tMrd → r.got = [] → r.bad = [] → r.stream = none →
      cplSt p = 0 → cplBoff p = 0 → cplCnt p = r.size → 1 ≤ r.size → r.size ≤ 512 → pktNsl p = nslCpld r.spa 0 r.size →
      (pktData p (r.spa % 16) r.size).length = r.size → cplLast p = true →
      s.fabric.txns.find? (fun t => t.id == r.txn) = some x → x.kind = .read → x.owner = .op c →
      Completes (.cpldReceive link p) s (fun t => t.hbm = s.hbm ∧ (∀ y ∈ t.links.out, y.tag ≠ r.tag) ∧
        t.fabric.txns = s.fabric.txns.filter (fun y => y.id != x.id) ∧
        t.fabric.got = s.fabric.got ++ [{ owner := .op c, spa := x.spa, data := bytesAt (pktData p (r.spa % 16) r.size) (x.spa % 64) x.len, bad := [], st := 0 }])) ∧
    (∀ tag r, s.outOf 0 tag = some r → r.onWire = true → Completes (.hostCompletionTimeout tag) s (fun t => t.hbm = s.hbm ∧
      t.now = max s.now (r.sentAt + 50000000) ∧ (0, tag, t.now + 100000000) ∈ t.links.tagHold ∧ ∀ y ∈ t.links.out, y.tag ≠ tag)) ∧
    (∀ tag, (s.outOf 0 tag = none ∨ ∃ r, s.outOf 0 tag = some r ∧ r.onWire = false) → exec (.hostCompletionTimeout tag) s = .next s) ∧
    (∀ tag r, s.links.out.find? (fun r => r.tag == tag && r.link == link && link != 0) = some r → r.onWire = true →
      Completes (.fabricCompletionTimeout link tag) s (fun t => t.hbm = s.hbm ∧ t.now = max s.now (r.sentAt + 50000000) ∧
        (link, tag, t.now + 100000000) ∈ t.links.tagHold ∧ ∀ y ∈ t.links.out, y.tag ≠ tag)) ∧
    (∀ tag a, s.links.tagHold.find? (fun h => h.1 == link && h.2.1 == tag) = some (link, tag, a) → Completes (.tagHoldExpiry link tag) s (fun t =>
      t = { s with now := max s.now a, links := { s.links with tagHold := s.links.tagHold.erase (link, tag, a) } })) ∧
    (∀ tag, s.links.tagHold.find? (fun h => h.1 == link && h.2.1 == tag) = none → exec (.tagHoldExpiry link tag) s = .next s)

/-- SEAL, RING, PROFILE, TIME, HALT, HALT_CACK, RESUME and JTAG_HALT_INSTRUMENT (R397, R645, R648, R650, R652, R654, R655, R656, R657).  From
the host link, with lawful fields, on a running device and with no packet before it on its channel: the first SEAL where a seal may be
given sets it; RING sets the ring; PROFILE under PSEL_LINK queues its number; TIME sets the timebase or moves it; HALT halts, and RESUME
releases, the quarters in service that its mask names, as JTAG does; HALT_CACK, once every track of the first waiting HALT is free,
answers it.  Memory stays. -/
def Obligations.ControlPacketsSetTheirState : Prop :=
  ∀ (s : State) (p : List Byte),
    (s.running = true → s.inTurn 0 p = true →
      (pktType p = 0x30 → p.length = 16 * (1 + pktNsl p) → pktNsl p = nslExpected p → byteAt p 1 < 64 → byteAt p 3 < 16 → (bytesAt p 4 12).all (· == 0) = true → s.sealUsed = false → s.straps.sealLocal = false →
        s.straps.testmode = false → s.boot.trngOk = true → Completes (.sealPacket 0 p) s (fun t =>
          t = { s with links := t.links, sealKey := some (BitVec.ofNat 256 (beNat (bytesAt p 16 32))), sealUsed := true })) ∧
      (s.sealUsed = true → Completes (.sealPacket 0 p) s (fun t => t.sealKey = s.sealKey ∧ t.hbm = s.hbm)) ∧
      (pktType p = 0x31 → p.length = 16 * (1 + pktNsl p) → pktNsl p = nslExpected p → byteAt p 1 < 64 → byteAt p 3 < 16 → natAt p 4 8 < 2 ^ 56 → bitsAt (natAt p 4 8) 52 4 ≤ 10 → (bytesAt p 12 4).all (· == 0) = true →
        reqSpa p % 4096 = 0 → s.ringOk (reqSpa p) (64 * 2 ^ (bitsAt (natAt p 4 8) 52 4 + 6)) = true →
        Completes (.ringPacket 0 p) s (fun t => t.hbm = s.hbm ∧ t.ring.valid = true ∧ t.ring.spa = reqSpa p ∧
          t.ring.rsz = bitsAt (natAt p 4 8) 52 4)) ∧
      (pktType p = 0x32 → p.length = 16 * (1 + pktNsl p) → pktNsl p = nslExpected p → byteAt p 1 < 64 → byteAt p 3 < 16 → byteAt p 4 < 8 → (bytesAt p 5 11).all (· == 0) = true → s.straps.pselLink = true →
        Completes (.profilePacket 0 p) s (fun t => t = { s with links := t.links, switch := { s.switch with queued := some (byteAt p 4) } })) ∧
      (pktType p = 0x33 → p.length = 16 * (1 + pktNsl p) → pktNsl p = nslExpected p → byteAt p 1 < 64 → byteAt p 3 < 16 → byteAt p 4 < 2 → (bytesAt p 5 3).all (· == 0) = true → Completes (.timePacket 0 p) s (fun t => t.hbm = s.hbm ∧
        t.now = s.now ∧ t.timebase = (if byteAt p 4 = 0 then natAt p 8 8 else (s.timebase + natAt p 8 8) % 2 ^ 64))) ∧
      (pktType p = 0x34 → p.length = 16 * (1 + pktNsl p) → pktNsl p = nslExpected p → byteAt p 1 < 64 → byteAt p 3 < 16 → qmaskOk p = true → s.quarters.length = 4 → Completes (.haltPacket 0 p) s (fun t => t.hbm = s.hbm ∧
        t.links.haltAcks = s.links.haltAcks ++
          [(pktTag p, bitsMask 4 ((maskBits 4 (byteAt p 4)).filter s.inService), s.timebase, if s.queued 0 p then 1 else 0)] ∧
        ∀ q, q < 4 → (t.quarter q).halted = ((s.quarter q).halted || (bitAt (byteAt p 4) q && s.inService q)))) ∧
      (pktType p = 0x35 → p.length = 16 * (1 + pktNsl p) → pktNsl p = nslExpected p → byteAt p 1 < 64 → byteAt p 3 < 16 → qmaskOk p = true → s.quarters.length = 4 → Completes (.resumePacket 0 p) s (fun t =>
        t = { s with links := t.links, quarters := t.quarters } ∧
        ∀ q, q < 4 → t.quarter q = { s.quarter q with halted := (s.quarter q).halted && !(bitAt (byteAt p 4) q && s.inService q) }))) ∧
    (s.quarters.length = 4 → ∀ m, Completes (.jtagHaltInstrument m true) s (fun t => t.hbm = s.hbm ∧
        ∀ q, q < 4 → (t.quarter q).halted = ((s.quarter q).halted || (bitAt m q && s.inService q))) ∧
      Completes (.jtagHaltInstrument m false) s (fun t => t = { s with quarters := t.quarters } ∧
        ∀ q, q < 4 → (t.quarter q).halted = ((s.quarter q).halted && !(bitAt m q && s.inService q)))) ∧
    (∀ h, s.links.haltAcks.find? (fun h => (maskBits 4 h.2.1).all s.tracksFree) = some h → Completes .haltCack s (fun t =>
      t = { s with links := t.links } ∧ t.links.haltAcks = s.links.haltAcks.erase h)) ∧
    (s.links.haltAcks = [] → exec .haltCack s = .next s)

/-- FP_TRAINING_FRAME, FP_CODED_STREAM_START, FP_MARKER_LOCK, FP_STATE_CHANGE, FP_STATE_TIMEOUT and FP_FAILED_RETRY (R689, R692, R693, R694,
R695, R696, R697, R698).  Of a port in training, a training frame is met by each lane that received one and restarts the others' count;
once every lane of the first group of usable lanes has 80 frames the coded stream starts on that group and the port aligns; two marker
codewords in a row that agree lock the receiver to their set and end ALIGN.  A port whose class is OFF is DOWN; a DOWN port that takes
part trains.  A state that reaches its limit is a failed attempt, the third of which leaves the port FAILED; after one second in FAILED it
trains again.  Memory stays. -/
def Obligations.PortsTrainAlignAndRetry : Prop :=
  ∀ (s : State) (n : Nat), n < 16 → s.links.ports.length = 16 →
    (∀ frames, (s.fport n).inTrain = true → Completes (.fpTrainingFrame n frames) s (fun t => t = { s with links := t.links } ∧
      (t.fport n).st = (s.fport n).st ∧ (∀ k, k ≠ n → t.fport k = s.fport k) ∧
      (frames = [] → ∀ l, (t.fport n).lanes.getD l {} = { (s.fport n).lanes.getD l {} with goFrames := 0 }))) ∧
    (∀ frames, (s.fport n).inTrain = false → exec (.fpTrainingFrame n frames) s = .next s) ∧
    (∀ set, pickSet (s.minw n) (s.fport n).usable = some set → (s.fport n).inTrain = true →
      ((maskBits 8 set).all (fun i => decide (80 ≤ ((s.fport n).lanes.getD i {}).goFrames)) = true →
        Completes (.fpCodedStreamStart n) s (fun t => t.hbm = s.hbm ∧ (t.fport n).txSet = set ∧ (t.fport n).inAlign = true)) ∧
      ((maskBits 8 set).all (fun i => decide (80 ≤ ((s.fport n).lanes.getD i {}).goFrames)) = false →
        exec (.fpCodedStreamStart n) s = .next s)) ∧
    (pickSet (s.minw n) (s.fport n).usable = none → exec (.fpCodedStreamStart n) s = .next s) ∧
    (∀ m rest, (s.fport n).inAlign = true → ((m :: rest).all (fun x => x.ok && x.set == m.set && x.count == m.count)) = true →
      m.set ∈ laneGroups → (∀ l ∈ maskBits 8 m.set, ∃ x ∈ m :: rest, x.lane = l) →
      ((s.fport n).locks = 0 → Completes (.fpMarkerLock n (m :: rest)) s (fun t => t = { s with links := t.links } ∧
        (t.fport n).locks = 1 ∧ (t.fport n).st = (s.fport n).st)) ∧
      ((s.fport n).locks = 1 → (s.fport n).lockSet = m.set → m.count = ((s.fport n).lockCount + 1) % 1024 →
        Completes (.fpMarkerLock n (m :: rest)) s (fun t => t.hbm = s.hbm ∧ (t.fport n).rxSet = m.set ∧ (t.fport n).inAlign = false ∧
          (t.fport n).locks = 2))) ∧
    (exec (.fpMarkerLock n []) s = .next s) ∧
    ((s.profile.portCfg.getD n {}).cls = 0 → (s.fport n).st ≠ .down → Completes (.fpStateChange n) s (fun t => t.hbm = s.hbm ∧
      (t.fport n).st = .down)) ∧
    (s.portEnabled n = true → (s.fport n).st = .down → Completes (.fpStateChange n) s (fun t => t.hbm = s.hbm ∧ (t.fport n).st = .train)) ∧
    (∀ limit, s.portLimit n = some limit → (s.fport n).st ≠ .resync → Completes (.fpStateTimeout n) s (fun t => t.hbm = s.hbm ∧
      t.now = max s.now ((s.fport n).since + limit) ∧ (t.fport n).attempts = (s.fport n).attempts + 1 ∧
      (t.fport n).st = (if 3 ≤ (s.fport n).attempts + 1 then .failed else if (s.fport n).st = .retrain then .retrain else .train))) ∧
    (s.portLimit n = none → exec (.fpStateTimeout n) s = .next s) ∧
    ((s.fport n).st = .failed → Completes (.fpFailedRetry n) s (fun t => t.hbm = s.hbm ∧ (t.fport n).st = .train ∧ (t.fport n).attempts = 0 ∧
      t.now = max s.now ((s.fport n).since + 1000000000))) ∧
    ((s.fport n).st ≠ .failed → exec (.fpFailedRetry n) s = .next s)

/-- FP_UE_RATE_RETRAIN, FP_LANE_FAIL, WIDTH, WIDTH_SWITCH, FP_LANE_RETRAIN, FP_LANE_BER_REMOVE, PACKET_FORWARD, FORWARD_HOLD_EXPIRY,
PIN_LAPSE, STREAM_EPOCH_RESUME (R688, R697, R706, R708, R709, R713, R714, R718, R720, R722, R729, R731).  More than 64 uncorrectable
codewords in a millisecond retrain a port that is up.  A lane that fails or is removed is marked (a removal at most once in 10 s), a
failed lane that the frames on it make usable again is good from then on (with no frame it stays out), and a port that is up asks for the
first group of healthy lanes; a lawful WIDTH is taken and answered; at its marker a narrowed port enters RESYNC.  A held packet that can
leave is forwarded in its turn; the one held longest is discarded after 1 ms.  A pin lapses 10 ms after its last packet left, and a stream
whose earlier packets are all complete goes on.  Memory stays. -/
def Obligations.PortsNarrowWidenAndForward : Prop :=
  ∀ (s : State) (n : Nat), n < 16 → s.links.ports.length = 16 → (s.fport n).lanes.length = 8 →
    (∀ c cs, (64 < c → (s.fport n).st.isUp = true → Completes (.fpUeRateRetrain n c cs) s (fun t => t.hbm = s.hbm ∧ (t.fport n).st = .retrain)) ∧
      (c ≤ 64 → Completes (.fpUeRateRetrain n c cs) s (fun t => t = { s with health := t.health }))) ∧
    (∀ l, l < 8 → (s.fport n).st.isUp = false → Completes (.fpLaneFail n l) s (fun t => t = { s with links := t.links } ∧
      ((t.fport n).lanes.getD l {}).failedHere = true)) ∧
    (∀ l set, l < 8 → (s.fport n).st.isUp = true → bitAt (s.fport n).rxSet l = true →
      pickSet (s.minw n) ((s.fport n).modLane l (fun x => { x with failedHere := true })).healthy = some set →
      Completes (.fpLaneFail n l) s (fun t => t = { s with links := t.links } ∧ ((t.fport n).lanes.getD l {}).failedHere = true ∧
        (t.fport n).setNext = some set) ∧
      (((s.fport n).lanes.getD l {}).failedHere = false → ((s.fport n).lanes.getD l {}).removedAt = none →
        Completes (.fpLaneBerRemove n l) s (fun t => t = { s with links := t.links } ∧ ((t.fport n).lanes.getD l {}).failedHere = true ∧
          ((t.fport n).lanes.getD l {}).removedAt = some s.now ∧ (t.fport n).setNext = some set))) ∧
    (∀ l a, l < 8 → ((s.fport n).lanes.getD l {}).removedAt = some a → s.now < a + 10000000000 → exec (.fpLaneBerRemove n l) s = .next s) ∧
    (∀ l set frames x, l < 8 → (s.fport n).st.isUp = true → ((s.fport n).lanes.getD l {}).failedHere = true →
      x = (s.fport n).trainAlone (s.profile.portCfg.getD n {}).cls (s.profile.portCfg.getD n {}).preset l frames → x.rdyOut = true → x.rdyIn = true →
      pickSet (s.minw n) ((s.fport n).modLane l (fun _ => { x with failedHere := false })).healthy = some set →
      Completes (.fpLaneRetrain n l frames) s (fun t => t = { s with links := t.links } ∧
        (t.fport n).lanes.getD l {} = { x with failedHere := false } ∧ (t.fport n).setNext = some set)) ∧
    (∀ l, l < 8 → exec (.fpLaneRetrain n l []) s = .next s) ∧
    (∀ flit u set, (s.fport n).st = .active → flit.length = 256 → natAt flit 252 4 = Crypto.crc32 (flit.take 252) →
      flitReserved (n + 1) flit = false → byteAt flit 0 % 4 = 1 → byteAt flit 10 % 16 = 4 → natAt flit 14 2 < 1024 →
      (∀ i, 16 ≤ i → i < 252 → byteAt flit i = 0) → byteAt flit 13 ∈ laneGroups →
      (s.chargeFlit (n + 1)).takeHeader (n + 1) flit = .inr u →
      pickSet (s.minw n) ({ u.fport n with lanes := (u.fport n).lanes.zipIdx.map (fun (x : Lane × Nat) =>
        { x.1 with failedThere := bitAt (byteAt flit 12) x.2 }) } : FabricPort).healthy = some set →
      Completes (.width n flit) s (fun t => t.hbm = s.hbm ∧ (t.fport n).st = .active ∧ (t.fport n).setNext = some set ∧
        (t.fport n).widthOut.isSome = true)) ∧
    ((s.fport n).st.isUp = true → (s.fport n).setNext.isSome = true → Completes (.widthSwitch n) s (fun t => t.hbm = s.hbm ∧
      (t.fport n).st = .resync ∧ (t.fport n).gotInit = false)) ∧
    ((s.fport n).setNext = none → exec (.widthSwitch n) s = .next s) ∧
    (∀ h k alt turn, s.nextForward s.links.held [] = some (h, .send k alt turn) → Completes .packetForward s (fun t =>
      t = { s with links := t.links } ∧ t.links.held = s.links.held.erase h)) ∧
    (s.nextForward s.links.held [] = none → exec .packetForward s = .next s) ∧
    (∀ h rest, s.links.held = h :: rest → Completes .forwardHoldExpiry s (fun t => t.hbm = s.hbm ∧ t.now = max s.now (h.since + 1000000) ∧
      (isRequest h.bytes = false → t.links.held = rest))) ∧
    (∀ k p rest, s.links.pins.drop k = p :: rest → Completes (.pinLapse k) s (fun t => t = { s with now := max s.now (p.lastLeft + 10000000)
                                                                                                    links := { s.links with pins := s.links.pins.erase p } })) ∧
    (∀ d, d < 128 → (s.stream d).open_ = [] → Completes (.streamEpochResume d) s (fun t => t = { s with links := t.links } ∧
      (t.stream d).holding = false ∧ (t.stream d).open_ = []))

/-- PSEL_SAMPLE, PSEL_DEBOUNCE_DONE, PROFILE_SWITCH_START, RINSE_START, RINSE_TIMEOUT and PROFILE_APPLY (R773, R774, R775, R777, R779, R780,
R785, R786, R792, R797, R798).  Without PSEL_LINK, PSEL_SAMPLE completes at the next 10 µs with the pins under debounce; a value that
every sample of 1 ms has shown is taken, and after the first one asks for a switch.  PROFILE_SWITCH_START of a queued number with no
switch on: a record that fails a check ends with the profile as it was; one that passes is staged, for a rinse where it needs one.
RINSE_START begins the rinse; 100 ms later RINSE_TIMEOUT ends the switch without an apply.  PROFILE_APPLY of a switch that is ready, with
no transaction in a changed window and every check passed again, puts the staged profile in force with the epoch up by 1 (1 after the
greatest).  Memory stays. -/
def Obligations.ProfileSwitchesGoThroughTheirSteps : Prop :=
  ∀ s : State, s.running = true →
    (∀ v, s.boot.latched = true → s.straps.pselLink = false → Completes (.pselSample v) s (fun t =>
      t = { s with now := (s.now / 10000 + 1) * 10000, switch := t.switch } ∧ t.switch.pselTaken = s.switch.pselTaken ∧
      t.switch.pselAt = t.now ∧
      (s.switch.pselSince.isSome = true → s.switch.pselValue = v % 8 → t.switch = { s.switch with pselAt := t.now }) ∧
      (s.switch.pselSince = none ∨ s.switch.pselValue ≠ v % 8 → t.switch.pselValue = v % 8 ∧ t.switch.pselSince = some t.now))) ∧
    (∀ a, s.straps.pselLink = false → s.switch.pselSince = some a → s.switch.pselTaken ≠ some s.switch.pselValue →
      (a + 1000000 ≤ s.switch.pselAt + 10000 → Completes .pselDebounceDone s (fun t => t = { s with now := max s.now (a + 1000000), switch := { s.switch with
        pselTaken := some s.switch.pselValue
        queued := if s.switch.pselTaken.isSome then some s.switch.pselValue else s.switch.queued
        pselFirst := if s.switch.pselTaken.isSome then s.switch.pselFirst else t.now } })) ∧
      (s.switch.pselAt + 10000 < a + 1000000 → exec .pselDebounceDone s = .next s)) ∧
    (s.switch.pselSince = none → exec .pselDebounceDone s = .next s) ∧
    (s.ready = true →
      (∀ n, s.switch.queued = some n → s.switch.step = .idle →
        (∀ r, s.checkRecord n false = some r → Completes .profileSwitchStart s (fun t => t.profile = s.profile ∧ t.hbm = s.hbm ∧
          t.switch.step = .idle ∧ t.switch.queued = none)) ∧
        (s.checkRecord n false = none → Completes .profileSwitchStart s (fun t => t.profile = s.profile ∧ t.hbm = s.hbm ∧
          t.switch.number = n ∧ t.switch.staged = parseProfile ((assocGet s.profStore n).getD []) ∧
          t.switch.step = (if s.needsRinse t.switch.staged then .waitRinse else .ready)))) ∧
      (s.switch.step = .waitRinse → ∀ rs, Completes (.rinseStart rs) s (fun t => t.profile = s.profile ∧ t.hbm = s.hbm ∧
        (t.switch.step = .rinsing ∨ t.switch.step = .ready) ∧ t.now = max s.now s.rinseInstant)) ∧
      (s.rinsing = true → Completes .rinseTimeout s (fun t => t.profile = s.profile ∧ t.hbm = s.hbm ∧ t.switch.step = .idle ∧
        t.now = max s.now (s.switch.rinseAt + 100000000))) ∧
      (s.switch.step = .ready → s.windowBusy = false → s.checkStaged s.switch.staged false = none → Completes .profileApply s (fun t =>
        t.profile = s.switch.staged ∧ t.profNum = s.switch.number ∧ t.profRom = false ∧ t.pepoch = (if s.pepoch = 0xFFFFFFFF then 1 else s.pepoch + 1) ∧
        t.switch.step = .idle ∧ t.hbm.mem = s.hbm.mem)) ∧
      (s.switch.step = .idle → exec .profileApply s = .next s)) ∧
    (s.switch.queued = none → exec .profileSwitchStart s = .next s) ∧
    (s.rinsing = false → exec .rinseTimeout s = .next s)

/-- ROTATION_BOUNDARY, SHADOW_STEP, SHADOW_COMPARE, QUARTER_REMOVE, DEBUG_BIST and HEALTH_RECORD (R842, R880, R881, R882, R883, R884, R892,
R906, R908, R910, R912).  SHADOW_STEP with a shadow due and a step started marks it as run, and an equal SHADOW_COMPARE of a board column
hands it the working column's place, which becomes the board.  ROTATION_BOUNDARY of a quarter in service completes at the boundary.
QUARTER_REMOVE of a quarter for which a cause holds takes it out of service once it is free, but the last one stays, untested.  DEBUG_BIST
is refused while a context is resident, and else takes 2^25 cclk.  HEALTH_RECORD completes when it is due, counts one record more and
starts the next period.  Memory stays. -/
def Obligations.ColumnsRotateAndQuartersLeave : Prop :=
  ∀ (s : State) (q : Nat), q < 4 → s.quarters.length = 4 →
    ((s.quarter q).rotation.shadow.isSome = true → (s.quarter q).jobs.any (fun j => decide (0 < j.started)) = true →
      Completes (.shadowStep q) s (fun t => t = { s with quarters := t.quarters } ∧ t.quarter q = { s.quarter q with
        rotation := { (s.quarter q).rotation with shadowRan := true } } ∧ ∀ k, k ≠ q → t.quarter k = s.quarter k)) ∧
    ((s.quarter q).rotation.shadow = none → exec (.shadowStep q) s = .next s ∧ ∀ e, exec (.shadowCompare q e) s = .next s) ∧
    (∀ x y, (s.quarter q).rotation.shadow = some (x, y) → (s.quarter q).rotation.shadowRan = true → (s.quarter q).rotation.role x = .board →
      x < (s.quarter q).rotation.roles.length → y < (s.quarter q).rotation.roles.length → x ≠ y →
      Completes (.shadowCompare q true) s (fun t => t = { s with quarters := t.quarters } ∧
        (t.quarter q).rotation.role x = (s.quarter q).rotation.role y ∧ (t.quarter q).rotation.role y = .board ∧
        (t.quarter q).rotation.shadow = none)) ∧
    (∀ runs : List Bool, s.running = true → s.boot.applied = true → s.inService q = true → (s.quarter q).untested = false →
      (s.quarter q).rotation.darned < 2 → Completes (.rotationBoundary q runs) s (fun t => t.hbm = s.hbm ∧ t.entries = s.entries ∧
        t.now = max s.now (s.ownInstant (s.nextRotation q)) ∧ (∀ k, k ≠ q → t.quarter k = s.quarter k) ∧
        (t.quarter q).planes = (s.quarter q).planes)) ∧
    (∀ cause, s.running = true → s.ready = true → s.inService q = true → (s.quarter q).untested = false → (s.quarter q).mustGo cause = true →
      (s.quartersUp = [q] → Completes (.quarterRemove q cause) s (fun t => t.hbm = s.hbm ∧ (t.quarter q).untested = true ∧ t.inService q = true)) ∧
      (s.quartersUp ≠ [q] → Completes (.quarterRemove q cause) s (fun t => t.hbm = s.hbm ∧
        ((t.quarter q).leaving = true ∨ (t.quarter q).removed = true)))) ∧
    (∀ fs, s.running = true → s.ready = true →
      (0 < (s.residents.filter (fun x => (s.entry x.2).restore.isNone)).length → Completes (.debugBist fs) s (fun t => t.hbm = s.hbm ∧
        t.quarters = s.quarters ∧ t.now = s.now ∧ t.instruments.refusedBist = some 0)) ∧
      ((s.residents.filter (fun x => (s.entry x.2).restore.isNone)) = [] → s.switch.step = .idle → Completes (.debugBist fs) s (fun t =>
        t.hbm = s.hbm ∧ t.now = max s.now (s.now + s.cclkNs 33554432) ∧ t.instruments.refusedBist = none ∧ t.instruments.findings = fs))) ∧
    (∀ a, s.running = true → s.ready = true → s.health.dueAt = some a → Completes .healthRecord s (fun t => t.hbm = s.hbm ∧ t.now = max s.now a ∧
      t.health.seq = (s.health.seq + 1) % 2 ^ 32 ∧ t.health.dueAt = some (a + 1000000 * s.profile.healthMs) ∧ t.power.trips = 0 ∧
      t.power.idleSteps = 0)) ∧
    (s.health.dueAt = none → exec .healthRecord s = .next s)
end

