-- ==== Sys2Proof/Laws/Memory.lean ====
section
/-! SUPPORT. Laws/Memory.lean: reads after writes, and that every memory operation keeps the canonical form. -/
namespace Sys2Proof.Machine
set_option Elab.async false

/-- Empty memory has the form. -/
@[simp] theorem Memory.wf_nil : Memory.wf [] = true := rfl

/-- Nothing is listed below the bound of the canonical form. -/
theorem Memory.read_below : ∀ {m : List Host.Cell} {lo a : Nat}, Memory.wfFrom lo m = true → a < lo → Memory.read m a = 0
  | [], _, _, _, _ => rfl
  | (k, v) :: rest, lo, a, h, ha => by
    simp only [Memory.wfFrom, Bool.and_eq_true, decide_eq_true_eq] at h
    have hk : k ≠ a := by omega
    have ha' : a < k + 1 := by omega
    simp only [Memory.read, if_neg hk]
    exact Memory.read_below h.2 ha'

theorem Memory.wfFrom_mono : ∀ {m : List Host.Cell} {lo lo' : Nat}, lo' ≤ lo → Memory.wfFrom lo m = true → Memory.wfFrom lo' m = true
  | [], _, _, _, _ => rfl
  | (k, v) :: rest, lo, lo', hl, h => by
    simp only [Memory.wfFrom, Bool.and_eq_true, decide_eq_true_eq] at h ⊢
    exact ⟨⟨Nat.le_trans hl h.1.1, h.1.2⟩, h.2⟩

/-- A write keeps the canonical form. -/
theorem Memory.write_wfFrom : ∀ {m : List Host.Cell} {lo a : Nat} (b : Byte), lo ≤ a → Memory.wfFrom lo m = true →
    Memory.wfFrom lo (Memory.write m a b) = true
  | [], lo, a, b, hl, _ => by
    unfold Memory.write
    split
    · rfl
    · next hb =>
      simp [Memory.wfFrom, hl]
      exact hb
  | (k, v) :: rest, lo, a, b, hl, h => by
    have h' := h
    simp only [Memory.wfFrom, Bool.and_eq_true, decide_eq_true_eq] at h
    unfold Memory.write
    split
    · next hlt =>
      split
      · exact h'
      · next hb =>
        have h1 : a + 1 ≤ k := hlt
        simp [Memory.wfFrom, hl, h1, h.2]
        exact ⟨hb, bne_iff_ne.mp h.1.2⟩
    · next hge =>
      split
      · next he =>
        subst he
        split
        · exact Memory.wfFrom_mono (Nat.le_succ_of_le h.1.1) h.2
        · next hb =>
          simp [Memory.wfFrom, hl, h.2]
          exact hb
      · next hne =>
        have h1 : k + 1 ≤ a := by omega
        simp only [Memory.wfFrom, Bool.and_eq_true, decide_eq_true_eq]
        exact ⟨h.1, Memory.write_wfFrom b h1 h.2⟩

theorem Memory.write_wf {m : List Host.Cell} (a : Nat) (b : Byte) (h : Memory.wf m = true) : Memory.wf (Memory.write m a b) = true :=
  Memory.write_wfFrom b (Nat.zero_le a) h

theorem Memory.writeN_wf : ∀ {m : List Host.Cell} (a : Nat) (bs : List Byte) (es : List Bool), Memory.wf m = true →
    Memory.wf (Memory.writeN m a bs es) = true
  | _, _, [], _, h => by simpa [Memory.writeN] using h
  | _, a, b :: bs, [], h => by
    simp only [Memory.writeN]
    exact Memory.writeN_wf (a + 1) bs [] (Memory.write_wf a b h)
  | _, a, b :: bs, e :: es, h => by
    simp only [Memory.writeN]
    refine Memory.writeN_wf (a + 1) bs es ?_
    split
    · exact Memory.write_wf a b h
    · exact h

@[simp] theorem Hbm.write_wf {h : Hbm} (a : Nat) (data : List Byte) (es : List Bool) (p f : List Nat) (k : Memory.wf h.mem = true) :
    Memory.wf (h.write a data es p f).mem = true := Memory.writeN_wf a data es k

@[simp] theorem Hbm.atomic_wf {h : Hbm} (a : Nat) (k : TxnKind) (w : Memory.wf h.mem = true) : Memory.wf (h.atomic a k).1.mem = true := by
  unfold Hbm.atomic
  split
  · exact w
  · dsimp only
    split
    · exact Memory.writeN_wf _ _ _ w
    · split
      · exact Memory.writeN_wf _ _ _ w
      · exact w
    · exact w

/-- Reading back the byte written. -/
theorem Memory.read_write_same : ∀ {m : List Host.Cell} {lo : Nat} (a : Nat) (b : Byte), Memory.wfFrom lo m = true →
    Memory.read (Memory.write m a b) a = b
  | [], _, a, b, _ => by
    unfold Memory.write
    split
    · next hb => simp [Memory.read, hb]
    · simp [Memory.read]
  | (k, v) :: rest, lo, a, b, h => by
    simp only [Memory.wfFrom, Bool.and_eq_true, decide_eq_true_eq] at h
    unfold Memory.write
    split
    · next hlt =>
      split
      · next hb =>
        have hne : k ≠ a := by omega
        simp only [Memory.read, if_neg hne]
        rw [Memory.read_below h.2 (by omega)]
        exact hb.symm
      · simp [Memory.read]
    · split
      · next he =>
        subst he
        split
        · next hb => rw [Memory.read_below h.2 (by omega)]; exact hb.symm
        · simp [Memory.read]
      · next hne =>
        have hk : k ≠ a := fun e => hne e.symm
        simp only [Memory.read, if_neg hk]
        exact Memory.read_write_same a b h.2

/-- A write leaves every other byte alone. -/
theorem Memory.read_write_other : ∀ {m : List Host.Cell} {lo : Nat} {a c : Nat} (b : Byte), Memory.wfFrom lo m = true → c ≠ a →
    Memory.read (Memory.write m a b) c = Memory.read m c
  | [], _, a, c, b, _, hc => by
    have hac : a ≠ c := fun e => hc e.symm
    unfold Memory.write
    split <;> simp [Memory.read, hac]
  | (k, v) :: rest, lo, a, c, b, h, hc => by
    simp only [Memory.wfFrom, Bool.and_eq_true, decide_eq_true_eq] at h
    have hac : a ≠ c := fun e => hc e.symm
    unfold Memory.write
    split
    · split
      · rfl
      · simp [Memory.read, hac]
    · split
      · next he =>
        subst he
        split
        · simp [Memory.read, hac]
        · simp [Memory.read, hac]
      · simp only [Memory.read]
        split
        · rfl
        · exact Memory.read_write_other b h.2 hc

/-- What a write of several bytes with every byte enabled leaves outside its range. -/
theorem Memory.read_writeN_other : ∀ {m : List Host.Cell} (a c : Nat) (bs : List Byte) (es : List Bool), Memory.wf m = true →
    (c < a ∨ a + bs.length ≤ c) → Memory.read (Memory.writeN m a bs es) c = Memory.read m c
  | _, _, _, [], _, _, _ => by simp [Memory.writeN]
  | _, a, c, b :: bs, [], h, hc => by
    simp only [List.length_cons] at hc
    have hne : c ≠ a := by omega
    simp only [Memory.writeN]
    rw [Memory.read_writeN_other (a + 1) c bs [] (Memory.write_wf a b h) (by omega)]
    exact Memory.read_write_other b h hne
  | _, a, c, b :: bs, e :: es, h, hc => by
    simp only [List.length_cons] at hc
    have hne : c ≠ a := by omega
    simp only [Memory.writeN]
    split
    · rw [Memory.read_writeN_other (a + 1) c bs es (Memory.write_wf a b h) (by omega)]
      exact Memory.read_write_other b h hne
    · exact Memory.read_writeN_other (a + 1) c bs es h (by omega)

/-- Reading back a byte of a write with every byte enabled. -/
theorem Memory.read_writeN_same : ∀ {m : List Host.Cell} (a i : Nat) (bs : List Byte), Memory.wf m = true → i < bs.length →
    Memory.read (Memory.writeN m a bs []) (a + i) = bs.getD i 0
  | _, _, _, [], _, hi => by simp at hi
  | _, a, 0, b :: bs, h, _ => by
    simp only [Memory.writeN, Nat.add_zero, List.getD_cons_zero]
    rw [Memory.read_writeN_other (a + 1) a bs [] (Memory.write_wf a b h) (by omega)]
    exact Memory.read_write_same a b h
  | _, a, i + 1, b :: bs, h, hi => by
    simp only [Memory.writeN, List.getD_cons_succ]
    have e : a + (i + 1) = a + 1 + i := by omega
    rw [e]
    exact Memory.read_writeN_same (a + 1) i bs (Memory.write_wf a b h) (by simpa using hi)

end Sys2Proof.Machine
end

