-- ==== Sys2Proof/Laws/Stays.lean ====
section
/-! SUPPORT. Laws/Stays.lean: how `Stays` is shown: it is reflexive and transitive, and it passes through updates, choices and folds. -/
namespace Sys2Proof.Machine
set_option Elab.async false

@[simp] theorem modAt_length {α : Type} : ∀ (l : List α) (i : Nat) (f : α → α), (modAt l i f).length = l.length
  | [], _, _ => by simp [modAt]
  | _ :: _, 0, _ => by simp [modAt]
  | _ :: xs, i + 1, f => by simp [modAt, modAt_length xs i f]

theorem Stays.refl (b : Bool) (s : State) : Stays b s s :=
  ⟨rfl, rfl, fun _ => rfl, fun _ => Nat.le_refl _, id, id, id, id, id, id, id⟩

theorem Stays.trans {b : Bool} {s t u : State} (h : Stays b s t) (k : Stays b t u) : Stays b s u :=
  ⟨k.queue.trans h.queue, k.fuses.trans h.fuses, fun e => (k.setup e).trans (h.setup e), fun e => Nat.le_trans (h.time e) (k.time e),
    k.mem ∘ h.mem, k.pool ∘ h.pool, k.quarters ∘ h.quarters, k.slices ∘ h.slices, k.ports ∘ h.ports, k.hbmStacks ∘ h.hbmStacks,
    k.fports ∘ h.fports⟩

/-- What stays with the set-up stays without it. -/
theorem Stays.weaken {b : Bool} {s t : State} (h : Stays true s t) : Stays b s t :=
  ⟨h.queue, h.fuses, fun _ => h.setup rfl, fun _ => h.time rfl, h.mem, h.pool, h.quarters, h.slices, h.ports, h.hbmStacks, h.fports⟩

/-- An update that keeps the properties of memory and shape, if not their values. -/
theorem Stays.updW {b : Bool} {s0 s t : State} (h : Stays b s0 s) (q : t.pending = s.pending) (f : t.fuses = s.fuses)
    (g : b = true → t.setup = s.setup) (n : b = true → s.now ≤ t.now)
    (m : Memory.wf s.hbm.mem = true → Memory.wf t.hbm.mem = true) (p : s.hbm.pool ≤ 1024 → t.hbm.pool ≤ 1024)
    (l1 : t.quarters.length = s.quarters.length) (l2 : t.slices.length = s.slices.length)
    (l3 : s.ports.length = 16 → t.ports.length = 16)
    (l4 : s.hbm.hbmStacks.length = 4 → t.hbm.hbmStacks.length = 4) (l5 : s.links.ports.length = 16 → t.links.ports.length = 16) : Stays b s0 t :=
  h.trans ⟨q, f, g, n, m, p, fun e => l1.trans e, fun e => l2.trans e, l3, l4, l5⟩

/-- An update of a record that leaves queue, fuses and set-up alone. -/
theorem Stays.mk_ {b : Bool} {s0 s : State} {now : Nat} {tbOffset : Nat} {slices : List Slice} {ports : List Port} {refresh : Refresh} {quarters : List Quarter} {entries : List (Nat × Entry)} {internal : List Internal} {candidates : Nat} {fabric : Fabric} {hbm : Hbm} {links : Links} {boot : Boot} {stores : Stores} {profStore : List (Nat × List Byte)} {switch : Switch} {period : Nat} {periodAt : Nat} {oldHz : Option Nat} {sealKey : Option Seal} {sealUsed : Bool} {ring : Ring} {health : Health} {power : Power} {thermal : Thermal} {instruments : Debug} {free : Free}
    (h : Stays b s0 s) (n : s.now ≤ now) (m : Memory.wf s.hbm.mem = true → Memory.wf hbm.mem = true) (p : hbm.pool ≤ s.hbm.pool)
    (l1 : quarters.length = s.quarters.length) (l2 : slices.length = s.slices.length) (l3 : ports.length = s.ports.length)
    (l4 : hbm.hbmStacks.length = s.hbm.hbmStacks.length) (l5 : links.ports.length = s.links.ports.length) :
    Stays b s0 ⟨s.pending, now, tbOffset, slices, ports, refresh, quarters, entries, internal, candidates, fabric, hbm, links, s.straps, s.levels, s.fuses, boot, stores, s.profile, s.profNum, s.profRom, s.pepoch, profStore, switch, period, periodAt, oldHz, sealKey, sealUsed, ring, health, power, thermal, instruments, free⟩ :=
  Stays.updW h rfl rfl (fun _ => rfl) (fun _ => n) m (fun e => Nat.le_trans p e) l1 l2 (fun e => l3.trans e) (fun e => l4.trans e)
    (fun e => l5.trans e)

@[simp] theorem Hbm.write_pool (h : Hbm) (a : Nat) (data : List Byte) (es : List Bool) (p f : List Nat) : (h.write a data es p f).pool = h.pool := rfl

@[simp] theorem Hbm.write_stacks (h : Hbm) (a : Nat) (data : List Byte) (es : List Bool) (p f : List Nat) :
    (h.write a data es p f).hbmStacks = h.hbmStacks := rfl

@[simp] theorem Hbm.atomic_pool (h : Hbm) (a : Nat) (k : TxnKind) : (h.atomic a k).1.pool = h.pool := by
  unfold Hbm.atomic
  split
  · rfl
  · dsimp only
    split
    · rfl
    · split <;> rfl
    · rfl

@[simp] theorem Hbm.atomic_stacks (h : Hbm) (a : Nat) (k : TxnKind) : (h.atomic a k).1.hbmStacks = h.hbmStacks := by
  unfold Hbm.atomic
  split
  · rfl
  · dsimp only
    split
    · rfl
    · split <;> rfl
    · rfl

/-- The pieces of the pseudo channels touch neither the bytes nor the pool nor the stacks. -/
@[simp] theorem Hbm.pass_mem (h : Hbm) (o : List DramPiece) : (h.pass o).mem = h.mem := rfl
@[simp] theorem Hbm.pass_pool (h : Hbm) (o : List DramPiece) : (h.pass o).pool = h.pool := rfl
@[simp] theorem Hbm.pass_stacks (h : Hbm) (o : List DramPiece) : (h.pass o).hbmStacks = h.hbmStacks := rfl
@[simp] theorem Hbm.servePiece_mem (h : Hbm) (p : DramPiece) : (h.servePiece p).mem = h.mem := rfl
@[simp] theorem Hbm.servePiece_pool (h : Hbm) (p : DramPiece) : (h.servePiece p).pool = h.pool := rfl
@[simp] theorem Hbm.servePiece_stacks (h : Hbm) (p : DramPiece) : (h.servePiece p).hbmStacks = h.hbmStacks := rfl

/-- Writes one after another keep the form of memory and leave the pool and the stacks. -/
theorem Hbm.foldl_keeps {α : Type _} (f : Hbm → α → Hbm)
    (hf : ∀ h a, (Memory.wf h.mem = true → Memory.wf (f h a).mem = true) ∧ (f h a).pool = h.pool ∧ (f h a).hbmStacks = h.hbmStacks) :
    ∀ (l : List α) (h : Hbm), (Memory.wf h.mem = true → Memory.wf (l.foldl f h).mem = true) ∧
      (l.foldl f h).pool = h.pool ∧ (l.foldl f h).hbmStacks = h.hbmStacks
  | [], _ => ⟨id, rfl, rfl⟩
  | a :: l, h => by
    have k := Hbm.foldl_keeps f hf l (f h a)
    have j := hf h a
    exact ⟨k.1 ∘ j.1, k.2.1.trans j.2.1, k.2.2.trans j.2.2⟩

/-- An update of a record that may change the set-up and the time. -/
theorem Stays.mkF_ {s0 s : State} {now : Nat} {tbOffset : Nat} {slices : List Slice} {ports : List Port} {refresh : Refresh} {quarters : List Quarter} {entries : List (Nat × Entry)} {internal : List Internal} {candidates : Nat} {fabric : Fabric} {hbm : Hbm} {links : Links} {straps : Straps} {levels : Levels} {boot : Boot} {stores : Stores} {profile : Profile} {profNum : Nat} {profRom : Bool} {pepoch : Nat} {profStore : List (Nat × List Byte)} {switch : Switch} {period : Nat} {periodAt : Nat} {oldHz : Option Nat} {sealKey : Option Seal} {sealUsed : Bool} {ring : Ring} {health : Health} {power : Power} {thermal : Thermal} {instruments : Debug} {free : Free}
    (h : Stays false s0 s) (m : Memory.wf s.hbm.mem = true → Memory.wf hbm.mem = true) (p : hbm.pool ≤ s.hbm.pool)
    (l1 : quarters.length = s.quarters.length) (l2 : slices.length = s.slices.length) (l3 : ports.length = s.ports.length)
    (l4 : hbm.hbmStacks.length = s.hbm.hbmStacks.length) (l5 : links.ports.length = s.links.ports.length) :
    Stays false s0 ⟨s.pending, now, tbOffset, slices, ports, refresh, quarters, entries, internal, candidates, fabric, hbm, links, straps, levels, s.fuses, boot, stores, profile, profNum, profRom, pepoch, profStore, switch, period, periodAt, oldHz, sealKey, sealUsed, ring, health, power, thermal, instruments, free⟩ :=
  Stays.updW h rfl rfl (fun e => absurd e Bool.false_ne_true) (fun e => absurd e Bool.false_ne_true)
    m (fun e => Nat.le_trans p e) l1 l2 (fun e => l3.trans e) (fun e => l4.trans e) (fun e => l5.trans e)

theorem Stays.ite {b : Bool} {s0 s t : State} {c : Prop} [Decidable c] (h : Stays b s0 s) (k : Stays b s0 t) :
    Stays b s0 (if c then s else t) := by
  split
  · exact h
  · exact k

theorem Stays.foldl {b : Bool} {α : Type _} {s0 : State} (f : State → α → State)
    (hf : ∀ s a, Stays b s0 s → Stays b s0 (f s a)) : ∀ (l : List α) (s : State), Stays b s0 s → Stays b s0 (l.foldl f s)
  | [], _, h => h
  | a :: l, s, h => Stays.foldl f hf l (f s a) (hf s a h)

theorem Stays.fst {b : Bool} {α : Type _} {s0 s : State} {a : α} {e : State × α} (he : e = (s, a)) (h : Stays b s0 e.1) :
    Stays b s0 s := by
  rw [he] at h
  exact h

theorem Stays.progIte {b : Bool} {s0 : State} {p r : Prog} {c : Prop} [Decidable c] (h : Stays b s0 p.state) (k : Stays b s0 r.state) :
    Stays b s0 (if c then p else r).state := by
  split
  · exact h
  · exact k

theorem Stays.go {b : Bool} {s0 s : State} (h : Stays b s0 s) : Stays b s0 (Prog.go s).state := h

theorem Stays.stop {b : Bool} {s0 s : State} (h : Stays b s0 s) : Stays b s0 (Prog.stop s).state := h

theorem Stays.iteFst {b : Bool} {α : Type _} {s0 : State} {p r : State × α} {c : Prop} [Decidable c] (h : Stays b s0 p.1)
    (k : Stays b s0 r.1) : Stays b s0 (if c then p else r).1 := by
  split
  · exact h
  · exact k

theorem Stays.foldlFst {b : Bool} {α β : Type _} {s0 : State} (f : State × β → α → State × β)
    (hf : ∀ p a, Stays b s0 p.1 → Stays b s0 (f p a).1) : ∀ (l : List α) (p : State × β), Stays b s0 p.1 → Stays b s0 (l.foldl f p).1
  | [], _, h => h
  | a :: l, p, h => Stays.foldlFst f hf l (f p a) (hf p a h)

theorem Stays.andThen {b : Bool} {s0 : State} {p : Prog} {f : State → Prog} (h : Stays b s0 p.state)
    (k : ∀ s, Stays b s0 s → Stays b s0 (f s).state) : Stays b s0 (p.andThen f).state := by
  cases p with
  | go s => exact k s h
  | stop s => exact h

theorem Stays.until {b c : Bool} {s0 s : State} (h : Stays b s0 s) : Stays b s0 (Prog.until c s).state := by
  unfold Prog.until
  split <;> exact h

theorem guardLink_next {link : Nat} {k : Out} {t : State} (h : guardLink link k = .next t) : k = .next t := by
  unfold guardLink at h
  split at h
  · cases h
  · exact h

theorem guardPort_next {n : Nat} {k : Out} {t : State} (h : guardPort n k = .next t) : k = .next t := by
  unfold guardPort at h
  split at h
  · cases h
  · exact h

theorem guardFound_next {fs : List Found} {k : Out} {t : State} (h : guardFound fs k = .next t) : k = .next t := by
  unfold guardFound at h
  split at h
  · cases h
  · exact h

theorem fault_next {c : Prop} [Decidable c] {f : Fault} {k : Out} {t : State} (h : (if c then .fault f else k) = .next t) :
    k = .next t := by
  split at h
  · cases h
  · exact h

theorem opCommand_next {c : Nat} {fs : List Found} {s t : State} (h : opCommand c fs s = .next t) : Host.Outcome.next s = (.next t : Out) := by
  unfold opCommand at h
  exact guardFound_next (fault_next h)

end Sys2Proof.Machine
end

