-- ==== Sys2Proof/Laws/StaysOps.lean ====
section
/-! SUPPORT. Laws/StaysOps.lean: what each operation of Machine/Ops.lean leaves. -/
namespace Sys2Proof.Machine
set_option Elab.async false

theorem State.modQuarter_stays {kp : Bool} {s0 : State} {s : State} (q : Nat) (f : Quarter → Quarter) (hst : Stays kp s0 s) :
    Stays kp s0 (State.modQuarter s q f) := by
  unfold State.modQuarter
  try dsimp only
  repeat' first
    | with_reducible assumption
    | (with_reducible apply Stays.mk_ <;> first | (show Stays _ _ _; skip) | simp +contextual)
    | dsimp only

theorem State.modSlice_stays {kp : Bool} {s0 : State} {s : State} (i : Nat) (f : Slice → Slice) (hst : Stays kp s0 s) :
    Stays kp s0 (State.modSlice s i f) := by
  unfold State.modSlice
  try dsimp only
  repeat' first
    | with_reducible assumption
    | (with_reducible apply Stays.mk_ <;> first | (show Stays _ _ _; skip) | simp +contextual)
    | dsimp only

theorem State.modPort_stays {kp : Bool} {s0 : State} {s : State} (i : Nat) (p : Nat) (f : Port → Port) (hst : Stays kp s0 s) :
    Stays kp s0 (State.modPort s i p f) := by
  unfold State.modPort
  try dsimp only
  repeat' first
    | with_reducible assumption
    | (with_reducible apply Stays.mk_ <;> first | (show Stays _ _ _; skip) | simp +contextual)
    | dsimp only

theorem State.putEntry_stays {kp : Bool} {s0 : State} {s : State} (c : Nat) (e : Entry) (hst : Stays kp s0 s) :
    Stays kp s0 (State.putEntry s c e) := by
  unfold State.putEntry
  try dsimp only
  repeat' first
    | with_reducible assumption
    | (with_reducible apply Stays.mk_ <;> first | (show Stays _ _ _; skip) | simp +contextual)
    | dsimp only

theorem State.modEntry_stays {kp : Bool} {s0 : State} {s : State} (c : Nat) (f : Entry → Entry) (hst : Stays kp s0 s) :
    Stays kp s0 (State.modEntry s c f) := by
  unfold State.modEntry
  try dsimp only
  repeat' first
    | with_reducible assumption
    | with_reducible apply State.putEntry_stays
    | split
    | (with_reducible apply Stays.fst; with_reducible assumption)
    | dsimp only

theorem State.dropEntry_stays {kp : Bool} {s0 : State} {s : State} (c : Nat) (hst : Stays kp s0 s) :
    Stays kp s0 (State.dropEntry s c) := by
  unfold State.dropEntry
  try dsimp only
  repeat' first
    | with_reducible assumption
    | intro _
    | with_reducible apply Stays.ite
    | split
    | (with_reducible apply Stays.mk_ <;> first | (show Stays _ _ _; skip) | simp +contextual)
    | dsimp only

theorem State.notePlaneWriter_stays {kp : Bool} {s0 : State} {s : State} (q : Nat) (c : Nat) (hst : Stays kp s0 s) :
    Stays kp s0 (State.notePlaneWriter s q c) := by
  unfold State.notePlaneWriter
  try dsimp only
  repeat' first
    | with_reducible assumption
    | intro _
    | with_reducible apply State.modQuarter_stays
    | (with_reducible apply Stays.mk_ <;> first | (show Stays _ _ _; skip) | simp +contextual)
    | dsimp only

theorem State.modFport_stays {kp : Bool} {s0 : State} {s : State} (n : Nat) (f : FabricPort → FabricPort) (hst : Stays kp s0 s) :
    Stays kp s0 (State.modFport s n f) := by
  unfold State.modFport
  try dsimp only
  repeat' first
    | with_reducible assumption
    | (with_reducible apply Stays.mk_ <;> first | (show Stays _ _ _; skip) | simp +contextual)
    | dsimp only

theorem State.modLykel_stays {kp : Bool} {s0 : State} {s : State} (link : Nat) (f : Lykel → Lykel) (hst : Stays kp s0 s) :
    Stays kp s0 (State.modLykel s link f) := by
  unfold State.modLykel
  try dsimp only
  repeat' first
    | with_reducible assumption
    | intro _
    | with_reducible apply Stays.ite
    | with_reducible apply State.modFport_stays
    | split
    | (with_reducible apply Stays.mk_ <;> first | (show Stays _ _ _; skip) | simp +contextual)
    | dsimp only

theorem State.modHost_stays {kp : Bool} {s0 : State} {s : State} (f : HostLink → HostLink) (hst : Stays kp s0 s) :
    Stays kp s0 (State.modHost s f) := by
  unfold State.modHost
  try dsimp only
  repeat' first
    | with_reducible assumption
    | (with_reducible apply Stays.mk_ <;> first | (show Stays _ _ _; skip) | simp +contextual)
    | dsimp only

theorem State.modFabric_stays {kp : Bool} {s0 : State} {s : State} (f : Fabric → Fabric) (hst : Stays kp s0 s) :
    Stays kp s0 (State.modFabric s f) := by
  unfold State.modFabric
  try dsimp only
  repeat' first
    | with_reducible assumption
    | (with_reducible apply Stays.mk_ <;> first | (show Stays _ _ _; skip) | simp +contextual)
    | dsimp only

theorem State.advanceTo_stays {kp : Bool} {s0 : State} {s : State} (t : Nat) (hst : Stays kp s0 s) :
    Stays kp s0 (State.advanceTo s t) := by
  exact Stays.updW hst rfl rfl (fun _ => rfl) (fun _ => Nat.le_max_left _ _) id id rfl rfl id id id


theorem State.bump_stays {kp : Bool} {s0 : State} {s : State} (page : Nat) (off : Nat) (w : Nat) (n : Nat) (hst : Stays kp s0 s) :
    Stays kp s0 (State.bump s page off w n) := by
  unfold State.bump
  try dsimp only
  repeat' first
    | with_reducible assumption
    | (with_reducible apply Stays.mk_ <;> first | (show Stays _ _ _; skip) | simp +contextual)
    | dsimp only

theorem State.recordLost_stays {kp : Bool} {s0 : State} {s : State} (n : Nat) (hst : Stays kp s0 s) :
    Stays kp s0 (State.recordLost s n) := by
  unfold State.recordLost
  try dsimp only
  repeat' first
    | with_reducible assumption
    | with_reducible apply State.bump_stays
    | dsimp only

theorem State.post_stays {kp : Bool} {s0 : State} {s : State} (t : Txn) (hst : Stays kp s0 s) :
    Stays kp s0 (State.post s t) := by
  unfold State.post
  try dsimp only
  repeat' first
    | with_reducible assumption
    | intro _
    | with_reducible apply State.modFabric_stays
    | (with_reducible apply Stays.mk_ <;> first | (show Stays _ _ _; skip) | simp +contextual)
    | dsimp only

theorem State.postAll_stays {kp : Bool} {s0 : State} {s : State} (ts : List Txn) (hst : Stays kp s0 s) :
    Stays kp s0 (State.postAll s ts) := by
  unfold State.postAll
  try dsimp only
  repeat' first
    | with_reducible assumption
    | intro _
    | with_reducible apply State.post_stays
    | (with_reducible apply Stays.foldl; intro _ _ _)
    | (with_reducible apply Stays.foldlFst; intro _ _ _)
    | dsimp only

theorem State.writeRecord_stays {kp : Bool} {s0 : State} {s : State} (master : Nat) (owner : TxnOwner) (spa : Nat) (bytes : List Byte) (after : List Nat)
    (hst : Stays kp s0 s) :
    Stays kp s0 (State.writeRecord s master owner spa bytes after) := by
  unfold State.writeRecord
  try dsimp only
  repeat' first
    | with_reducible assumption
    | with_reducible apply Stays.ite
    | with_reducible apply State.post_stays
    | with_reducible apply State.recordLost_stays
    | split
    | dsimp only

theorem State.devicePart_stays {kp : Bool} {s0 : State} {s : State} (code : Nat) (handle : Option Nat) (parts : Nat) (p : Nat × List Byte)
    (hst : Stays kp s0 s) :
    Stays kp s0 (State.devicePart s code handle parts p) := by
  unfold State.devicePart
  try dsimp only
  repeat' first
    | with_reducible assumption
    | with_reducible apply Stays.ite
    | with_reducible apply Stays.iteFst
    | with_reducible apply State.recordLost_stays
    | with_reducible apply State.writeRecord_stays
    | split
    | (with_reducible apply Stays.mk_ <;> first | (show Stays _ _ _; skip) | simp +contextual)
    | dsimp only

theorem State.deviceEventParts_stays {kp : Bool} {s0 : State} {s : State} (code : Nat) (handle : Option Nat) (payloads : List (List Byte))
    (hst : Stays kp s0 s) :
    Stays kp s0 (State.deviceEventParts s code handle payloads) := by
  unfold State.deviceEventParts
  try dsimp only
  repeat' first
    | with_reducible assumption
    | intro _
    | with_reducible apply State.devicePart_stays
    | (with_reducible apply Stays.foldl; intro _ _ _)
    | (with_reducible apply Stays.foldlFst; intro _ _ _)
    | dsimp only

theorem State.deviceEvent_stays {kp : Bool} {s0 : State} {s : State} (code : Nat) (handle : Option Nat) (payload : List Byte)
    (hst : Stays kp s0 s) :
    Stays kp s0 (State.deviceEvent s code handle payload) := by
  unfold State.deviceEvent
  try dsimp only
  repeat' first
    | with_reducible assumption
    | with_reducible apply State.deviceEventParts_stays
    | dsimp only

theorem State.contextEvent_stays {kp : Bool} {s0 : State} {s : State} (c : Nat) (code : Nat) (payload : List Byte) (hst : Stays kp s0 s) :
    Stays kp s0 (State.contextEvent s c code payload) := by
  unfold State.contextEvent
  try dsimp only
  repeat' first
    | with_reducible assumption
    | intro _
    | with_reducible apply Stays.ite
    | with_reducible apply State.writeRecord_stays
    | with_reducible apply State.modEntry_stays
    | with_reducible apply State.recordLost_stays
    | split
    | (with_reducible apply Stays.mk_ <;> first | (show Stays _ _ _; skip) | simp +contextual)
    | dsimp only

theorem State.respond_stays {kp : Bool} {s0 : State} {s : State} (c : Nat) (pkt : List Byte) (kind : Nat) (code : Nat) (count : Nat) (pepoch : Nat) (after : List Nat)
    (hst : Stays kp s0 s) :
    Stays kp s0 (State.respond s c pkt kind code count pepoch after) := by
  unfold State.respond
  try dsimp only
  repeat' first
    | with_reducible assumption
    | intro _
    | with_reducible apply Stays.ite
    | with_reducible apply State.writeRecord_stays
    | with_reducible apply State.modEntry_stays
    | split
    | (with_reducible apply Stays.mk_ <;> first | (show Stays _ _ _; skip) | simp +contextual)
    | dsimp only

theorem State.writeProgress_stays {kp : Bool} {s0 : State} {s : State} (c : Nat) (after : List Nat) (hst : Stays kp s0 s) :
    Stays kp s0 (State.writeProgress s c after) := by
  unfold State.writeProgress
  try dsimp only
  repeat' first
    | with_reducible assumption
    | intro _
    | with_reducible apply Stays.ite
    | with_reducible apply State.writeRecord_stays
    | with_reducible apply State.modEntry_stays
    | split
    | (with_reducible apply Stays.mk_ <;> first | (show Stays _ _ _; skip) | simp +contextual)
    | dsimp only

theorem State.nakArrival_stays {kp : Bool} {s0 : State} {s : State} (c : Nat) (pkt : List Byte) (code : Nat) (hst : Stays kp s0 s) :
    Stays kp s0 (State.nakArrival s c pkt code) := by
  unfold State.nakArrival
  try dsimp only
  repeat' first
    | with_reducible assumption
    | intro _
    | with_reducible apply State.modEntry_stays
    | with_reducible apply State.writeRecord_stays
    | with_reducible apply State.writeProgress_stays
    | (with_reducible apply Stays.mk_ <;> first | (show Stays _ _ _; skip) | simp +contextual)
    | dsimp only

theorem State.popOp_stays {kp : Bool} {s0 : State} {s : State} (c : Nat) (hst : Stays kp s0 s) :
    Stays kp s0 (State.popOp s c) := by
  unfold State.popOp
  try dsimp only
  repeat' first
    | with_reducible assumption
    | intro _
    | with_reducible apply State.modEntry_stays
    | split
    | (with_reducible apply Stays.fst; with_reducible assumption)
    | (with_reducible apply Stays.mk_ <;> first | (show Stays _ _ _; skip) | simp +contextual)
    | dsimp only

theorem State.nakIssue_stays {kp : Bool} {s0 : State} {s : State} (c : Nat) (code : Nat) (hst : Stays kp s0 s) :
    Stays kp s0 (State.nakIssue s c code) := by
  unfold State.nakIssue
  try dsimp only
  repeat' first
    | with_reducible assumption
    | intro _
    | with_reducible apply Stays.ite
    | with_reducible apply State.popOp_stays
    | with_reducible apply State.modEntry_stays
    | with_reducible apply State.respond_stays
    | with_reducible apply State.writeProgress_stays
    | split
    | (with_reducible apply Stays.fst; with_reducible assumption)
    | (with_reducible apply Stays.mk_ <;> first | (show Stays _ _ _; skip) | simp +contextual)
    | dsimp only

theorem State.showStat_stays {kp : Bool} {s0 : State} {s : State} (v : Nat) (hst : Stays kp s0 s) :
    Stays kp s0 (State.showStat s v) := by
  unfold State.showStat
  try dsimp only
  repeat' first
    | with_reducible assumption
    | with_reducible apply Stays.ite
    | split
    | (with_reducible apply Stays.mk_ <;> first | (show Stays _ _ _; skip) | simp +contextual)
    | dsimp only

theorem State.sendVid_stays {kp : Bool} {s0 : State} {s : State} (code : Nat) (hst : Stays kp s0 s) :
    Stays kp s0 (State.sendVid s code) := by
  unfold State.sendVid
  try dsimp only
  repeat' first
    | with_reducible assumption
    | split
    | (with_reducible apply Stays.fst; with_reducible assumption)
    | (with_reducible apply Stays.mk_ <;> first | (show Stays _ _ _; skip) | simp +contextual)
    | dsimp only

theorem State.sendVidNow_stays {kp : Bool} {s0 : State} {s : State} (code : Nat) (hst : Stays kp s0 s) :
    Stays kp s0 (State.sendVidNow s code) := by
  unfold State.sendVidNow
  try dsimp only
  repeat' first
    | with_reducible assumption
    | (with_reducible apply Stays.mk_ <;> first | (show Stays _ _ _; skip) | simp +contextual)
    | dsimp only

theorem State.chargeCore_stays {kp : Bool} {s0 : State} {s : State} (n : Nat) (hst : Stays kp s0 s) :
    Stays kp s0 (State.chargeCore s n) := by
  unfold State.chargeCore
  try dsimp only
  repeat' first
    | with_reducible assumption
    | (with_reducible apply Stays.mk_ <;> first | (show Stays _ _ _; skip) | simp +contextual)
    | dsimp only

theorem State.chargeFixed_stays {kp : Bool} {s0 : State} {s : State} (n : Nat) (hst : Stays kp s0 s) :
    Stays kp s0 (State.chargeFixed s n) := by
  unfold State.chargeFixed
  try dsimp only
  repeat' first
    | with_reducible assumption
    | (with_reducible apply Stays.mk_ <;> first | (show Stays _ _ _; skip) | simp +contextual)
    | dsimp only

end Sys2Proof.Machine
end

