-- ==== Sys2Proof/Laws/StaysTrf.lean ====
section
/-! SUPPORT. Laws/StaysTrf.lean: what each operation of Machine/Trf.lean leaves. -/
namespace Sys2Proof.Machine
set_option Elab.async false

theorem State.newSweep_stays {kp : Bool} {s0 : State} {s : State} (t : Nat) (hst : Stays kp s0 s) :
    Stays kp s0 (State.newSweep s t) := by
  unfold State.newSweep
  try dsimp only
  repeat' first
    | with_reducible assumption
    | intro _
    | with_reducible apply Stays.ite
    | split
    | (with_reducible apply Stays.mk_ <;> first | (show Stays _ _ _; skip) | simp +contextual)
    | dsimp only

theorem State.dropTilePegs_stays {kp : Bool} {s0 : State} {s : State} (k : Nat) (n : Nat) (hst : Stays kp s0 s) :
    Stays kp s0 (State.dropTilePegs s k n) := by
  unfold State.dropTilePegs
  try dsimp only
  repeat' first
    | with_reducible assumption
    | intro _
    | (with_reducible apply Stays.mk_ <;> first | (show Stays _ _ _; skip) | simp +contextual)
    | dsimp only

theorem State.dropSlotPegs_stays {kp : Bool} {s0 : State} {s : State} (k : Nat) (hst : Stays kp s0 s) :
    Stays kp s0 (State.dropSlotPegs s k) := by
  unfold State.dropSlotPegs
  try dsimp only
  repeat' first
    | with_reducible assumption
    | intro _
    | (with_reducible apply Stays.mk_ <;> first | (show Stays _ _ _; skip) | simp +contextual)
    | dsimp only

theorem State.modPlane_stays {kp : Bool} {s0 : State} {s : State} (q : Nat) (p : Nat) (f : PhysPlane → PhysPlane) (hst : Stays kp s0 s) :
    Stays kp s0 (State.modPlane s q p f) := by
  unfold State.modPlane
  try dsimp only
  repeat' first
    | with_reducible assumption
    | intro _
    | with_reducible apply State.modQuarter_stays
    | (with_reducible apply Stays.mk_ <;> first | (show Stays _ _ _; skip) | simp +contextual)
    | dsimp only

end Sys2Proof.Machine
end

