-- ==== Sys2Proof/Laws/StaysContext.lean ====
section
/-! SUPPORT. Laws/StaysContext.lean: what each operation of Machine/Context.lean leaves. -/
namespace Sys2Proof.Machine
set_option Elab.async false

theorem State.postHeads_stays {kp : Bool} {s0 : State} {s : State} (hst : Stays kp s0 s) :
    Stays kp s0 (State.postHeads s) := by
  unfold State.postHeads
  try dsimp only
  repeat' first
    | with_reducible assumption
    | intro _
    | with_reducible apply Stays.ite
    | with_reducible apply Stays.iteFst
    | split
    | (with_reducible apply Stays.mk_ <;> first | (show Stays _ _ _; skip) | simp +contextual)
    | dsimp only

theorem State.postFor_stays {kp : Bool} {s0 : State} {s : State} (q : Nat) (lane : Nat) (r : LaneReq) (ports : List Nat)
    (hst : Stays kp s0 s) :
    Stays kp s0 (State.postFor s q lane r ports) := by
  unfold State.postFor
  try dsimp only
  repeat' first
    | with_reducible assumption
    | intro _
    | with_reducible apply State.modQuarter_stays
    | with_reducible apply State.postHeads_stays
    | (with_reducible apply Stays.mk_ <;> first | (show Stays _ _ _; skip) | simp +contextual)
    | dsimp only

theorem State.postLines_stays {kp : Bool} {s0 : State} {s : State} (q : Nat) (lane : Nat) (kind : Nat) (c : Nat) (ports : List Nat)
    (hst : Stays kp s0 s) :
    Stays kp s0 (State.postLines s q lane kind c ports) := by
  unfold State.postLines
  try dsimp only
  repeat' first
    | with_reducible assumption
    | with_reducible apply State.postFor_stays
    | dsimp only

theorem State.dropRequests_stays {kp : Bool} {s0 : State} {s : State} (p : LaneReq → Bool) (hst : Stays kp s0 s) :
    Stays kp s0 (State.dropRequests s p) := by
  unfold State.dropRequests
  try dsimp only
  repeat' first
    | with_reducible assumption
    | intro _
    | with_reducible apply State.postHeads_stays
    | (with_reducible apply Stays.foldl; intro _ _ _)
    | (with_reducible apply Stays.foldlFst; intro _ _ _)
    | (with_reducible apply Stays.mk_ <;> first | (show Stays _ _ _; skip) | simp +contextual)
    | dsimp only

theorem State.modHeadOp_stays {kp : Bool} {s0 : State} {s : State} (c : Nat) (f : Op → Op) (hst : Stays kp s0 s) :
    Stays kp s0 (State.modHeadOp s c f) := by
  unfold State.modHeadOp
  try dsimp only
  repeat' first
    | with_reducible assumption
    | intro _
    | with_reducible apply State.modEntry_stays
    | split
    | (with_reducible apply Stays.fst; with_reducible assumption)
    | (with_reducible apply Stays.mk_ <;> first | (show Stays _ _ _; skip) | simp +contextual)
    | dsimp only

theorem State.modJob_stays {kp : Bool} {s0 : State} {s : State} (q : Nat) (c : Nat) (f : Job → Job) (hst : Stays kp s0 s) :
    Stays kp s0 (State.modJob s q c f) := by
  unfold State.modJob
  try dsimp only
  repeat' first
    | with_reducible assumption
    | intro _
    | with_reducible apply Stays.ite
    | with_reducible apply State.modQuarter_stays
    | split
    | (with_reducible apply Stays.mk_ <;> first | (show Stays _ _ _; skip) | simp +contextual)
    | dsimp only

theorem State.dropJob_stays {kp : Bool} {s0 : State} {s : State} (q : Nat) (c : Nat) (hst : Stays kp s0 s) :
    Stays kp s0 (State.dropJob s q c) := by
  unfold State.dropJob
  try dsimp only
  repeat' first
    | with_reducible assumption
    | intro _
    | with_reducible apply State.modQuarter_stays
    | (with_reducible apply Stays.mk_ <;> first | (show Stays _ _ _; skip) | simp +contextual)
    | dsimp only

theorem State.withdraw_stays {kp : Bool} {s0 : State} {s : State} (c : Nat) (hst : Stays kp s0 s) :
    Stays kp s0 (State.withdraw s c) := by
  unfold State.withdraw
  try dsimp only
  repeat' first
    | with_reducible assumption
    | intro _
    | with_reducible apply Stays.ite
    | with_reducible apply State.dropRequests_stays
    | split
    | (with_reducible apply Stays.fst; with_reducible assumption)
    | (with_reducible apply Stays.mk_ <;> first | (show Stays _ _ _; skip) | simp +contextual)
    | dsimp only

theorem State.dropMoves_stays {kp : Bool} {s0 : State} {s : State} (p : MoveJob → Bool) (hst : Stays kp s0 s) :
    Stays kp s0 (State.dropMoves s p) := by
  unfold State.dropMoves
  try dsimp only
  repeat' first
    | with_reducible assumption
    | intro _
    | with_reducible apply Stays.ite
    | with_reducible apply Stays.iteFst
    | with_reducible apply State.dropRequests_stays
    | (with_reducible apply Stays.foldl; intro _ _ _)
    | (with_reducible apply Stays.foldlFst; intro _ _ _)
    | split
    | (with_reducible apply Stays.mk_ <;> first | (show Stays _ _ _; skip) | simp +contextual)
    | dsimp only

theorem State.releaseStaged_stays {kp : Bool} {s0 : State} {s : State} (c : Nat) (hst : Stays kp s0 s) :
    Stays kp s0 (State.releaseStaged s c) := by
  unfold State.releaseStaged
  try dsimp only
  repeat' first
    | with_reducible assumption
    | intro _
    | (with_reducible apply Stays.mk_ <;> first | (show Stays _ _ _; skip) | simp +contextual)
    | dsimp only

theorem State.dropAhead_stays {kp : Bool} {s0 : State} {s : State} (c : Nat) (hst : Stays kp s0 s) :
    Stays kp s0 (State.dropAhead s c) := by
  unfold State.dropAhead
  try dsimp only
  repeat' first
    | with_reducible assumption
    | intro _
    | with_reducible apply Stays.ite
    | with_reducible apply State.withdraw_stays
    | with_reducible apply State.releaseStaged_stays
    | with_reducible apply State.modEntry_stays
    | split
    | (with_reducible apply Stays.mk_ <;> first | (show Stays _ _ _; skip) | simp +contextual)
    | dsimp only

theorem State.dropTranslations_stays {kp : Bool} {s0 : State} {s : State} (c : Nat) (hst : Stays kp s0 s) :
    Stays kp s0 (State.dropTranslations s c) := by
  unfold State.dropTranslations
  try dsimp only
  repeat' first
    | with_reducible assumption
    | intro _
    | (with_reducible apply Stays.mk_ <;> first | (show Stays _ _ _; skip) | simp +contextual)
    | dsimp only

theorem State.chargeDl_stays {kp : Bool} {s0 : State} {s : State} (c : Nat) (period : Nat) (n : Nat) (frame : Option Int)
    (hst : Stays kp s0 s) :
    Stays kp s0 (State.chargeDl s c period n frame) := by
  unfold State.chargeDl
  try dsimp only
  repeat' first
    | with_reducible assumption
    | intro _
    | with_reducible apply Stays.ite
    | with_reducible apply State.modEntry_stays
    | split
    | (with_reducible apply Stays.mk_ <;> first | (show Stays _ _ _; skip) | simp +contextual)
    | dsimp only

theorem State.chargeSegment_stays {kp : Bool} {s0 : State} {s : State} (c : Nat) (j : Job) (h : Nat) (hst : Stays kp s0 s) :
    Stays kp s0 (State.chargeSegment s c j h) := by
  unfold State.chargeSegment
  try dsimp only
  repeat' first
    | with_reducible assumption
    | with_reducible apply Stays.ite
    | with_reducible apply State.chargeDl_stays
    | split
    | (with_reducible apply Stays.fst; with_reducible assumption)
    | dsimp only

theorem State.chargeHeld_stays {kp : Bool} {s0 : State} {s : State} (j : Job) (hst : Stays kp s0 s) :
    Stays kp s0 (State.chargeHeld s j) := by
  unfold State.chargeHeld
  try dsimp only
  repeat' first
    | with_reducible assumption
    | with_reducible apply State.chargeSegment_stays
    | dsimp only

theorem State.noteOverrun_stays {kp : Bool} {s0 : State} {s : State} (c : Nat) (p : Nat) (hst : Stays kp s0 s) :
    Stays kp s0 (State.noteOverrun s c p) := by
  unfold State.noteOverrun
  try dsimp only
  repeat' first
    | with_reducible assumption
    | intro _
    | with_reducible apply Stays.ite
    | with_reducible apply State.modEntry_stays
    | with_reducible apply State.contextEvent_stays
    | split
    | (with_reducible apply Stays.fst; with_reducible assumption)
    | (with_reducible apply Stays.mk_ <;> first | (show Stays _ _ _; skip) | simp +contextual)
    | dsimp only

theorem State.suspendIn_stays {kp : Bool} {s0 : State} {s : State} (tick : Nat) (period : Nat) (q : Nat) (cause : Nat)
    (hst : Stays kp s0 s) :
    Stays kp s0 (State.suspendIn s tick period q cause) := by
  unfold State.suspendIn
  try dsimp only
  repeat' first
    | with_reducible assumption
    | intro _
    | with_reducible apply State.modQuarter_stays
    | with_reducible apply State.modEntry_stays
    | with_reducible apply State.contextEvent_stays
    | (with_reducible apply Stays.foldl; intro _ _ _)
    | (with_reducible apply Stays.foldlFst; intro _ _ _)
    | (with_reducible apply Stays.mk_ <;> first | (show Stays _ _ _; skip) | simp +contextual)
    | dsimp only

theorem State.suspend_stays {kp : Bool} {s0 : State} {s : State} (q : Nat) (cause : Nat) (hst : Stays kp s0 s) :
    Stays kp s0 (State.suspend s q cause) := by
  unfold State.suspend
  try dsimp only
  repeat' first
    | with_reducible assumption
    | with_reducible apply State.suspendIn_stays
    | dsimp only

theorem State.abortSegment_stays {kp : Bool} {s0 : State} {s : State} (q : Nat) (j : Job) (hst : Stays kp s0 s) :
    Stays kp s0 (State.abortSegment s q j) := by
  unfold State.abortSegment
  try dsimp only
  repeat' first
    | with_reducible assumption
    | intro _
    | with_reducible apply Stays.ite
    | with_reducible apply State.withdraw_stays
    | with_reducible apply State.releaseStaged_stays
    | with_reducible apply State.modEntry_stays
    | with_reducible apply State.modHeadOp_stays
    | with_reducible apply State.modPlane_stays
    | with_reducible apply State.putEntry_stays
    | with_reducible apply State.modQuarter_stays
    | with_reducible apply State.dropJob_stays
    | split
    | (with_reducible apply Stays.fst; with_reducible assumption)
    | (with_reducible apply Stays.mk_ <;> first | (show Stays _ _ _; skip) | simp +contextual)
    | dsimp only

theorem State.preemptJob_stays {kp : Bool} {s0 : State} {s : State} (q : Nat) (j : Job) (src : PreemptSource) (displacing : Bool)
    (hst : Stays kp s0 s) :
    Stays kp s0 (State.preemptJob s q j src displacing) := by
  unfold State.preemptJob
  try dsimp only
  repeat' first
    | with_reducible assumption
    | intro _
    | with_reducible apply Stays.ite
    | with_reducible apply State.chargeHeld_stays
    | with_reducible apply State.noteOverrun_stays
    | with_reducible apply State.abortSegment_stays
    | with_reducible apply State.modHeadOp_stays
    | with_reducible apply State.modEntry_stays
    | with_reducible apply State.modJob_stays
    | split
    | (with_reducible apply Stays.fst; with_reducible assumption)
    | (with_reducible apply Stays.mk_ <;> first | (show Stays _ _ _; skip) | simp +contextual)
    | dsimp only

theorem State.preemptWhere_stays {kp : Bool} {s0 : State} {s : State} (q : Nat) (src : PreemptSource) (displacing : Bool) (p : Job → Bool)
    (hst : Stays kp s0 s) :
    Stays kp s0 (State.preemptWhere s q src displacing p) := by
  unfold State.preemptWhere
  try dsimp only
  repeat' first
    | with_reducible assumption
    | intro _
    | with_reducible apply State.preemptJob_stays
    | (with_reducible apply Stays.foldl; intro _ _ _)
    | (with_reducible apply Stays.foldlFst; intro _ _ _)
    | dsimp only

theorem State.takeFloors_stays {kp : Bool} {s0 : State} {s : State} (k : Nat) (iso : Option Nat) (hst : Stays kp s0 s) :
    Stays kp s0 (State.takeFloors s k iso) := by
  unfold State.takeFloors
  try dsimp only
  repeat' first
    | with_reducible assumption
    | intro _
    | with_reducible apply Stays.ite
    | with_reducible apply Stays.iteFst
    | split
    | (with_reducible apply Stays.fst; with_reducible assumption)
    | (with_reducible apply Stays.mk_ <;> first | (show Stays _ _ _; skip) | simp +contextual)
    | dsimp only

theorem State.dropFloors_stays {kp : Bool} {s0 : State} {s : State} (k : Nat) (iso : Option Nat) (hst : Stays kp s0 s) :
    Stays kp s0 (State.dropFloors s k iso) := by
  unfold State.dropFloors
  try dsimp only
  repeat' first
    | with_reducible assumption
    | intro _
    | with_reducible apply Stays.ite
    | with_reducible apply Stays.iteFst
    | split
    | (with_reducible apply Stays.fst; with_reducible assumption)
    | (with_reducible apply Stays.mk_ <;> first | (show Stays _ _ _; skip) | simp +contextual)
    | dsimp only

theorem State.freePlanes_stays {kp : Bool} {s0 : State} {s : State} (c : Nat) (hst : Stays kp s0 s) :
    Stays kp s0 (State.freePlanes s c) := by
  unfold State.freePlanes
  try dsimp only
  repeat' first
    | with_reducible assumption
    | intro _
    | with_reducible apply Stays.ite
    | with_reducible apply Stays.iteFst
    | split
    | (with_reducible apply Stays.mk_ <;> first | (show Stays _ _ _; skip) | simp +contextual)
    | dsimp only

theorem State.freeSlot_stays {kp : Bool} {s0 : State} {s : State} (c : Nat) (hst : Stays kp s0 s) :
    Stays kp s0 (State.freeSlot s c) := by
  unfold State.freeSlot
  try dsimp only
  repeat' first
    | with_reducible assumption
    | intro _
    | with_reducible apply Stays.ite
    | with_reducible apply State.dropMoves_stays
    | with_reducible apply State.withdraw_stays
    | with_reducible apply State.freePlanes_stays
    | with_reducible apply State.dropTranslations_stays
    | with_reducible apply State.dropFloors_stays
    | with_reducible apply State.dropSlotPegs_stays
    | with_reducible apply State.modEntry_stays
    | split
    | (with_reducible apply Stays.fst; with_reducible assumption)
    | (with_reducible apply Stays.mk_ <;> first | (show Stays _ _ _; skip) | simp +contextual)
    | dsimp only

theorem State.dropInternal_stays {kp : Bool} {s0 : State} {s : State} (p : Internal → Bool) (hst : Stays kp s0 s) :
    Stays kp s0 (State.dropInternal s p) := by
  unfold State.dropInternal
  try dsimp only
  repeat' first
    | with_reducible assumption
    | intro _
    | (with_reducible apply Stays.mk_ <;> first | (show Stays _ _ _; skip) | simp +contextual)
    | dsimp only

theorem State.faultContext_stays {kp : Bool} {s0 : State} {s : State} (c : Nat) (i : FaultInfo) (hst : Stays kp s0 s) :
    Stays kp s0 (State.faultContext s c i) := by
  unfold State.faultContext
  try dsimp only
  repeat' first
    | with_reducible assumption
    | intro _
    | with_reducible apply Stays.ite
    | with_reducible apply State.chargeHeld_stays
    | with_reducible apply State.abortSegment_stays
    | with_reducible apply State.withdraw_stays
    | with_reducible apply State.contextEvent_stays
    | with_reducible apply State.respond_stays
    | with_reducible apply State.freeSlot_stays
    | with_reducible apply State.modEntry_stays
    | with_reducible apply State.dropInternal_stays
    | with_reducible apply State.writeProgress_stays
    | split
    | (with_reducible apply Stays.fst; with_reducible assumption)
    | (with_reducible apply Stays.mk_ <;> first | (show Stays _ _ _; skip) | simp +contextual)
    | dsimp only

end Sys2Proof.Machine
end

