-- ==== Sys2Proof/Laws/StaysProfiles.lean ====
section
/-! SUPPORT. Laws/StaysProfiles.lean: what each operation of Machine/Profiles.lean leaves. -/
namespace Sys2Proof.Machine
set_option Elab.async false

theorem State.rejectEvent_stays {kp : Bool} {s0 : State} {s : State} (n : Nat) (r : Reject) (hst : Stays kp s0 s) :
    Stays kp s0 (State.rejectEvent s n r) := by
  unfold State.rejectEvent
  try dsimp only
  repeat' first
    | with_reducible assumption
    | with_reducible apply State.deviceEvent_stays
    | dsimp only

end Sys2Proof.Machine
end

