-- ==== Sys2Proof/Laws/StaysStatus.lean ====
section
/-! SUPPORT. Laws/StaysStatus.lean: what each operation of Machine/Status.lean leaves. -/
namespace Sys2Proof.Machine
set_option Elab.async false

theorem State.refreshStat_stays {kp : Bool} {s0 : State} {s : State} (hst : Stays kp s0 s) :
    Stays kp s0 (State.refreshStat s) := by
  unfold State.refreshStat
  try dsimp only
  repeat' first
    | with_reducible assumption
    | with_reducible apply Stays.ite
    | with_reducible apply State.showStat_stays
    | split
    | dsimp only

theorem State.linksDown_stays {kp : Bool} {s0 : State} {s : State} (hst : Stays kp s0 s) :
    Stays kp s0 (State.linksDown s) := by
  exact Stays.updW hst rfl rfl (fun _ => rfl) (fun _ => Nat.le_refl _) id id rfl rfl id id (fun _ => rfl)


theorem State.stopRoutines_stays {kp : Bool} {s0 : State} {s : State} (hst : Stays kp s0 s) :
    Stays kp s0 (State.stopRoutines s) := by
  unfold State.stopRoutines
  try dsimp only
  repeat' first
    | with_reducible assumption
    | intro _
    | (with_reducible apply Stays.mk_ <;> first | (show Stays _ _ _; skip) | simp +contextual)
    | dsimp only

theorem State.goFatal_stays {kp : Bool} {s0 : State} {s : State} (code : Nat) (hst : Stays kp s0 s) :
    Stays kp s0 (State.goFatal s code) := by
  unfold State.goFatal
  try dsimp only
  repeat' first
    | with_reducible assumption
    | with_reducible apply Stays.ite
    | with_reducible apply State.linksDown_stays
    | with_reducible apply State.stopRoutines_stays
    | with_reducible apply State.sendVid_stays
    | with_reducible apply State.showStat_stays
    | split
    | (with_reducible apply Stays.mk_ <;> first | (show Stays _ _ _; skip) | simp +contextual)
    | dsimp only

theorem State.applyFinding_stays {kp : Bool} {s0 : State} {s : State} (f : Finding) (hst : Stays kp s0 s) :
    Stays kp s0 (State.applyFinding s f) := by
  unfold State.applyFinding
  try dsimp only
  repeat' first
    | with_reducible assumption
    | intro _
    | with_reducible apply State.modSlice_stays
    | split
    | (with_reducible apply Stays.fst; with_reducible assumption)
    | (with_reducible apply Stays.mk_ <;> first | (show Stays _ _ _; skip) | simp +contextual)
    | dsimp only

theorem State.darnEvents_stays {kp : Bool} {s0 : State} {s : State} (q : Nat) (before : Rotation) (hst : Stays kp s0 s) :
    Stays kp s0 (State.darnEvents s q before) := by
  unfold State.darnEvents
  try dsimp only
  repeat' first
    | with_reducible assumption
    | intro _
    | with_reducible apply State.bump_stays
    | with_reducible apply State.deviceEvent_stays
    | (with_reducible apply Stays.foldl; intro _ _ _)
    | (with_reducible apply Stays.foldlFst; intro _ _ _)
    | dsimp only

end Sys2Proof.Machine
end

