-- ==== Sys2Proof/Laws/StaysLykel.lean ====
section
/-! SUPPORT. Laws/StaysLykel.lean: what each operation of Machine/Lykel.lean leaves. -/
namespace Sys2Proof.Machine
set_option Elab.async false

theorem State.freeSlots_stays {kp : Bool} {s0 : State} {s : State} (link : Nat) (ch : Nat) (n : Nat) (hst : Stays kp s0 s) :
    Stays kp s0 (State.freeSlots s link ch n) := by
  unfold State.freeSlots
  try dsimp only
  repeat' first
    | with_reducible assumption
    | intro _
    | with_reducible apply State.modLykel_stays
    | (with_reducible apply Stays.mk_ <;> first | (show Stays _ _ _; skip) | simp +contextual)
    | dsimp only

theorem State.enqueue_stays {kp : Bool} {s0 : State} {s : State} (link : Nat) (ch : Nat) (bytes : List Byte) (hst : Stays kp s0 s) :
    Stays kp s0 (State.enqueue s link ch bytes) := by
  unfold State.enqueue
  try dsimp only
  repeat' first
    | with_reducible assumption
    | intro _
    | with_reducible apply State.modLykel_stays
    | (with_reducible apply Stays.mk_ <;> first | (show Stays _ _ _; skip) | simp +contextual)
    | dsimp only

theorem State.enqueueHeld_stays {kp : Bool} {s0 : State} {s : State} (link : Nat) (ch : Nat) (bytes : List Byte) (h : Held)
    (hst : Stays kp s0 s) :
    Stays kp s0 (State.enqueueHeld s link ch bytes h) := by
  unfold State.enqueueHeld
  try dsimp only
  repeat' first
    | with_reducible assumption
    | intro _
    | with_reducible apply State.modLykel_stays
    | (with_reducible apply Stays.mk_ <;> first | (show Stays _ _ _; skip) | simp +contextual)
    | dsimp only

theorem State.takePacket_stays {kp : Bool} {s0 : State} {s : State} (link : Nat) (p : List Byte) (hst : Stays kp s0 s) :
    Stays kp s0 (State.takePacket s link p) := by
  unfold State.takePacket
  try dsimp only
  repeat' first
    | with_reducible assumption
    | intro _
    | with_reducible apply Stays.ite
    | with_reducible apply Stays.iteFst
    | with_reducible apply State.modLykel_stays
    | with_reducible apply State.freeSlots_stays
    | split
    | (with_reducible apply Stays.fst; with_reducible assumption)
    | (with_reducible apply Stays.mk_ <;> first | (show Stays _ _ _; skip) | simp +contextual)
    | dsimp only

theorem State.hlinkEvent_stays {kp : Bool} {s0 : State} {s : State} (hst : Stays kp s0 s) :
    Stays kp s0 (State.hlinkEvent s) := by
  unfold State.hlinkEvent
  try dsimp only
  repeat' first
    | with_reducible assumption
    | with_reducible apply State.deviceEvent_stays
    | dsimp only

theorem State.fpEvent_stays {kp : Bool} {s0 : State} {s : State} (n : Nat) (hst : Stays kp s0 s) :
    Stays kp s0 (State.fpEvent s n) := by
  unfold State.fpEvent
  try dsimp only
  repeat' first
    | with_reducible assumption
    | with_reducible apply State.deviceEvent_stays
    | dsimp only

theorem State.advanceStream_stays {kp : Bool} {s0 : State} {s : State} (d : Nat) (hst : Stays kp s0 s) :
    Stays kp s0 (State.advanceStream s d) := by
  unfold State.advanceStream
  try dsimp only
  repeat' first
    | with_reducible assumption
    | intro _
    | with_reducible apply Stays.ite
    | split
    | (with_reducible apply Stays.mk_ <;> first | (show Stays _ _ _; skip) | simp +contextual)
    | dsimp only

theorem State.advanceEpoch_stays {kp : Bool} {s0 : State} {s : State} (d : Nat) (hst : Stays kp s0 s) :
    Stays kp s0 (State.advanceEpoch s d) := by
  unfold State.advanceEpoch
  try dsimp only
  repeat' first
    | with_reducible assumption
    | intro _
    | with_reducible apply State.advanceStream_stays
    | (with_reducible apply Stays.mk_ <;> first | (show Stays _ _ _; skip) | simp +contextual)
    | dsimp only

theorem State.requeue_stays {kp : Bool} {s0 : State} {s : State} (n : Nat) (hst : Stays kp s0 s) :
    Stays kp s0 (State.requeue s n) := by
  unfold State.requeue
  try dsimp only
  repeat' first
    | with_reducible assumption
    | intro _
    | with_reducible apply State.modFport_stays
    | (with_reducible apply Stays.mk_ <;> first | (show Stays _ _ _; skip) | simp +contextual)
    | dsimp only

theorem State.setPortState_stays {kp : Bool} {s0 : State} {s : State} (n : Nat) (st : PortState) (hst : Stays kp s0 s) :
    Stays kp s0 (State.setPortState s n st) := by
  unfold State.setPortState
  try dsimp only
  repeat' first
    | with_reducible assumption
    | intro _
    | with_reducible apply Stays.ite
    | with_reducible apply Stays.iteFst
    | with_reducible apply State.modFport_stays
    | with_reducible apply State.advanceEpoch_stays
    | with_reducible apply State.requeue_stays
    | with_reducible apply State.fpEvent_stays
    | with_reducible apply State.refreshStat_stays
    | (with_reducible apply Stays.foldl; intro _ _ _)
    | (with_reducible apply Stays.foldlFst; intro _ _ _)
    | split
    | (with_reducible apply Stays.mk_ <;> first | (show Stays _ _ _; skip) | simp +contextual)
    | dsimp only

theorem State.beginTrain_stays {kp : Bool} {s0 : State} {s : State} (n : Nat) (st : PortState) (hst : Stays kp s0 s) :
    Stays kp s0 (State.beginTrain s n st) := by
  unfold State.beginTrain
  try dsimp only
  repeat' first
    | with_reducible assumption
    | intro _
    | with_reducible apply State.modFport_stays
    | with_reducible apply State.setPortState_stays
    | (with_reducible apply Stays.mk_ <;> first | (show Stays _ _ _; skip) | simp +contextual)
    | dsimp only

theorem State.enterRetrain_stays {kp : Bool} {s0 : State} {s : State} (link : Nat) (hst : Stays kp s0 s) :
    Stays kp s0 (State.enterRetrain s link) := by
  unfold State.enterRetrain
  try dsimp only
  repeat' first
    | with_reducible assumption
    | intro _
    | with_reducible apply Stays.ite
    | with_reducible apply State.modHost_stays
    | with_reducible apply State.bump_stays
    | with_reducible apply State.hlinkEvent_stays
    | with_reducible apply State.refreshStat_stays
    | with_reducible apply State.modFport_stays
    | with_reducible apply State.beginTrain_stays
    | split
    | (with_reducible apply Stays.mk_ <;> first | (show Stays _ _ _; skip) | simp +contextual)
    | dsimp only

theorem State.countViolation_stays {kp : Bool} {s0 : State} {s : State} (link : Nat) (code : Nat) (ptype : Nat) (tag : Nat)
    (hst : Stays kp s0 s) :
    Stays kp s0 (State.countViolation s link code ptype tag) := by
  unfold State.countViolation
  try dsimp only
  repeat' first
    | with_reducible assumption
    | intro _
    | with_reducible apply Stays.ite
    | split
    | (with_reducible apply Stays.mk_ <;> first | (show Stays _ _ _; skip) | simp +contextual)
    | dsimp only

theorem State.violate_stays {kp : Bool} {s0 : State} {s : State} (link : Nat) (code : Nat) (ptype : Nat) (tag : Nat) (hst : Stays kp s0 s) :
    Stays kp s0 (State.violate s link code ptype tag) := by
  unfold State.violate
  try dsimp only
  repeat' first
    | with_reducible assumption
    | intro _
    | with_reducible apply Stays.ite
    | with_reducible apply Stays.iteFst
    | with_reducible apply State.countViolation_stays
    | with_reducible apply State.enterRetrain_stays
    | split
    | (with_reducible apply Stays.mk_ <;> first | (show Stays _ _ _; skip) | simp +contextual)
    | dsimp only

theorem State.violatePkt_stays {kp : Bool} {s0 : State} {s : State} (link : Nat) (code : Nat) (p : List Byte) (hst : Stays kp s0 s) :
    Stays kp s0 (State.violatePkt s link code p) := by
  unfold State.violatePkt
  try dsimp only
  repeat' first
    | with_reducible assumption
    | with_reducible apply State.violate_stays
    | dsimp only

theorem State.lnak_stays {kp : Bool} {s0 : State} {s : State} (link : Nat) (code : Nat) (p : List Byte) (hst : Stays kp s0 s) :
    Stays kp s0 (State.lnak s link code p) := by
  unfold State.lnak
  try dsimp only
  repeat' first
    | with_reducible assumption
    | intro _
    | with_reducible apply Stays.ite
    | with_reducible apply State.bump_stays
    | with_reducible apply State.enqueue_stays
    | split
    | dsimp only

theorem State.cack_stays {kp : Bool} {s0 : State} {s : State} (ptype : Nat) (tag : Nat) (stamp : Nat) (hst : Stays kp s0 s) :
    Stays kp s0 (State.cack s ptype tag stamp) := by
  unfold State.cack
  try dsimp only
  repeat' first
    | with_reducible assumption
    | with_reducible apply State.enqueue_stays
    | dsimp only

theorem State.bumpCrc_stays {kp : Bool} {s0 : State} {s : State} (link : Nat) (hst : Stays kp s0 s) :
    Stays kp s0 (State.bumpCrc s link) := by
  unfold State.bumpCrc
  try dsimp only
  repeat' first
    | with_reducible assumption
    | with_reducible apply Stays.ite
    | with_reducible apply State.bump_stays
    | split
    | dsimp only

theorem State.bumpReplay_stays {kp : Bool} {s0 : State} {s : State} (link : Nat) (hst : Stays kp s0 s) :
    Stays kp s0 (State.bumpReplay s link) := by
  unfold State.bumpReplay
  try dsimp only
  repeat' first
    | with_reducible assumption
    | with_reducible apply Stays.ite
    | with_reducible apply State.bump_stays
    | split
    | dsimp only

theorem State.bumpDup_stays {kp : Bool} {s0 : State} {s : State} (link : Nat) (hst : Stays kp s0 s) :
    Stays kp s0 (State.bumpDup s link) := by
  unfold State.bumpDup
  try dsimp only
  repeat' first
    | with_reducible assumption
    | with_reducible apply Stays.ite
    | with_reducible apply State.bump_stays
    | split
    | dsimp only

theorem State.sendToRequester_stays {kp : Bool} {s0 : State} {s : State} (link : Nat) (sdev : Nat) (p : List Byte) (hst : Stays kp s0 s) :
    Stays kp s0 (State.sendToRequester s link sdev p) := by
  unfold State.sendToRequester
  try dsimp only
  repeat' first
    | with_reducible assumption
    | with_reducible apply Stays.ite
    | with_reducible apply State.enqueue_stays
    | split
    | (with_reducible apply Stays.mk_ <;> first | (show Stays _ _ _; skip) | simp +contextual)
    | dsimp only

theorem State.discard_stays {kp : Bool} {s0 : State} {s : State} (link : Nat) (code : Nat) (p : List Byte) (hst : Stays kp s0 s) :
    Stays kp s0 (State.discard s link code p) := by
  unfold State.discard
  try dsimp only
  repeat' first
    | with_reducible assumption
    | with_reducible apply Stays.ite
    | with_reducible apply State.violatePkt_stays
    | with_reducible apply State.bump_stays
    | with_reducible apply State.sendToRequester_stays
    | with_reducible apply State.lnak_stays
    | split
    | dsimp only

theorem State.takeLnak_stays {kp : Bool} {s0 : State} {s : State} (link : Nat) (p : List Byte) (hst : Stays kp s0 s) :
    Stays kp s0 (State.takeLnak s link p) := by
  unfold State.takeLnak
  try dsimp only
  repeat' first
    | with_reducible assumption
    | intro _
    | with_reducible apply Stays.ite
    | with_reducible apply State.modLykel_stays
    | with_reducible apply State.discard_stays
    | split
    | (with_reducible apply Stays.mk_ <;> first | (show Stays _ _ _; skip) | simp +contextual)
    | dsimp only

theorem State.rxSlot_stays {kp : Bool} {s0 : State} {s : State} (link : Nat) (slot : List Byte) (hst : Stays kp s0 s) :
    Stays kp s0 (State.rxSlot s link slot) := by
  unfold State.rxSlot
  try dsimp only
  repeat' first
    | with_reducible assumption
    | intro _
    | with_reducible apply Stays.ite
    | with_reducible apply State.modLykel_stays
    | with_reducible apply State.discard_stays
    | with_reducible apply State.takeLnak_stays
    | split
    | (with_reducible apply Stays.fst; with_reducible assumption)
    | (with_reducible apply Stays.mk_ <;> first | (show Stays _ _ _; skip) | simp +contextual)
    | dsimp only

end Sys2Proof.Machine
end

