-- ==== Sys2Proof/Laws/StaysLinks.lean ====
section
/-! SUPPORT. Laws/StaysLinks.lean: what each operation of Machine/Links.lean leaves. -/
namespace Sys2Proof.Machine
set_option Elab.async false

theorem State.countStatus_stays {kp : Bool} {s0 : State} {s : State} (st : Nat) (hst : Stays kp s0 s) :
    Stays kp s0 (State.countStatus s st) := by
  unfold State.countStatus
  try dsimp only
  repeat' first
    | with_reducible assumption
    | with_reducible apply Stays.ite
    | with_reducible apply State.bump_stays
    | split
    | dsimp only

theorem State.answerCpl_stays {kp : Bool} {s0 : State} {s : State} (link : Nat) (tag : Nat) (sdev : Nat) (st : Nat) (hst : Stays kp s0 s) :
    Stays kp s0 (State.answerCpl s link tag sdev st) := by
  unfold State.answerCpl
  try dsimp only
  repeat' first
    | with_reducible assumption
    | with_reducible apply Stays.ite
    | with_reducible apply State.countStatus_stays
    | with_reducible apply State.sendToRequester_stays
    | split
    | dsimp only

theorem State.answerRead_stays {kp : Bool} {s0 : State} {s : State} (link : Nat) (tag : Nat) (sdev : Nat) (spa : Nat) (data : List Byte) (bad : List Nat)
    (hst : Stays kp s0 s) :
    Stays kp s0 (State.answerRead s link tag sdev spa data bad) := by
  unfold State.answerRead
  try dsimp only
  repeat' first
    | with_reducible assumption
    | intro _
    | with_reducible apply Stays.ite
    | with_reducible apply Stays.iteFst
    | with_reducible apply State.countStatus_stays
    | with_reducible apply State.sendToRequester_stays
    | (with_reducible apply Stays.foldl; intro _ _ _)
    | (with_reducible apply Stays.foldlFst; intro _ _ _)
    | split
    | dsimp only

theorem State.endTxn_stays {kp : Bool} {s0 : State} {s : State} (t : Txn) (data : List Byte) (bad : List Nat) (st : Nat)
    (hst : Stays kp s0 s) :
    Stays kp s0 (State.endTxn s t data bad st) := by
  unfold State.endTxn
  try dsimp only
  repeat' first
    | with_reducible assumption
    | intro _
    | with_reducible apply Stays.ite
    | with_reducible apply State.modFabric_stays
    | with_reducible apply State.chargeCore_stays
    | with_reducible apply State.contextEvent_stays
    | with_reducible apply State.recordLost_stays
    | with_reducible apply State.answerCpl_stays
    | with_reducible apply State.answerRead_stays
    | with_reducible apply State.sendToRequester_stays
    | split
    | (with_reducible apply Stays.fst; with_reducible assumption)
    | (with_reducible apply Stays.mk_ <;> first | (show Stays _ _ _; skip) | simp +contextual)
    | dsimp only

theorem State.modStream_stays {kp : Bool} {s0 : State} {s : State} (d : Nat) (f : Stream → Stream) (hst : Stays kp s0 s) :
    Stays kp s0 (State.modStream s d f) := by
  unfold State.modStream
  try dsimp only
  repeat' first
    | with_reducible assumption
    | intro _
    | with_reducible apply Stays.ite
    | split
    | (with_reducible apply Stays.mk_ <;> first | (show Stays _ _ _; skip) | simp +contextual)
    | dsimp only

theorem State.sendPart_stays {kp : Bool} {s0 : State} {s : State} (t : Txn) (link : Nat) (vn : Nat) (turn : Bool) (part : Nat × Nat)
    (hst : Stays kp s0 s) :
    Stays kp s0 (State.sendPart s t link vn turn part) := by
  unfold State.sendPart
  try dsimp only
  repeat' first
    | with_reducible assumption
    | intro _
    | with_reducible apply Stays.ite
    | with_reducible apply Stays.iteFst
    | with_reducible apply State.enqueue_stays
    | with_reducible apply State.modStream_stays
    | split
    | (with_reducible apply Stays.fst; with_reducible assumption)
    | (with_reducible apply Stays.mk_ <;> first | (show Stays _ _ _; skip) | simp +contextual)
    | dsimp only

theorem State.sendTxn_stays {kp : Bool} {s0 : State} {s : State} (t : Txn) (link : Nat) (vn : Nat) (turn : Bool) (hst : Stays kp s0 s) :
    Stays kp s0 (State.sendTxn s t link vn turn) := by
  unfold State.sendTxn
  try dsimp only
  repeat' first
    | with_reducible assumption
    | intro _
    | with_reducible apply Stays.ite
    | with_reducible apply Stays.iteFst
    | with_reducible apply State.modFabric_stays
    | with_reducible apply State.sendPart_stays
    | (with_reducible apply Stays.foldl; intro _ _ _)
    | (with_reducible apply Stays.foldlFst; intro _ _ _)
    | split
    | (with_reducible apply Stays.mk_ <;> first | (show Stays _ _ _; skip) | simp +contextual)
    | dsimp only

theorem State.holdPacket_stays {kp : Bool} {s0 : State} {s : State} (h : Held) (hst : Stays kp s0 s) :
    Stays kp s0 (State.holdPacket s h) := by
  unfold State.holdPacket
  try dsimp only
  repeat' first
    | with_reducible assumption
    | (with_reducible apply Stays.mk_ <;> first | (show Stays _ _ _; skip) | simp +contextual)
    | dsimp only

theorem State.grantOut_stays {kp : Bool} {s0 : State} {s : State} (t : Txn) (hst : Stays kp s0 s) :
    Stays kp s0 (State.grantOut s t) := by
  unfold State.grantOut
  try dsimp only
  repeat' first
    | with_reducible assumption
    | intro _
    | with_reducible apply Stays.ite
    | with_reducible apply State.endTxn_stays
    | with_reducible apply State.sendTxn_stays
    | with_reducible apply State.modFabric_stays
    | with_reducible apply State.holdPacket_stays
    | with_reducible apply State.bump_stays
    | split
    | (with_reducible apply Stays.fst; with_reducible assumption)
    | (with_reducible apply Stays.mk_ <;> first | (show Stays _ _ _; skip) | simp +contextual)
    | dsimp only

theorem State.closeOut_stays {kp : Bool} {s0 : State} {s : State} (r : OutReq) (st : Nat) (hst : Stays kp s0 s) :
    Stays kp s0 (State.closeOut s r st) := by
  unfold State.closeOut
  try dsimp only
  repeat' first
    | with_reducible assumption
    | intro _
    | with_reducible apply Stays.ite
    | with_reducible apply Stays.iteFst
    | with_reducible apply State.modStream_stays
    | with_reducible apply State.advanceStream_stays
    | split
    | (with_reducible apply Stays.fst; with_reducible assumption)
    | (with_reducible apply Stays.mk_ <;> first | (show Stays _ _ _; skip) | simp +contextual)
    | dsimp only

theorem State.finishOut_stays {kp : Bool} {s0 : State} {s : State} (r : OutReq) (data : List Byte) (bad : List Nat) (st : Nat)
    (hst : Stays kp s0 s) :
    Stays kp s0 (State.finishOut s r data bad st) := by
  unfold State.finishOut
  try dsimp only
  repeat' first
    | with_reducible assumption
    | intro _
    | with_reducible apply Stays.ite
    | with_reducible apply State.closeOut_stays
    | with_reducible apply State.modFabric_stays
    | with_reducible apply State.endTxn_stays
    | split
    | (with_reducible apply Stays.fst; with_reducible assumption)
    | (with_reducible apply Stays.mk_ <;> first | (show Stays _ _ _; skip) | simp +contextual)
    | dsimp only

theorem State.faultOut_stays {kp : Bool} {s0 : State} {s : State} (r : OutReq) (code : Nat) (hst : Stays kp s0 s) :
    Stays kp s0 (State.faultOut s r code) := by
  unfold State.faultOut
  try dsimp only
  repeat' first
    | with_reducible assumption
    | intro _
    | with_reducible apply State.closeOut_stays
    | with_reducible apply State.modFabric_stays
    | with_reducible apply State.faultContext_stays
    | with_reducible apply State.finishOut_stays
    | split
    | (with_reducible apply Stays.fst; with_reducible assumption)
    | (with_reducible apply Stays.mk_ <;> first | (show Stays _ _ _; skip) | simp +contextual)
    | dsimp only

theorem State.takeStatus_stays {kp : Bool} {s0 : State} {s : State} (link : Nat) (p : List Byte) (hst : Stays kp s0 s) :
    Stays kp s0 (State.takeStatus s link p).1 := by
  unfold State.takeStatus
  try dsimp only
  repeat' first
    | with_reducible assumption
    | with_reducible apply Stays.ite
    | with_reducible apply Stays.iteFst
    | with_reducible apply State.violatePkt_stays
    | split
    | (with_reducible apply Stays.fst; with_reducible assumption)
    | dsimp only

theorem State.takeCpl_stays {kp : Bool} {s0 : State} {s : State} (link : Nat) (p : List Byte) (hst : Stays kp s0 s) :
    Stays kp s0 (State.takeCpl s link p) := by
  unfold State.takeCpl
  try dsimp only
  repeat' first
    | with_reducible assumption
    | with_reducible apply Stays.ite
    | with_reducible apply Stays.iteFst
    | with_reducible apply State.violatePkt_stays
    | with_reducible apply State.takeStatus_stays
    | with_reducible apply State.faultOut_stays
    | with_reducible apply State.finishOut_stays
    | split
    | (with_reducible apply Stays.fst; with_reducible assumption)
    | dsimp only

theorem State.takeCpld_stays {kp : Bool} {s0 : State} {s : State} (link : Nat) (p : List Byte) (hst : Stays kp s0 s) :
    Stays kp s0 (State.takeCpld s link p) := by
  unfold State.takeCpld
  try dsimp only
  repeat' first
    | with_reducible assumption
    | intro _
    | with_reducible apply Stays.ite
    | with_reducible apply Stays.iteFst
    | with_reducible apply State.violatePkt_stays
    | with_reducible apply State.discard_stays
    | with_reducible apply State.faultOut_stays
    | with_reducible apply State.finishOut_stays
    | split
    | (with_reducible apply Stays.fst; with_reducible assumption)
    | (with_reducible apply Stays.mk_ <;> first | (show Stays _ _ _; skip) | simp +contextual)
    | dsimp only

theorem State.unqueue_stays {kp : Bool} {s0 : State} {s : State} (link : Nat) (p : List Byte) (hst : Stays kp s0 s) :
    Stays kp s0 (State.unqueue s link p) := by
  unfold State.unqueue
  try dsimp only
  repeat' first
    | with_reducible assumption
    | intro _
    | with_reducible apply Stays.ite
    | with_reducible apply Stays.iteFst
    | with_reducible apply State.modLykel_stays
    | split
    | (with_reducible apply Stays.fst; with_reducible assumption)
    | (with_reducible apply Stays.mk_ <;> first | (show Stays _ _ _; skip) | simp +contextual)
    | dsimp only

theorem State.hold_stays {kp : Bool} {s0 : State} {s : State} (link : Nat) (p : List Byte) (dest : Nat) (hst : Stays kp s0 s) :
    Stays kp s0 (State.hold s link p dest) := by
  unfold State.hold
  try dsimp only
  repeat' first
    | with_reducible assumption
    | with_reducible apply State.unqueue_stays
    | with_reducible apply State.holdPacket_stays
    | dsimp only

theorem State.freeHeld_stays {kp : Bool} {s0 : State} {s : State} (h : Held) (hst : Stays kp s0 s) :
    Stays kp s0 (State.freeHeld s h) := by
  unfold State.freeHeld
  try dsimp only
  repeat' first
    | with_reducible assumption
    | with_reducible apply Stays.ite
    | with_reducible apply State.freeSlots_stays
    | split
    | dsimp only

theorem State.dropHeld_stays {kp : Bool} {s0 : State} {s : State} (h : Held) (hst : Stays kp s0 s) :
    Stays kp s0 (State.dropHeld s h) := by
  unfold State.dropHeld
  try dsimp only
  repeat' first
    | with_reducible assumption
    | with_reducible apply State.freeHeld_stays
    | (with_reducible apply Stays.mk_ <;> first | (show Stays _ _ _; skip) | simp +contextual)
    | dsimp only

theorem State.discardPacket_stays {kp : Bool} {s0 : State} {s : State} (p : List Byte) (arrived : Nat) (reason : Nat)
    (hst : Stays kp s0 s) :
    Stays kp s0 (State.discardPacket s p arrived reason) := by
  unfold State.discardPacket
  try dsimp only
  repeat' first
    | with_reducible assumption
    | intro _
    | with_reducible apply Stays.ite
    | with_reducible apply State.bump_stays
    | with_reducible apply State.finishOut_stays
    | with_reducible apply State.answerCpl_stays
    | with_reducible apply State.discard_stays
    | with_reducible apply State.deviceEvent_stays
    | split
    | (with_reducible apply Stays.fst; with_reducible assumption)
    | dsimp only

theorem State.discardHeld_stays {kp : Bool} {s0 : State} {s : State} (h : Held) (reason : Nat) (hst : Stays kp s0 s) :
    Stays kp s0 (State.discardHeld s h reason) := by
  unfold State.discardHeld
  try dsimp only
  repeat' first
    | with_reducible assumption
    | with_reducible apply State.dropHeld_stays
    | with_reducible apply State.discardPacket_stays
    | dsimp only

theorem State.sendHeld_stays {kp : Bool} {s0 : State} {s : State} (h : Held) (n : Nat) (alt : Bool) (turn : Bool) (hst : Stays kp s0 s) :
    Stays kp s0 (State.sendHeld s h n alt turn) := by
  unfold State.sendHeld
  try dsimp only
  repeat' first
    | with_reducible assumption
    | intro _
    | with_reducible apply Stays.ite
    | with_reducible apply State.dropHeld_stays
    | with_reducible apply State.enqueueHeld_stays
    | split
    | (with_reducible apply Stays.fst; with_reducible assumption)
    | (with_reducible apply Stays.mk_ <;> first | (show Stays _ _ _; skip) | simp +contextual)
    | dsimp only

theorem State.postInbound_stays {kp : Bool} {s0 : State} {s : State} (link : Nat) (p : List Byte) (target : Nat) (notify : Bool)
    (hst : Stays kp s0 s) :
    Stays kp s0 (State.postInbound s link p target notify) := by
  unfold State.postInbound
  try dsimp only
  repeat' first
    | with_reducible assumption
    | intro _
    | with_reducible apply Stays.ite
    | with_reducible apply Stays.iteFst
    | with_reducible apply State.post_stays
    | split
    | (with_reducible apply Stays.fst; with_reducible assumption)
    | dsimp only

theorem State.serveRequest_stays {kp : Bool} {s0 : State} {s : State} (link : Nat) (p : List Byte) (hst : Stays kp s0 s) :
    Stays kp s0 (State.serveRequest s link p) := by
  unfold State.serveRequest
  try dsimp only
  repeat' first
    | with_reducible assumption
    | intro _
    | with_reducible apply Stays.ite
    | with_reducible apply State.answerCpl_stays
    | with_reducible apply State.postInbound_stays
    | split
    | (with_reducible apply Stays.fst; with_reducible assumption)
    | dsimp only

theorem State.postTransit_stays {kp : Bool} {s0 : State} {s : State} (link : Nat) (p : List Byte) (hst : Stays kp s0 s) :
    Stays kp s0 (State.postTransit s link p) := by
  unfold State.postTransit
  try dsimp only
  repeat' first
    | with_reducible assumption
    | with_reducible apply State.unqueue_stays
    | with_reducible apply State.post_stays
    | dsimp only

theorem State.takeRequest_stays {kp : Bool} {s0 : State} {s : State} (link : Nat) (t : Nat) (p : List Byte) (hst : Stays kp s0 s) :
    Stays kp s0 (State.takeRequest s link t p) := by
  unfold State.takeRequest
  try dsimp only
  repeat' first
    | with_reducible assumption
    | with_reducible apply Stays.ite
    | with_reducible apply State.takePacket_stays
    | with_reducible apply State.discard_stays
    | with_reducible apply State.violatePkt_stays
    | with_reducible apply State.lnak_stays
    | with_reducible apply State.postTransit_stays
    | with_reducible apply State.serveRequest_stays
    | split
    | dsimp only

theorem State.takeCompletion_stays {kp : Bool} {s0 : State} {s : State} (link : Nat) (t : Nat) (p : List Byte) (f : State → State)
    (hst : Stays kp s0 s) (hf : ∀ (s : State), Stays kp s0 s → Stays kp s0 (f s)) :
    Stays kp s0 (State.takeCompletion s link t p f) := by
  unfold State.takeCompletion
  try dsimp only
  repeat' first
    | with_reducible assumption
    | intro _
    | with_reducible apply Stays.ite
    | with_reducible apply hf
    | with_reducible apply State.takePacket_stays
    | with_reducible apply State.discard_stays
    | with_reducible apply State.hold_stays
    | split
    | dsimp only

end Sys2Proof.Machine
end

