-- ==== Sys2Proof/Laws/StaysErrors.lean ====
section
/-! SUPPORT. Laws/StaysErrors.lean: what each operation of Machine/Errors.lean leaves. -/
namespace Sys2Proof.Machine
set_option Elab.async false

theorem State.trfUeEvent_stays {kp : Bool} {s0 : State} {s : State} (i : Nat) (line : Nat) (hst : Stays kp s0 s) :
    Stays kp s0 (State.trfUeEvent s i line) := by
  unfold State.trfUeEvent
  try dsimp only
  repeat' first
    | with_reducible assumption
    | intro _
    | with_reducible apply State.bump_stays
    | with_reducible apply State.deviceEvent_stays
    | dsimp only

theorem State.planeUeFor_stays {kp : Bool} {s0 : State} {s : State} (q : Nat) (p : Nat) (e : Nat) (kind : Nat) (handle : Option Nat)
    (hst : Stays kp s0 s) :
    Stays kp s0 (State.planeUeFor s q p e kind handle) := by
  unfold State.planeUeFor
  try dsimp only
  repeat' first
    | with_reducible assumption
    | intro _
    | with_reducible apply State.bump_stays
    | with_reducible apply State.modQuarter_stays
    | with_reducible apply State.deviceEvent_stays
    | (with_reducible apply Stays.mk_ <;> first | (show Stays _ _ _; skip) | simp +contextual)
    | dsimp only

theorem State.planeUeEvent_stays {kp : Bool} {s0 : State} {s : State} (q : Nat) (p : Nat) (e : Nat) (kind : Nat) (hst : Stays kp s0 s) :
    Stays kp s0 (State.planeUeEvent s q p e kind) := by
  unfold State.planeUeEvent
  try dsimp only
  repeat' first
    | with_reducible assumption
    | intro _
    | with_reducible apply State.planeUeFor_stays
    | dsimp only

theorem State.loseLine_stays {kp : Bool} {s0 : State} {s : State} (i : Nat) (line : Nat) (hst : Stays kp s0 s) :
    Stays kp s0 (State.loseLine s i line) := by
  unfold State.loseLine
  try dsimp only
  repeat' first
    | with_reducible assumption
    | intro _
    | with_reducible apply State.modSlice_stays
    | with_reducible apply State.dropTilePegs_stays
    | split
    | (with_reducible apply Stays.fst; with_reducible assumption)
    | (with_reducible apply Stays.mk_ <;> first | (show Stays _ _ _; skip) | simp +contextual)
    | dsimp only

theorem State.correctedLine_stays {kp : Bool} {s0 : State} {s : State} (i : Nat) (line : Nat) (hst : Stays kp s0 s) :
    Stays kp s0 (State.correctedLine s i line) := by
  unfold State.correctedLine
  try dsimp only
  repeat' first
    | with_reducible assumption
    | intro _
    | with_reducible apply Stays.ite
    | with_reducible apply State.bump_stays
    | with_reducible apply State.modSlice_stays
    | split
    | (with_reducible apply Stays.mk_ <;> first | (show Stays _ _ _; skip) | simp +contextual)
    | dsimp only

theorem State.payloadLost_stays {kp : Bool} {s0 : State} {s : State} (i : Nat) (line : Nat) (hst : Stays kp s0 s) :
    Stays kp s0 (State.payloadLost s i line) := by
  unfold State.payloadLost
  try dsimp only
  repeat' first
    | with_reducible assumption
    | intro _
    | with_reducible apply Stays.ite
    | with_reducible apply State.trfUeEvent_stays
    | with_reducible apply State.modSlice_stays
    | with_reducible apply State.loseLine_stays
    | split
    | (with_reducible apply Stays.mk_ <;> first | (show Stays _ _ _; skip) | simp +contextual)
    | dsimp only

theorem State.errorFault_stays {kp : Bool} {s0 : State} {s : State} (met : Option Nat) (routine : Option Nat) (c : Nat) (i : FaultInfo)
    (hst : Stays kp s0 s) :
    Stays kp s0 (State.errorFault s met routine c i) := by
  unfold State.errorFault
  try dsimp only
  repeat' first
    | with_reducible assumption
    | with_reducible apply Stays.ite
    | with_reducible apply State.faultContext_stays
    | split
    | (with_reducible apply Stays.mk_ <;> first | (show Stays _ _ _; skip) | simp +contextual)
    | dsimp only

theorem State.mapFault_stays {kp : Bool} {s0 : State} {s : State} (met : Option Nat) (routine : Option Nat) (i : Nat) (line : Nat)
    (hst : Stays kp s0 s) :
    Stays kp s0 (State.mapFault s met routine i line) := by
  unfold State.mapFault
  try dsimp only
  repeat' first
    | with_reducible assumption
    | intro _
    | with_reducible apply State.bump_stays
    | with_reducible apply State.errorFault_stays
    | split
    | (with_reducible apply Stays.fst; with_reducible assumption)
    | dsimp only

theorem State.modHolderLive_stays {kp : Bool} {s0 : State} {s : State} (q : Nat) (p : Nat) (f : Nat → Nat) (hst : Stays kp s0 s) :
    Stays kp s0 (State.modHolderLive s q p f) := by
  unfold State.modHolderLive
  try dsimp only
  repeat' first
    | with_reducible assumption
    | intro _
    | with_reducible apply State.modEntry_stays
    | with_reducible apply State.modPlane_stays
    | split
    | (with_reducible apply Stays.fst; with_reducible assumption)
    | (with_reducible apply Stays.mk_ <;> first | (show Stays _ _ _; skip) | simp +contextual)
    | dsimp only

theorem State.routineUe_stays {kp : Bool} {s0 : State} {s : State} (met : Option Nat) (routine : Option Nat) (addr : Nat)
    (hst : Stays kp s0 s) :
    Stays kp s0 (State.routineUe s met routine addr) := by
  unfold State.routineUe
  try dsimp only
  repeat' first
    | with_reducible assumption
    | with_reducible apply State.bump_stays
    | with_reducible apply State.faultContext_stays
    | split
    | (with_reducible apply Stays.fst; with_reducible assumption)
    | dsimp only

theorem State.applyFound_stays {kp : Bool} {s0 : State} (met : Option Nat) (routine : Option Nat) {s : State} (f : Found)
    (hst : Stays kp s0 s) :
    Stays kp s0 (State.applyFound met routine s f) := by
  unfold State.applyFound
  try dsimp only
  repeat' first
    | with_reducible assumption
    | intro _
    | with_reducible apply Stays.ite
    | with_reducible apply State.correctedLine_stays
    | with_reducible apply State.payloadLost_stays
    | with_reducible apply State.bump_stays
    | with_reducible apply State.loseLine_stays
    | with_reducible apply State.mapFault_stays
    | with_reducible apply State.modPlane_stays
    | with_reducible apply State.planeUeEvent_stays
    | with_reducible apply State.modHolderLive_stays
    | with_reducible apply State.modQuarter_stays
    | with_reducible apply State.routineUe_stays
    | with_reducible apply State.errorFault_stays
    | with_reducible apply State.modFabric_stays
    | split
    | (with_reducible apply Stays.fst; with_reducible assumption)
    | (with_reducible apply Stays.mk_ <;> first | (show Stays _ _ _; skip) | simp +contextual)
    | dsimp only

theorem State.applyAll_stays {kp : Bool} {s0 : State} {s : State} (met : Option Nat) (routine : Option Nat) (fs : List Found)
    (hst : Stays kp s0 s) :
    Stays kp s0 (State.applyAll s met routine fs) := by
  unfold State.applyAll
  try dsimp only
  repeat' first
    | with_reducible assumption
    | intro _
    | with_reducible apply State.applyFound_stays
    | (with_reducible apply Stays.foldl; intro _ _ _)
    | (with_reducible apply Stays.foldlFst; intro _ _ _)
    | dsimp only

end Sys2Proof.Machine
end

