-- ==== Sys2Proof/Laws/StaysRoutine.lean ====
section
/-! SUPPORT. Laws/StaysRoutine.lean: what each operation of Machine/Routine.lean leaves. -/
namespace Sys2Proof.Machine
set_option Elab.async false

theorem State.settle_stays {kp : Bool} {s0 : State} {s : State} (c : Nat) (hst : Stays kp s0 s) :
    Stays kp s0 (State.settle s c) := by
  unfold State.settle
  try dsimp only
  repeat' first
    | with_reducible assumption
    | intro _
    | with_reducible apply Stays.ite
    | with_reducible apply State.modEntry_stays
    | split
    | (with_reducible apply Stays.fst; with_reducible assumption)
    | (with_reducible apply Stays.mk_ <;> first | (show Stays _ _ _; skip) | simp +contextual)
    | dsimp only

theorem State.beginRelock_stays {kp : Bool} {s0 : State} {s : State} (hst : Stays kp s0 s) :
    Stays kp s0 (State.beginRelock s) := by
  unfold State.beginRelock
  try dsimp only
  repeat' first
    | with_reducible assumption
    | with_reducible apply Stays.ite
    | with_reducible apply State.sendVid_stays
    | split
    | (with_reducible apply Stays.mk_ <;> first | (show Stays _ _ _; skip) | simp +contextual)
    | dsimp only

theorem State.rinseProgress_stays {kp : Bool} {s0 : State} {s : State} (hst : Stays kp s0 s) :
    Stays kp s0 (State.rinseProgress s) := by
  unfold State.rinseProgress
  try dsimp only
  repeat' first
    | with_reducible assumption
    | with_reducible apply Stays.ite
    | with_reducible apply State.beginRelock_stays
    | split
    | (with_reducible apply Stays.mk_ <;> first | (show Stays _ _ _; skip) | simp +contextual)
    | dsimp only

theorem State.endLatency_stays {kp : Bool} {s0 : State} {s : State} (q : Nat) (least : Nat) (hst : Stays kp s0 s) :
    Stays kp s0 (State.endLatency s q least) := by
  unfold State.endLatency
  try dsimp only
  repeat' first
    | with_reducible assumption
    | intro _
    | with_reducible apply State.modQuarter_stays
    | with_reducible apply State.chargeDl_stays
    | with_reducible apply State.noteOverrun_stays
    | (with_reducible apply Stays.foldl; intro _ _ _)
    | (with_reducible apply Stays.foldlFst; intro _ _ _)
    | split
    | (with_reducible apply Stays.fst; with_reducible assumption)
    | (with_reducible apply Stays.mk_ <;> first | (show Stays _ _ _; skip) | simp +contextual)
    | dsimp only

theorem State.noteLatency_stays {kp : Bool} {s0 : State} {s : State} (q : Nat) (least : Nat) (hst : Stays kp s0 s) :
    Stays kp s0 (State.noteLatency s q least) := by
  unfold State.noteLatency
  try dsimp only
  repeat' first
    | with_reducible assumption
    | intro _
    | with_reducible apply Stays.ite
    | with_reducible apply State.endLatency_stays
    | split
    | dsimp only

theorem State.raiseClaim_stays {kp : Bool} {s0 : State} {s : State} (q : Nat) (hst : Stays kp s0 s) :
    Stays kp s0 (State.raiseClaim s q) := by
  unfold State.raiseClaim
  try dsimp only
  repeat' first
    | with_reducible assumption
    | intro _
    | with_reducible apply Stays.ite
    | with_reducible apply Stays.iteFst
    | with_reducible apply State.modQuarter_stays
    | with_reducible apply State.preemptJob_stays
    | with_reducible apply State.settle_stays
    | with_reducible apply State.noteLatency_stays
    | (with_reducible apply Stays.foldl; intro _ _ _)
    | (with_reducible apply Stays.foldlFst; intro _ _ _)
    | split
    | (with_reducible apply Stays.fst; with_reducible assumption)
    | (with_reducible apply Stays.mk_ <;> first | (show Stays _ _ _; skip) | simp +contextual)
    | dsimp only

theorem State.claimOnWork_stays {kp : Bool} {s0 : State} {s : State} (c : Nat) (hst : Stays kp s0 s) :
    Stays kp s0 (State.claimOnWork s c) := by
  unfold State.claimOnWork
  try dsimp only
  repeat' first
    | with_reducible assumption
    | with_reducible apply Stays.ite
    | with_reducible apply State.raiseClaim_stays
    | split
    | (with_reducible apply Stays.fst; with_reducible assumption)
    | dsimp only

theorem State.endClaims_stays {kp : Bool} {s0 : State} {s : State} (hst : Stays kp s0 s) :
    Stays kp s0 (State.endClaims s) := by
  unfold State.endClaims
  try dsimp only
  repeat' first
    | with_reducible assumption
    | intro _
    | with_reducible apply Stays.ite
    | with_reducible apply Stays.iteFst
    | split
    | (with_reducible apply Stays.mk_ <;> first | (show Stays _ _ _; skip) | simp +contextual)
    | dsimp only

theorem State.queueInternal_stays {kp : Bool} {s0 : State} {s : State} (i : Internal) (hst : Stays kp s0 s) :
    Stays kp s0 (State.queueInternal s i) := by
  unfold State.queueInternal
  try dsimp only
  repeat' first
    | with_reducible assumption
    | with_reducible apply Stays.ite
    | split
    | (with_reducible apply Stays.mk_ <;> first | (show Stays _ _ _; skip) | simp +contextual)
    | dsimp only

theorem State.parkAll_stays {kp : Bool} {s0 : State} {s : State} (c : Nat) (hst : Stays kp s0 s) :
    Stays kp s0 (State.parkAll s c) := by
  unfold State.parkAll
  try dsimp only
  repeat' first
    | with_reducible assumption
    | intro _
    | with_reducible apply State.queueInternal_stays
    | (with_reducible apply Stays.foldl; intro _ _ _)
    | (with_reducible apply Stays.foldlFst; intro _ _ _)
    | dsimp only

theorem State.bindPlane_stays {kp : Bool} {s0 : State} {s : State} (q : Nat) (c : Nat) (pl : Nat) (hst : Stays kp s0 s) :
    Stays kp s0 (State.bindPlane s q c pl) := by
  unfold State.bindPlane
  try dsimp only
  repeat' first
    | with_reducible assumption
    | intro _
    | with_reducible apply Stays.ite
    | with_reducible apply State.queueInternal_stays
    | with_reducible apply State.modQuarter_stays
    | split
    | (with_reducible apply Stays.fst; with_reducible assumption)
    | (with_reducible apply Stays.mk_ <;> first | (show Stays _ _ _; skip) | simp +contextual)
    | dsimp only

theorem State.retryBinds_stays {kp : Bool} {s0 : State} {s : State} (q : Nat) (hst : Stays kp s0 s) :
    Stays kp s0 (State.retryBinds s q) := by
  unfold State.retryBinds
  try dsimp only
  repeat' first
    | with_reducible assumption
    | intro _
    | with_reducible apply State.bindPlane_stays
    | (with_reducible apply Stays.foldl; intro _ _ _)
    | (with_reducible apply Stays.foldlFst; intro _ _ _)
    | dsimp only

theorem State.takeLine_stays {kp : Bool} {s0 : State} {s : State} (c : Nat) (slice : Nat) (port : Nat) (lane : Nat) (cls : Nat) (o : LineOwner)
    (hst : Stays kp s0 s) :
    Stays kp s0 (State.takeLine s c slice port lane cls o) := by
  unfold State.takeLine
  try dsimp only
  repeat' first
    | with_reducible assumption
    | intro _
    | with_reducible apply Stays.ite
    | with_reducible apply State.modSlice_stays
    | split
    | (with_reducible apply Stays.fst; with_reducible assumption)
    | (with_reducible apply Stays.mk_ <;> first | (show Stays _ _ _; skip) | simp +contextual)
    | dsimp only

theorem State.stageLines_stays {kp : Bool} {s0 : State} {s : State} (q : Nat) (c : Nat) (lane : Nat) (kind : Nat) (tiles : List Nat)
    (hst : Stays kp s0 s) :
    Stays kp s0 (State.stageLines s q c lane kind tiles).state := by
  unfold State.stageLines
  try dsimp only
  repeat' first
    | with_reducible assumption
    | intro _
    | with_reducible apply Stays.go
    | with_reducible apply Stays.stop
    | with_reducible apply State.takeLine_stays
    | with_reducible apply Stays.until
    | (with_reducible apply Stays.foldl; intro _ _ _)
    | (with_reducible apply Stays.foldlFst; intro _ _ _)
    | dsimp only

theorem State.fillStaged_stays {kp : Bool} {s0 : State} {s : State} (c : Nat) (n : Nat) (rows : Tile) (hst : Stays kp s0 s) :
    Stays kp s0 (State.fillStaged s c n rows) := by
  unfold State.fillStaged
  try dsimp only
  repeat' first
    | with_reducible assumption
    | intro _
    | with_reducible apply State.modSlice_stays
    | split
    | (with_reducible apply Stays.fst; with_reducible assumption)
    | dsimp only

theorem State.toCommit_stays {kp : Bool} {s0 : State} {s : State} (q : Nat) (c : Nat) (f : Job → Job) (hst : Stays kp s0 s) :
    Stays kp s0 (State.toCommit s q c f) := by
  unfold State.toCommit
  try dsimp only
  repeat' first
    | with_reducible assumption
    | intro _
    | with_reducible apply State.modJob_stays
    | (with_reducible apply Stays.mk_ <;> first | (show Stays _ _ _; skip) | simp +contextual)
    | dsimp only

theorem State.fillTlb_stays {kp : Bool} {s0 : State} {s : State} (q : Nat) (t : TlbEntry) (hst : Stays kp s0 s) :
    Stays kp s0 (State.fillTlb s q t) := by
  unfold State.fillTlb
  try dsimp only
  repeat' first
    | with_reducible assumption
    | intro _
    | with_reducible apply State.modQuarter_stays
    | (with_reducible apply Stays.mk_ <;> first | (show Stays _ _ _; skip) | simp +contextual)
    | dsimp only

theorem State.xlat_stays {kp : Bool} {s0 : State} {s : State} (q : Nat) (c : Nat) (va : Nat) (write : Bool) (hst : Stays kp s0 s) :
    Stays kp s0 (State.xlat s q c va write).1 := by
  unfold State.xlat
  try dsimp only
  repeat' first
    | with_reducible assumption
    | intro _
    | with_reducible apply Stays.ite
    | with_reducible apply Stays.iteFst
    | with_reducible apply State.fillTlb_stays
    | with_reducible apply State.modFabric_stays
    | split
    | (with_reducible apply Stays.fst; with_reducible assumption)
    | (with_reducible apply Stays.mk_ <;> first | (show Stays _ _ _; skip) | simp +contextual)
    | dsimp only

theorem State.routineFault_stays {kp : Bool} {s0 : State} {s : State} (c : Nat) (i : FaultInfo) (hst : Stays kp s0 s) :
    Stays kp s0 (State.routineFault s c i) := by
  unfold State.routineFault
  try dsimp only
  repeat' first
    | with_reducible assumption
    | with_reducible apply State.faultContext_stays
    | dsimp only

theorem State.cancelWalk_stays {kp : Bool} {s0 : State} {s : State} (c : Nat) (va : Nat) (hst : Stays kp s0 s) :
    Stays kp s0 (State.cancelWalk s c va) := by
  unfold State.cancelWalk
  try dsimp only
  repeat' first
    | with_reducible assumption
    | intro _
    | with_reducible apply Stays.ite
    | with_reducible apply State.modFabric_stays
    | split
    | (with_reducible apply Stays.fst; with_reducible assumption)
    | (with_reducible apply Stays.mk_ <;> first | (show Stays _ _ _; skip) | simp +contextual)
    | dsimp only

theorem State.needPages_stays {kp : Bool} {s0 : State} {s : State} (q : Nat) (c : Nat) (write : Bool) (ranges : List (Nat × Nat))
    (hst : Stays kp s0 s) :
    Stays kp s0 (State.needPages s q c write ranges).state := by
  unfold State.needPages
  try dsimp only
  repeat' first
    | with_reducible assumption
    | intro _
    | with_reducible apply Stays.ite
    | with_reducible apply Stays.progIte
    | with_reducible apply Stays.iteFst
    | with_reducible apply Stays.go
    | with_reducible apply Stays.stop
    | with_reducible apply State.xlat_stays
    | with_reducible apply State.cancelWalk_stays
    | with_reducible apply State.modJob_stays
    | with_reducible apply State.routineFault_stays
    | with_reducible apply Stays.until
    | (with_reducible apply Stays.foldl; intro _ _ _)
    | (with_reducible apply Stays.foldlFst; intro _ _ _)
    | split
    | (with_reducible apply Stays.fst; with_reducible assumption)
    | (with_reducible apply Stays.mk_ <;> first | (show Stays _ _ _; skip) | simp +contextual)
    | dsimp only

theorem State.postOnce_stays {kp : Bool} {s0 : State} {s : State} (q : Nat) (c : Nat) (post : State → State)
    (hst : Stays kp s0 s) (hpost : ∀ (s : State), Stays kp s0 s → Stays kp s0 (post s)) :
    Stays kp s0 (State.postOnce s q c post) := by
  unfold State.postOnce
  try dsimp only
  repeat' first
    | with_reducible assumption
    | intro _
    | with_reducible apply Stays.ite
    | with_reducible apply hpost
    | with_reducible apply State.post_stays
    | with_reducible apply State.modJob_stays
    | split
    | (with_reducible apply Stays.mk_ <;> first | (show Stays _ _ _; skip) | simp +contextual)
    | dsimp only

theorem State.classifyAt_stays {kp : Bool} {s0 : State} {s : State} (c : Nat) (doorbell : Bool) (places : List (Nat × Nat × Nat)) (info : FaultInfo)
    (hst : Stays kp s0 s) :
    Stays kp s0 (State.classifyAt s c doorbell places info).state := by
  unfold State.classifyAt
  try dsimp only
  repeat' first
    | with_reducible assumption
    | intro _
    | with_reducible apply Stays.ite
    | with_reducible apply Stays.progIte
    | with_reducible apply Stays.iteFst
    | with_reducible apply Stays.go
    | with_reducible apply Stays.stop
    | with_reducible apply State.routineFault_stays
    | split
    | (with_reducible apply Stays.fst; with_reducible assumption)
    | (with_reducible apply Stays.mk_ <;> first | (show Stays _ _ _; skip) | simp +contextual)
    | dsimp only

theorem State.classify_stays {kp : Bool} {s0 : State} {s : State} (c : Nat) (write : Bool) (doorbell : Bool) (ranges : List (Nat × Nat))
    (hst : Stays kp s0 s) :
    Stays kp s0 (State.classify s c write doorbell ranges).state := by
  unfold State.classify
  try dsimp only
  repeat' first
    | with_reducible assumption
    | intro _
    | with_reducible apply Stays.go
    | with_reducible apply Stays.stop
    | with_reducible apply State.classifyAt_stays
    | dsimp only

theorem State.classifyWrites_stays {kp : Bool} {s0 : State} {s : State} (q : Nat) (c : Nat) (doorbell : Bool) (ranges : List (Nat × Nat))
    (hst : Stays kp s0 s) :
    Stays kp s0 (State.classifyWrites s q c doorbell ranges).state := by
  unfold State.classifyWrites
  try dsimp only
  repeat' first
    | with_reducible assumption
    | intro _
    | with_reducible apply Stays.ite
    | with_reducible apply Stays.progIte
    | with_reducible apply Stays.go
    | with_reducible apply Stays.stop
    | with_reducible apply State.classify_stays
    | with_reducible apply State.modJob_stays
    | (with_reducible apply Stays.andThen; rotate_left; intro _ _; rotate_left)
    | split
    | (with_reducible apply Stays.mk_ <;> first | (show Stays _ _ _; skip) | simp +contextual)
    | dsimp only

theorem State.postRacing_stays {kp : Bool} {s0 : State} {s : State} (t : Txn) (hst : Stays kp s0 s) :
    Stays kp s0 (State.postRacing s t) := by
  unfold State.postRacing
  try dsimp only
  repeat' first
    | with_reducible assumption
    | intro _
    | with_reducible apply Stays.ite
    | with_reducible apply State.post_stays
    | with_reducible apply State.modFabric_stays
    | split
    | (with_reducible apply Stays.mk_ <;> first | (show Stays _ _ _; skip) | simp +contextual)
    | dsimp only

theorem State.postReads_stays {kp : Bool} {s0 : State} {s : State} (q : Nat) (c : Nat) (ranges : List (Nat × Nat)) (hst : Stays kp s0 s) :
    Stays kp s0 (State.postReads s q c ranges) := by
  unfold State.postReads
  try dsimp only
  repeat' first
    | with_reducible assumption
    | intro _
    | with_reducible apply State.postRacing_stays
    | (with_reducible apply Stays.foldl; intro _ _ _)
    | (with_reducible apply Stays.foldlFst; intro _ _ _)
    | dsimp only

theorem State.dropGot_stays {kp : Bool} {s0 : State} {s : State} (c : Nat) (hst : Stays kp s0 s) :
    Stays kp s0 (State.dropGot s c) := by
  unfold State.dropGot
  try dsimp only
  repeat' first
    | with_reducible assumption
    | intro _
    | with_reducible apply State.modFabric_stays
    | (with_reducible apply Stays.mk_ <;> first | (show Stays _ _ _; skip) | simp +contextual)
    | dsimp only

theorem State.endWalk_stays {kp : Bool} {s0 : State} {s : State} (w : Walk) (hst : Stays kp s0 s) :
    Stays kp s0 (State.endWalk s w) := by
  unfold State.endWalk
  try dsimp only
  repeat' first
    | with_reducible assumption
    | intro _
    | with_reducible apply State.modFabric_stays
    | (with_reducible apply Stays.mk_ <;> first | (show Stays _ _ _; skip) | simp +contextual)
    | dsimp only

theorem State.fillFromWalk_stays {kp : Bool} {s0 : State} {s : State} (w : Walk) (t : TlbEntry) (tables : List TableEntry)
    (hst : Stays kp s0 s) :
    Stays kp s0 (State.fillFromWalk s w t tables) := by
  unfold State.fillFromWalk
  try dsimp only
  repeat' first
    | with_reducible assumption
    | intro _
    | with_reducible apply State.fillTlb_stays
    | with_reducible apply State.modFabric_stays
    | (with_reducible apply Stays.foldl; intro _ _ _)
    | (with_reducible apply Stays.foldlFst; intro _ _ _)
    | (with_reducible apply Stays.mk_ <;> first | (show Stays _ _ _; skip) | simp +contextual)
    | dsimp only

end Sys2Proof.Machine
end

