-- ==== Sys2Proof/Laws/StaysIssue.lean ====
section
/-! SUPPORT. Laws/StaysIssue.lean: what each operation of Machine/Issue.lean leaves. -/
namespace Sys2Proof.Machine
set_option Elab.async false

theorem State.missFrame_stays {kp : Bool} {s0 : State} {s : State} (c : Nat) (f : Frame) (hst : Stays kp s0 s) :
    Stays kp s0 (State.missFrame s c f) := by
  unfold State.missFrame
  try dsimp only
  repeat' first
    | with_reducible assumption
    | intro _
    | with_reducible apply Stays.ite
    | with_reducible apply Stays.iteFst
    | with_reducible apply State.modEntry_stays
    | with_reducible apply State.contextEvent_stays
    | split
    | (with_reducible apply Stays.fst; with_reducible assumption)
    | (with_reducible apply Stays.mk_ <;> first | (show Stays _ _ _; skip) | simp +contextual)
    | dsimp only

theorem State.ringNak_stays {kp : Bool} {s0 : State} {s : State} (pkt : List Byte) (code : Nat) (hst : Stays kp s0 s) :
    Stays kp s0 (State.ringNak s pkt code) := by
  unfold State.ringNak
  try dsimp only
  repeat' first
    | with_reducible assumption
    | with_reducible apply State.deviceEvent_stays
    | dsimp only

theorem State.makeCandidate_stays {kp : Bool} {s0 : State} {s : State} (c : Nat) (hst : Stays kp s0 s) :
    Stays kp s0 (State.makeCandidate s c) := by
  unfold State.makeCandidate
  try dsimp only
  repeat' first
    | with_reducible assumption
    | intro _
    | with_reducible apply Stays.ite
    | with_reducible apply State.modEntry_stays
    | split
    | (with_reducible apply Stays.mk_ <;> first | (show Stays _ _ _; skip) | simp +contextual)
    | dsimp only

theorem State.suspendAdmitted_stays {kp : Bool} {s0 : State} {s : State} (c : Nat) (hst : Stays kp s0 s) :
    Stays kp s0 (State.suspendAdmitted s c) := by
  unfold State.suspendAdmitted
  try dsimp only
  repeat' first
    | with_reducible assumption
    | with_reducible apply Stays.ite
    | with_reducible apply State.suspend_stays
    | split
    | (with_reducible apply Stays.fst; with_reducible assumption)
    | dsimp only

theorem State.queueAdmitted_stays {kp : Bool} {s0 : State} {s : State} (c : Nat) (pkt : List Byte) (hst : Stays kp s0 s) :
    Stays kp s0 (State.queueAdmitted s c pkt) := by
  unfold State.queueAdmitted
  try dsimp only
  repeat' first
    | with_reducible assumption
    | intro _
    | with_reducible apply Stays.ite
    | with_reducible apply State.endClaims_stays
    | with_reducible apply State.modEntry_stays
    | with_reducible apply State.makeCandidate_stays
    | with_reducible apply State.settle_stays
    | with_reducible apply State.claimOnWork_stays
    | with_reducible apply State.suspendAdmitted_stays
    | with_reducible apply State.missFrame_stays
    | split
    | (with_reducible apply Stays.fst; with_reducible assumption)
    | (with_reducible apply Stays.mk_ <;> first | (show Stays _ _ _; skip) | simp +contextual)
    | dsimp only

theorem State.receiveOp_stays {kp : Bool} {s0 : State} {s : State} (pkt : List Byte) (hst : Stays kp s0 s) :
    Stays kp s0 (State.receiveOp s pkt) := by
  unfold State.receiveOp
  try dsimp only
  repeat' first
    | with_reducible assumption
    | with_reducible apply Stays.ite
    | with_reducible apply State.ringNak_stays
    | with_reducible apply State.putEntry_stays
    | with_reducible apply State.nakArrival_stays
    | with_reducible apply State.queueAdmitted_stays
    | split
    | (with_reducible apply Stays.mk_ <;> first | (show Stays _ _ _; skip) | simp +contextual)
    | dsimp only

theorem State.openFrame_stays {kp : Bool} {s0 : State} {s : State} (c : Nat) (op : Op) (hst : Stays kp s0 s) :
    Stays kp s0 (State.openFrame s c op) := by
  unfold State.openFrame
  try dsimp only
  repeat' first
    | with_reducible assumption
    | intro _
    | with_reducible apply State.modEntry_stays
    | (with_reducible apply Stays.mk_ <;> first | (show Stays _ _ _; skip) | simp +contextual)
    | dsimp only

theorem State.refuse_stays {kp : Bool} {s0 : State} {s : State} (c : Nat) (code : Nat) (hst : Stays kp s0 s) :
    Stays kp s0 (State.refuse s c code) := by
  unfold State.refuse
  try dsimp only
  repeat' first
    | with_reducible assumption
    | intro _
    | with_reducible apply Stays.ite
    | with_reducible apply State.dropAhead_stays
    | with_reducible apply State.openFrame_stays
    | with_reducible apply State.modEntry_stays
    | with_reducible apply State.nakIssue_stays
    | with_reducible apply State.settle_stays
    | with_reducible apply State.endClaims_stays
    | split
    | (with_reducible apply Stays.fst; with_reducible assumption)
    | (with_reducible apply Stays.mk_ <;> first | (show Stays _ _ _; skip) | simp +contextual)
    | dsimp only

theorem State.dropMissed_stays {kp : Bool} {s0 : State} (x0 : Nat) {s : State} (x2 : Nat) (hst : Stays kp s0 s) :
    Stays kp s0 (State.dropMissed x0 s x2) := by
  induction x0 generalizing s with
  | zero => exact hst
  | succ n ih =>
    unfold State.dropMissed
    dsimp only
    split
    · exact hst
    · split
      · exact hst
      · exact ih (State.refuse_stays _ _ hst)


theorem State.dropFrames_stays {kp : Bool} {s0 : State} {s : State} (c : Nat) (hst : Stays kp s0 s) :
    Stays kp s0 (State.dropFrames s c) := by
  unfold State.dropFrames
  try dsimp only
  repeat' first
    | with_reducible assumption
    | with_reducible apply Stays.ite
    | with_reducible apply State.dropMissed_stays
    | split
    | dsimp only

theorem State.checkpoint_stays {kp : Bool} {s0 : State} {s : State} (q : Nat) (c : Nat) (op : Op) (hst : Stays kp s0 s) :
    Stays kp s0 (State.checkpoint s q c op) := by
  unfold State.checkpoint
  try dsimp only
  repeat' first
    | with_reducible assumption
    | intro _
    | with_reducible apply Stays.ite
    | with_reducible apply Stays.iteFst
    | with_reducible apply State.modPlane_stays
    | split
    | (with_reducible apply Stays.fst; with_reducible assumption)
    | (with_reducible apply Stays.mk_ <;> first | (show Stays _ _ _; skip) | simp +contextual)
    | dsimp only

theorem State.takePlane_stays {kp : Bool} {s0 : State} {s : State} (q : Nat) (c : Nat) (pl : Nat) (hst : Stays kp s0 s) :
    Stays kp s0 (State.takePlane s q c pl) := by
  unfold State.takePlane
  try dsimp only
  repeat' first
    | with_reducible assumption
    | intro _
    | with_reducible apply Stays.ite
    | with_reducible apply State.modPlane_stays
    | with_reducible apply State.modEntry_stays
    | split
    | (with_reducible apply Stays.fst; with_reducible assumption)
    | (with_reducible apply Stays.mk_ <;> first | (show Stays _ _ _; skip) | simp +contextual)
    | dsimp only

theorem State.startSegment_stays {kp : Bool} {s0 : State} {s : State} (q : Nat) (c : Nat) (op : Op) (hst : Stays kp s0 s) :
    Stays kp s0 (State.startSegment s q c op) := by
  unfold State.startSegment
  try dsimp only
  repeat' first
    | with_reducible assumption
    | intro _
    | with_reducible apply Stays.ite
    | with_reducible apply Stays.iteFst
    | with_reducible apply State.dropAhead_stays
    | with_reducible apply State.endLatency_stays
    | with_reducible apply State.takePlane_stays
    | with_reducible apply State.checkpoint_stays
    | with_reducible apply State.modQuarter_stays
    | with_reducible apply State.modHeadOp_stays
    | with_reducible apply State.modEntry_stays
    | split
    | (with_reducible apply Stays.mk_ <;> first | (show Stays _ _ _; skip) | simp +contextual)
    | dsimp only

theorem State.beginUnslotted_stays {kp : Bool} {s0 : State} {s : State} (c : Nat) (hst : Stays kp s0 s) :
    Stays kp s0 (State.beginUnslotted s c) := by
  unfold State.beginUnslotted
  try dsimp only
  repeat' first
    | with_reducible assumption
    | intro _
    | with_reducible apply Stays.ite
    | with_reducible apply State.refuse_stays
    | with_reducible apply State.modQuarter_stays
    | with_reducible apply State.modHeadOp_stays
    | split
    | (with_reducible apply Stays.fst; with_reducible assumption)
    | (with_reducible apply Stays.mk_ <;> first | (show Stays _ _ _; skip) | simp +contextual)
    | dsimp only

theorem State.askBind_stays {kp : Bool} {s0 : State} {s : State} (q : Nat) (c : Nat) (op : Op) (hst : Stays kp s0 s) :
    Stays kp s0 (State.askBind s q c op) := by
  unfold State.askBind
  try dsimp only
  repeat' first
    | with_reducible assumption
    | with_reducible apply Stays.ite
    | with_reducible apply State.bindPlane_stays
    | with_reducible apply State.parkAll_stays
    | split
    | (with_reducible apply Stays.fst; with_reducible assumption)
    | dsimp only

theorem State.beginSegment_stays {kp : Bool} {s0 : State} {s : State} (c : Nat) (hst : Stays kp s0 s) :
    Stays kp s0 (State.beginSegment s c) := by
  unfold State.beginSegment
  try dsimp only
  repeat' first
    | with_reducible assumption
    | with_reducible apply Stays.ite
    | with_reducible apply State.beginUnslotted_stays
    | with_reducible apply State.askBind_stays
    | with_reducible apply State.refuse_stays
    | with_reducible apply State.startSegment_stays
    | split
    | (with_reducible apply Stays.fst; with_reducible assumption)
    | dsimp only

theorem State.runOpWith_stays {kp : Bool} {s0 : State} {s : State} (opc : Nat) (c : Nat) (found : List Found) (first : State → Nat → Job → Op → State) (body : State → Nat → Job → Op → Prog)
    (hst : Stays kp s0 s) (hfirst : ∀ (s : State) (a1 : Nat) (a2 : Job) (a3 : Op), Stays kp s0 s → Stays kp s0 (first s a1 a2 a3)) (hbody : ∀ (s : State) (a1 : Nat) (a2 : Job) (a3 : Op), Stays kp s0 s → Stays kp s0 (body s a1 a2 a3).state) :
    Stays kp s0 (State.runOpWith s opc c found first body) := by
  unfold State.runOpWith
  try dsimp only
  repeat' first
    | with_reducible assumption
    | intro _
    | with_reducible apply Stays.ite
    | with_reducible apply hfirst
    | with_reducible apply hbody
    | with_reducible apply State.beginSegment_stays
    | with_reducible apply State.applyAll_stays
    | split
    | (with_reducible apply Stays.fst; with_reducible assumption)
    | dsimp only

theorem State.runOp_stays {kp : Bool} {s0 : State} {s : State} (opc : Nat) (c : Nat) (found : List Found) (body : State → Nat → Job → Op → Prog)
    (hst : Stays kp s0 s) (hbody : ∀ (s : State) (a1 : Nat) (a2 : Job) (a3 : Op), Stays kp s0 s → Stays kp s0 (body s a1 a2 a3).state) :
    Stays kp s0 (State.runOp s opc c found body) := by
  unfold State.runOp
  try dsimp only
  repeat' first
    | with_reducible assumption
    | intro _
    | with_reducible apply hbody
    | with_reducible apply State.runOpWith_stays
    | dsimp only

end Sys2Proof.Machine
end

