-- ==== Sys2Proof/Laws/StaysSpill.lean ====
section
/-! SUPPORT. Laws/StaysSpill.lean: what each operation of Machine/Spill.lean leaves. -/
namespace Sys2Proof.Machine
set_option Elab.async false

theorem State.startInternal_stays {kp : Bool} {s0 : State} {s : State} (q : Nat) (c : Nat) (kind : JobKind) (base : Nat)
    (hst : Stays kp s0 s) :
    Stays kp s0 (State.startInternal s q c kind base) := by
  unfold State.startInternal
  try dsimp only
  repeat' first
    | with_reducible assumption
    | intro _
    | with_reducible apply State.modQuarter_stays
    | with_reducible apply State.settle_stays
    | (with_reducible apply Stays.mk_ <;> first | (show Stays _ _ _; skip) | simp +contextual)
    | dsimp only

theorem State.runInternal_stays {kp : Bool} {s0 : State} {s : State} (c : Nat) (dispatch : Nat) (kind : JobKind) (found : List Found) (first : State → Nat → State) (body : State → Nat → Prog)
    (hst : Stays kp s0 s) (hfirst : ∀ (s : State) (a1 : Nat), Stays kp s0 s → Stays kp s0 (first s a1)) (hbody : ∀ (s : State) (a1 : Nat), Stays kp s0 s → Stays kp s0 (body s a1).state) :
    Stays kp s0 (State.runInternal s c dispatch kind found first body) := by
  unfold State.runInternal
  try dsimp only
  repeat' first
    | with_reducible assumption
    | intro _
    | with_reducible apply Stays.ite
    | with_reducible apply hfirst
    | with_reducible apply hbody
    | with_reducible apply State.applyAll_stays
    | split
    | (with_reducible apply Stays.fst; with_reducible assumption)
    | dsimp only

theorem State.drawSalt_stays {kp : Bool} {s0 : State} {s : State} (q : Nat) (c : Nat) (hst : Stays kp s0 s) :
    Stays kp s0 (State.drawSalt s q c).state := by
  unfold State.drawSalt
  try dsimp only
  repeat' first
    | with_reducible assumption
    | intro _
    | with_reducible apply Stays.ite
    | with_reducible apply Stays.progIte
    | with_reducible apply Stays.go
    | with_reducible apply Stays.stop
    | with_reducible apply State.modJob_stays
    | with_reducible apply State.modEntry_stays
    | split
    | (with_reducible apply Stays.mk_ <;> first | (show Stays _ _ _; skip) | simp +contextual)
    | dsimp only

theorem State.classifySpa_stays {kp : Bool} {s0 : State} {s : State} (c : Nat) (dispatch : Nat) (write : Bool) (ranges : List (Nat × Nat))
    (hst : Stays kp s0 s) :
    Stays kp s0 (State.classifySpa s c dispatch write ranges).state := by
  unfold State.classifySpa
  try dsimp only
  repeat' first
    | with_reducible assumption
    | intro _
    | with_reducible apply Stays.ite
    | with_reducible apply Stays.progIte
    | with_reducible apply Stays.iteFst
    | with_reducible apply Stays.go
    | with_reducible apply Stays.stop
    | with_reducible apply State.classifyAt_stays
    | split
    | dsimp only

theorem State.postSpill_stays {kp : Bool} {s0 : State} {s : State} (c : Nat) (opc : Nat) (spa : Nat) (bs : List Byte)
    (hst : Stays kp s0 s) :
    Stays kp s0 (State.postSpill s c opc spa bs) := by
  unfold State.postSpill
  try dsimp only
  repeat' first
    | with_reducible assumption
    | intro _
    | with_reducible apply State.post_stays
    | (with_reducible apply Stays.foldl; intro _ _ _)
    | (with_reducible apply Stays.foldlFst; intro _ _ _)
    | dsimp only

theorem State.writeDescriptor_stays {kp : Bool} {s0 : State} {s : State} (c : Nat) (hst : Stays kp s0 s) :
    Stays kp s0 (State.writeDescriptor s c) := by
  unfold State.writeDescriptor
  try dsimp only
  repeat' first
    | with_reducible assumption
    | with_reducible apply State.writeRecord_stays
    | dsimp only

theorem State.parkedPoison_stays {kp : Bool} {s0 : State} {s : State} (q : Nat) (p : Nat) (c : Nat) (pl : Nat) (n : Nat)
    (hst : Stays kp s0 s) :
    Stays kp s0 (State.parkedPoison s q p c pl n) := by
  unfold State.parkedPoison
  try dsimp only
  repeat' first
    | with_reducible assumption
    | intro _
    | with_reducible apply Stays.ite
    | with_reducible apply Stays.iteFst
    | with_reducible apply State.planeUeFor_stays
    | (with_reducible apply Stays.foldl; intro _ _ _)
    | (with_reducible apply Stays.foldlFst; intro _ _ _)
    | split
    | (with_reducible apply Stays.fst; with_reducible assumption)
    | dsimp only

theorem State.spillRecord_stays {kp : Bool} {s0 : State} {s : State} (q : Nat) (c : Nat) (dispatch : Nat) (ord : Nat) (r : Rec) (nt : Nat)
    (hst : Stays kp s0 s) :
    Stays kp s0 (State.spillRecord s q c dispatch ord r nt) := by
  unfold State.spillRecord
  try dsimp only
  repeat' first
    | with_reducible assumption
    | intro _
    | with_reducible apply State.parkedPoison_stays
    | with_reducible apply State.postSpill_stays
    | with_reducible apply State.modJob_stays
    | split
    | (with_reducible apply Stays.fst; with_reducible assumption)
    | (with_reducible apply Stays.mk_ <;> first | (show Stays _ _ _; skip) | simp +contextual)
    | dsimp only

theorem State.spillIssue_stays {kp : Bool} {s0 : State} {s : State} (q : Nat) (c : Nat) (dispatch : Nat) (hst : Stays kp s0 s) :
    Stays kp s0 (State.spillIssue s q c dispatch) := by
  unfold State.spillIssue
  try dsimp only
  repeat' first
    | with_reducible assumption
    | intro _
    | with_reducible apply Stays.ite
    | with_reducible apply Stays.iteFst
    | with_reducible apply State.spillRecord_stays
    | (with_reducible apply Stays.foldl; intro _ _ _)
    | (with_reducible apply Stays.foldlFst; intro _ _ _)
    | split
    | dsimp only

theorem State.spillRun_stays {kp : Bool} {s0 : State} {s : State} (q : Nat) (c : Nat) (dispatch : Nat) (hst : Stays kp s0 s) :
    Stays kp s0 (State.spillRun s q c dispatch).state := by
  unfold State.spillRun
  try dsimp only
  repeat' first
    | with_reducible assumption
    | intro _
    | with_reducible apply Stays.ite
    | with_reducible apply Stays.progIte
    | with_reducible apply Stays.iteFst
    | with_reducible apply Stays.go
    | with_reducible apply Stays.stop
    | with_reducible apply State.drawSalt_stays
    | with_reducible apply State.classifySpa_stays
    | with_reducible apply State.modJob_stays
    | with_reducible apply State.postOnce_stays
    | with_reducible apply State.postFor_stays
    | with_reducible apply State.spillIssue_stays
    | with_reducible apply State.toCommit_stays
    | (with_reducible apply Stays.andThen; rotate_left; intro _ _; rotate_left)
    | with_reducible apply Stays.until
    | split
    | (with_reducible apply Stays.mk_ <;> first | (show Stays _ _ _; skip) | simp +contextual)
    | dsimp only

theorem State.displace_stays {kp : Bool} {s0 : State} {s : State} (c : Nat) (hst : Stays kp s0 s) :
    Stays kp s0 (State.displace s c) := by
  unfold State.displace
  try dsimp only
  repeat' first
    | with_reducible assumption
    | with_reducible apply Stays.ite
    | with_reducible apply State.preemptJob_stays
    | with_reducible apply State.settle_stays
    | with_reducible apply State.parkAll_stays
    | split
    | (with_reducible apply Stays.fst; with_reducible assumption)
    | dsimp only

theorem State.beginEvict_stays {kp : Bool} {s0 : State} {s : State} (c : Nat) (hst : Stays kp s0 s) :
    Stays kp s0 (State.beginEvict s c) := by
  unfold State.beginEvict
  try dsimp only
  repeat' first
    | with_reducible assumption
    | with_reducible apply Stays.ite
    | with_reducible apply State.displace_stays
    | with_reducible apply State.startInternal_stays
    | split
    | (with_reducible apply Stays.fst; with_reducible assumption)
    | dsimp only

theorem State.readImage_stays {kp : Bool} {s0 : State} {s : State} (c : Nat) (ranges : List (Nat × Nat)) (hst : Stays kp s0 s) :
    Stays kp s0 (State.readImage s c ranges) := by
  unfold State.readImage
  try dsimp only
  repeat' first
    | with_reducible assumption
    | intro _
    | with_reducible apply State.postAll_stays
    | dsimp only

theorem State.restoreFault_stays {kp : Bool} {s0 : State} {s : State} (c : Nat) (code : Nat) (spa : Nat) (hst : Stays kp s0 s) :
    Stays kp s0 (State.restoreFault s c code spa).state := by
  unfold State.restoreFault
  try dsimp only
  repeat' first
    | with_reducible assumption
    | intro _
    | with_reducible apply Stays.go
    | with_reducible apply Stays.stop
    | with_reducible apply State.routineFault_stays
    | dsimp only

theorem State.restoreHeader_stays {kp : Bool} {s0 : State} {s : State} (q : Nat) (c : Nat) (k : State → List Byte → Prog)
    (hst : Stays kp s0 s) (hk : ∀ (s : State) (a1 : List Byte), Stays kp s0 s → Stays kp s0 (k s a1).state) :
    Stays kp s0 (State.restoreHeader s q c k).state := by
  unfold State.restoreHeader
  try dsimp only
  repeat' first
    | with_reducible assumption
    | intro _
    | with_reducible apply Stays.ite
    | with_reducible apply Stays.progIte
    | with_reducible apply Stays.go
    | with_reducible apply Stays.stop
    | with_reducible apply hk
    | with_reducible apply State.classifySpa_stays
    | with_reducible apply State.readImage_stays
    | with_reducible apply State.modJob_stays
    | with_reducible apply State.restoreFault_stays
    | (with_reducible apply Stays.andThen; rotate_left; intro _ _; rotate_left)
    | split
    | (with_reducible apply Stays.fst; with_reducible assumption)
    | (with_reducible apply Stays.mk_ <;> first | (show Stays _ _ _; skip) | simp +contextual)
    | dsimp only

theorem State.reserveFor_stays {kp : Bool} {s0 : State} {s : State} (c : Nat) (subs : List (Nat × Nat)) (hst : Stays kp s0 s) :
    Stays kp s0 (State.reserveFor s c subs).state := by
  unfold State.reserveFor
  try dsimp only
  repeat' first
    | with_reducible assumption
    | intro _
    | with_reducible apply Stays.ite
    | with_reducible apply Stays.progIte
    | with_reducible apply Stays.iteFst
    | with_reducible apply Stays.go
    | with_reducible apply Stays.stop
    | with_reducible apply State.modSlice_stays
    | (with_reducible apply Stays.foldl; intro _ _ _)
    | (with_reducible apply Stays.foldlFst; intro _ _ _)
    | split
    | dsimp only

theorem State.fillParked_stays {kp : Bool} {s0 : State} {s : State} (c : Nat) (pl : Nat) (n : Nat) (b : List Af) (hst : Stays kp s0 s) :
    Stays kp s0 (State.fillParked s c pl n b) := by
  unfold State.fillParked
  try dsimp only
  repeat' first
    | with_reducible assumption
    | intro _
    | with_reducible apply State.modSlice_stays
    | (with_reducible apply Stays.foldl; intro _ _ _)
    | (with_reducible apply Stays.foldlFst; intro _ _ _)
    | split
    | (with_reducible apply Stays.fst; with_reducible assumption)
    | dsimp only

theorem State.fillUnread_stays {kp : Bool} {s0 : State} {s : State} (c : Nat) (pl : Nat) (n : Nat) (b : List Af) (hst : Stays kp s0 s) :
    Stays kp s0 (State.fillUnread s c pl n b) := by
  unfold State.fillUnread
  try dsimp only
  repeat' first
    | with_reducible assumption
    | intro _
    | with_reducible apply State.modSlice_stays
    | (with_reducible apply Stays.foldl; intro _ _ _)
    | (with_reducible apply Stays.foldlFst; intro _ _ _)
    | split
    | (with_reducible apply Stays.fst; with_reducible assumption)
    | dsimp only

theorem State.placeRecord_stays {kp : Bool} {s0 : State} {s : State} (q : Nat) (c : Nat) (r : Rec) (plain : List Byte)
    (hst : Stays kp s0 s) :
    Stays kp s0 (State.placeRecord s q c r plain) := by
  unfold State.placeRecord
  try dsimp only
  repeat' first
    | with_reducible assumption
    | intro _
    | with_reducible apply State.modSlice_stays
    | with_reducible apply State.modJob_stays
    | with_reducible apply State.fillUnread_stays
    | split
    | (with_reducible apply Stays.fst; with_reducible assumption)
    | (with_reducible apply Stays.mk_ <;> first | (show Stays _ _ _; skip) | simp +contextual)
    | dsimp only

theorem State.restoreRun_stays {kp : Bool} {s0 : State} {s : State} (q : Nat) (c : Nat) (hst : Stays kp s0 s) :
    Stays kp s0 (State.restoreRun s q c).state := by
  unfold State.restoreRun
  try dsimp only
  repeat' first
    | with_reducible assumption
    | intro _
    | with_reducible apply Stays.ite
    | with_reducible apply Stays.progIte
    | with_reducible apply Stays.iteFst
    | with_reducible apply Stays.go
    | with_reducible apply Stays.stop
    | with_reducible apply State.toCommit_stays
    | with_reducible apply State.restoreHeader_stays
    | with_reducible apply State.classifySpa_stays
    | with_reducible apply State.readImage_stays
    | with_reducible apply State.modJob_stays
    | with_reducible apply State.restoreFault_stays
    | with_reducible apply State.reserveFor_stays
    | with_reducible apply State.postOnce_stays
    | with_reducible apply State.postLines_stays
    | with_reducible apply State.placeRecord_stays
    | with_reducible apply State.dropGot_stays
    | (with_reducible apply Stays.andThen; rotate_left; intro _ _; rotate_left)
    | with_reducible apply Stays.until
    | (with_reducible apply Stays.foldl; intro _ _ _)
    | (with_reducible apply Stays.foldlFst; intro _ _ _)
    | split
    | (with_reducible apply Stays.fst; with_reducible assumption)
    | (with_reducible apply Stays.mk_ <;> first | (show Stays _ _ _; skip) | simp +contextual)
    | dsimp only

theorem State.noteClaim_stays {kp : Bool} {s0 : State} {s : State} (q : Nat) (c : Nat) (hst : Stays kp s0 s) :
    Stays kp s0 (State.noteClaim s q c) := by
  unfold State.noteClaim
  try dsimp only
  repeat' first
    | with_reducible assumption
    | intro _
    | with_reducible apply Stays.ite
    | with_reducible apply State.modJob_stays
    | split
    | (with_reducible apply Stays.mk_ <;> first | (show Stays _ _ _; skip) | simp +contextual)
    | dsimp only

theorem State.beginRestore_stays {kp : Bool} {s0 : State} {s : State} (c : Nat) (hst : Stays kp s0 s) :
    Stays kp s0 (State.beginRestore s c) := by
  unfold State.beginRestore
  try dsimp only
  repeat' first
    | with_reducible assumption
    | with_reducible apply Stays.ite
    | with_reducible apply State.startInternal_stays
    | split
    | (with_reducible apply Stays.fst; with_reducible assumption)
    | dsimp only

theorem State.chargeBind_stays {kp : Bool} {s0 : State} {s : State} (c : Option Nat) (units : Nat) (hst : Stays kp s0 s) :
    Stays kp s0 (State.chargeBind s c units) := by
  unfold State.chargeBind
  try dsimp only
  repeat' first
    | with_reducible assumption
    | with_reducible apply State.chargeDl_stays
    | with_reducible apply State.noteOverrun_stays
    | split
    | (with_reducible apply Stays.fst; with_reducible assumption)
    | dsimp only

theorem State.startMove_stays {kp : Bool} {s0 : State} {s : State} (q : Nat) (m : MoveJob) (by_ : Nat) (lanes : List (Nat × List Nat))
    (hst : Stays kp s0 s) :
    Stays kp s0 (State.startMove s q m by_ lanes) := by
  unfold State.startMove
  try dsimp only
  repeat' first
    | with_reducible assumption
    | intro _
    | with_reducible apply State.modQuarter_stays
    | with_reducible apply State.postFor_stays
    | (with_reducible apply Stays.foldl; intro _ _ _)
    | (with_reducible apply Stays.foldlFst; intro _ _ _)
    | (with_reducible apply Stays.mk_ <;> first | (show Stays _ _ _; skip) | simp +contextual)
    | dsimp only

theorem State.stageMove_stays {kp : Bool} {s0 : State} {s : State} (q : Nat) (m : MoveJob) (hst : Stays kp s0 s) :
    Stays kp s0 (State.stageMove s q m) := by
  unfold State.stageMove
  try dsimp only
  repeat' first
    | with_reducible assumption
    | intro _
    | with_reducible apply Stays.ite
    | with_reducible apply State.modQuarter_stays
    | split
    | (with_reducible apply Stays.mk_ <;> first | (show Stays _ _ _; skip) | simp +contextual)
    | dsimp only

theorem State.cancelPark_stays {kp : Bool} {s0 : State} {s : State} (c : Nat) (pl : Nat) (hst : Stays kp s0 s) :
    Stays kp s0 (State.cancelPark s c pl) := by
  unfold State.cancelPark
  try dsimp only
  repeat' first
    | with_reducible assumption
    | intro _
    | with_reducible apply State.dropMoves_stays
    | split
    | (with_reducible apply Stays.fst; with_reducible assumption)
    | (with_reducible apply Stays.mk_ <;> first | (show Stays _ _ _; skip) | simp +contextual)
    | dsimp only

theorem State.beginPark_stays {kp : Bool} {s0 : State} {s : State} (q : Nat) (p : Nat) (c : Nat) (pl : Nat) (hst : Stays kp s0 s) :
    Stays kp s0 (State.beginPark s q p c pl) := by
  unfold State.beginPark
  try dsimp only
  repeat' first
    | with_reducible assumption
    | intro _
    | with_reducible apply Stays.ite
    | with_reducible apply Stays.iteFst
    | with_reducible apply State.modPlane_stays
    | with_reducible apply State.modEntry_stays
    | with_reducible apply State.dropInternal_stays
    | with_reducible apply State.modQuarter_stays
    | with_reducible apply State.modSlice_stays
    | with_reducible apply State.startMove_stays
    | (with_reducible apply Stays.foldl; intro _ _ _)
    | (with_reducible apply Stays.foldlFst; intro _ _ _)
    | split
    | (with_reducible apply Stays.mk_ <;> first | (show Stays _ _ _; skip) | simp +contextual)
    | dsimp only

theorem State.runPark_stays {kp : Bool} {s0 : State} {s : State} (c : Nat) (pl : Nat) (found : List Found) (hst : Stays kp s0 s) :
    Stays kp s0 (State.runPark s c pl found) := by
  unfold State.runPark
  try dsimp only
  repeat' first
    | with_reducible assumption
    | intro _
    | with_reducible apply Stays.ite
    | with_reducible apply State.applyAll_stays
    | with_reducible apply State.stageMove_stays
    | with_reducible apply State.cancelPark_stays
    | with_reducible apply State.beginPark_stays
    | with_reducible apply State.dropInternal_stays
    | split
    | (with_reducible apply Stays.fst; with_reducible assumption)
    | dsimp only

theorem State.beginUnpark_stays {kp : Bool} {s0 : State} {s : State} (q : Nat) (p : Nat) (c : Nat) (pl : Nat) (hst : Stays kp s0 s) :
    Stays kp s0 (State.beginUnpark s q p c pl) := by
  unfold State.beginUnpark
  try dsimp only
  repeat' first
    | with_reducible assumption
    | intro _
    | with_reducible apply State.modPlane_stays
    | with_reducible apply State.startMove_stays
    | dsimp only

theorem State.runUnpark_stays {kp : Bool} {s0 : State} {s : State} (c : Nat) (pl : Nat) (p : Nat) (found : List Found)
    (hst : Stays kp s0 s) :
    Stays kp s0 (State.runUnpark s c pl p found) := by
  unfold State.runUnpark
  try dsimp only
  repeat' first
    | with_reducible assumption
    | intro _
    | with_reducible apply Stays.ite
    | with_reducible apply State.dropInternal_stays
    | with_reducible apply State.applyAll_stays
    | with_reducible apply State.stageMove_stays
    | with_reducible apply State.bindPlane_stays
    | with_reducible apply State.beginUnpark_stays
    | split
    | (with_reducible apply Stays.fst; with_reducible assumption)
    | dsimp only

theorem State.commitPark_stays {kp : Bool} {s0 : State} {s : State} (q : Nat) (held : Nat) (m : MoveJob) (hst : Stays kp s0 s) :
    Stays kp s0 (State.commitPark s q held m) := by
  unfold State.commitPark
  try dsimp only
  repeat' first
    | with_reducible assumption
    | intro _
    | with_reducible apply Stays.ite
    | with_reducible apply Stays.iteFst
    | with_reducible apply State.fillParked_stays
    | with_reducible apply State.modPlane_stays
    | with_reducible apply State.modEntry_stays
    | with_reducible apply State.chargeBind_stays
    | with_reducible apply State.modQuarter_stays
    | with_reducible apply State.dropInternal_stays
    | (with_reducible apply Stays.foldl; intro _ _ _)
    | (with_reducible apply Stays.foldlFst; intro _ _ _)
    | split
    | (with_reducible apply Stays.fst; with_reducible assumption)
    | (with_reducible apply Stays.mk_ <;> first | (show Stays _ _ _; skip) | simp +contextual)
    | dsimp only

theorem State.commitUnpark_stays {kp : Bool} {s0 : State} {s : State} (q : Nat) (held : Nat) (m : MoveJob) (hst : Stays kp s0 s) :
    Stays kp s0 (State.commitUnpark s q held m) := by
  unfold State.commitUnpark
  try dsimp only
  repeat' first
    | with_reducible assumption
    | intro _
    | with_reducible apply State.parkedPoison_stays
    | with_reducible apply State.modPlane_stays
    | with_reducible apply State.modEntry_stays
    | with_reducible apply State.notePlaneWriter_stays
    | with_reducible apply State.chargeBind_stays
    | with_reducible apply State.dropInternal_stays
    | (with_reducible apply Stays.foldl; intro _ _ _)
    | (with_reducible apply Stays.foldlFst; intro _ _ _)
    | split
    | (with_reducible apply Stays.fst; with_reducible assumption)
    | (with_reducible apply Stays.mk_ <;> first | (show Stays _ _ _; skip) | simp +contextual)
    | dsimp only

theorem State.moveTile_stays {kp : Bool} {s0 : State} {s : State} (c : Nat) (k : Nat) (a : Nat) (b : Nat) (n : Nat) (hst : Stays kp s0 s) :
    Stays kp s0 (State.moveTile s c k a b n) := by
  unfold State.moveTile
  try dsimp only
  repeat' first
    | with_reducible assumption
    | intro _
    | with_reducible apply Stays.ite
    | with_reducible apply State.modSlice_stays
    | split
    | (with_reducible apply Stays.fst; with_reducible assumption)
    | (with_reducible apply Stays.mk_ <;> first | (show Stays _ _ _; skip) | simp +contextual)
    | dsimp only

theorem State.moveWindow_stays {kp : Bool} {s0 : State} {s : State} (c : Nat) (k : Nat) (a : Nat) (b : Nat) (hst : Stays kp s0 s) :
    Stays kp s0 (State.moveWindow s c k a b) := by
  unfold State.moveWindow
  try dsimp only
  repeat' first
    | with_reducible assumption
    | intro _
    | with_reducible apply State.modSlice_stays
    | with_reducible apply State.moveTile_stays
    | with_reducible apply State.modEntry_stays
    | with_reducible apply State.suspend_stays
    | (with_reducible apply Stays.foldl; intro _ _ _)
    | (with_reducible apply Stays.foldlFst; intro _ _ _)
    | (with_reducible apply Stays.mk_ <;> first | (show Stays _ _ _; skip) | simp +contextual)
    | dsimp only

theorem State.runIsmove_stays {kp : Bool} {s0 : State} {s : State} (c : Nat) (k : Nat) (a : Nat) (b : Nat) (found : List Found)
    (hst : Stays kp s0 s) :
    Stays kp s0 (State.runIsmove s c k a b found) := by
  unfold State.runIsmove
  try dsimp only
  repeat' first
    | with_reducible assumption
    | intro _
    | with_reducible apply Stays.ite
    | with_reducible apply State.applyAll_stays
    | with_reducible apply State.stageMove_stays
    | with_reducible apply State.modSlice_stays
    | with_reducible apply State.startMove_stays
    | split
    | (with_reducible apply Stays.fst; with_reducible assumption)
    | dsimp only

theorem State.commitIsmove_stays {kp : Bool} {s0 : State} {s : State} (m : MoveJob) (hst : Stays kp s0 s) :
    Stays kp s0 (State.commitIsmove s m) := by
  unfold State.commitIsmove
  try dsimp only
  repeat' first
    | with_reducible assumption
    | intro _
    | with_reducible apply State.moveWindow_stays
    | with_reducible apply State.dropInternal_stays
    | split
    | (with_reducible apply Stays.fst; with_reducible assumption)
    | dsimp only

end Sys2Proof.Machine
end

