-- ==== Sys2Proof/Laws/StaysResidency.lean ====
section
/-! SUPPORT. Laws/StaysResidency.lean: what each operation of Machine/Residency.lean leaves. -/
namespace Sys2Proof.Machine
set_option Elab.async false

theorem State.affinityLost_stays {kp : Bool} {s0 : State} {s : State} (c : Nat) (q : Nat) (hst : Stays kp s0 s) :
    Stays kp s0 (State.affinityLost s c q) := by
  unfold State.affinityLost
  try dsimp only
  repeat' first
    | with_reducible assumption
    | with_reducible apply State.deviceEvent_stays
    | dsimp only

theorem State.noteOvercommit_stays {kp : Bool} {s0 : State} {s : State} (q : Nat) (hst : Stays kp s0 s) :
    Stays kp s0 (State.noteOvercommit s q) := by
  unfold State.noteOvercommit
  try dsimp only
  repeat' first
    | with_reducible assumption
    | intro _
    | with_reducible apply Stays.ite
    | with_reducible apply State.modQuarter_stays
    | with_reducible apply State.deviceEvent_stays
    | with_reducible apply State.suspend_stays
    | split
    | (with_reducible apply Stays.mk_ <;> first | (show Stays _ _ _; skip) | simp +contextual)
    | dsimp only

theorem State.freeEmptyPlanes_stays {kp : Bool} {s0 : State} {s : State} (c : Nat) (hst : Stays kp s0 s) :
    Stays kp s0 (State.freeEmptyPlanes s c) := by
  unfold State.freeEmptyPlanes
  try dsimp only
  repeat' first
    | with_reducible assumption
    | intro _
    | with_reducible apply Stays.ite
    | with_reducible apply Stays.iteFst
    | with_reducible apply State.modEntry_stays
    | with_reducible apply State.modPlane_stays
    | (with_reducible apply Stays.foldl; intro _ _ _)
    | (with_reducible apply Stays.foldlFst; intro _ _ _)
    | split
    | (with_reducible apply Stays.fst; with_reducible assumption)
    | (with_reducible apply Stays.mk_ <;> first | (show Stays _ _ _; skip) | simp +contextual)
    | dsimp only

theorem State.rebindNow_stays {kp : Bool} {s0 : State} {s : State} (c : Nat) (q : Nat) (lost : Bool) (leaving : Bool)
    (hst : Stays kp s0 s) :
    Stays kp s0 (State.rebindNow s c q lost leaving) := by
  unfold State.rebindNow
  try dsimp only
  repeat' first
    | with_reducible assumption
    | intro _
    | with_reducible apply Stays.ite
    | with_reducible apply State.modQuarter_stays
    | with_reducible apply State.dropAhead_stays
    | with_reducible apply State.freeEmptyPlanes_stays
    | with_reducible apply State.parkAll_stays
    | with_reducible apply State.modEntry_stays
    | with_reducible apply State.queueInternal_stays
    | with_reducible apply State.affinityLost_stays
    | with_reducible apply State.suspend_stays
    | with_reducible apply State.noteOvercommit_stays
    | split
    | (with_reducible apply Stays.fst; with_reducible assumption)
    | (with_reducible apply Stays.mk_ <;> first | (show Stays _ _ _; skip) | simp +contextual)
    | dsimp only

theorem State.rebindAway_stays {kp : Bool} {s0 : State} {s : State} (c : Nat) (hst : Stays kp s0 s) :
    Stays kp s0 (State.rebindAway s c) := by
  unfold State.rebindAway
  try dsimp only
  repeat' first
    | with_reducible assumption
    | intro _
    | with_reducible apply Stays.ite
    | with_reducible apply State.faultContext_stays
    | with_reducible apply State.modEntry_stays
    | with_reducible apply State.rebindNow_stays
    | with_reducible apply State.preemptJob_stays
    | with_reducible apply State.settle_stays
    | split
    | (with_reducible apply Stays.fst; with_reducible assumption)
    | (with_reducible apply Stays.mk_ <;> first | (show Stays _ _ _; skip) | simp +contextual)
    | dsimp only

theorem State.takeRebind_stays {kp : Bool} {s0 : State} {s : State} (c : Nat) (hst : Stays kp s0 s) :
    Stays kp s0 (State.takeRebind s c) := by
  unfold State.takeRebind
  try dsimp only
  repeat' first
    | with_reducible assumption
    | with_reducible apply Stays.ite
    | with_reducible apply State.rebindNow_stays
    | with_reducible apply State.faultContext_stays
    | split
    | (with_reducible apply Stays.fst; with_reducible assumption)
    | dsimp only

theorem State.giveSlot_stays {kp : Bool} {s0 : State} {s : State} (c : Nat) (k : Nat) (hst : Stays kp s0 s) :
    Stays kp s0 (State.giveSlot s c k) := by
  unfold State.giveSlot
  try dsimp only
  repeat' first
    | with_reducible assumption
    | intro _
    | with_reducible apply Stays.ite
    | with_reducible apply Stays.iteFst
    | with_reducible apply State.modEntry_stays
    | with_reducible apply State.takeFloors_stays
    | with_reducible apply State.modSlice_stays
    | with_reducible apply State.affinityLost_stays
    | with_reducible apply State.queueInternal_stays
    | (with_reducible apply Stays.foldl; intro _ _ _)
    | (with_reducible apply Stays.foldlFst; intro _ _ _)
    | split
    | (with_reducible apply Stays.fst; with_reducible assumption)
    | (with_reducible apply Stays.mk_ <;> first | (show Stays _ _ _; skip) | simp +contextual)
    | dsimp only

theorem State.tellWait_stays {kp : Bool} {s0 : State} {s : State} (c : Nat) (code : Nat) (hst : Stays kp s0 s) :
    Stays kp s0 (State.tellWait s c code) := by
  unfold State.tellWait
  try dsimp only
  repeat' first
    | with_reducible assumption
    | intro _
    | with_reducible apply Stays.ite
    | with_reducible apply State.modEntry_stays
    | with_reducible apply State.deviceEvent_stays
    | split
    | (with_reducible apply Stays.mk_ <;> first | (show Stays _ _ _; skip) | simp +contextual)
    | dsimp only

end Sys2Proof.Machine
end

