-- ==== Sys2Proof/Laws/StaysAttach.lean ====
section
/-! SUPPORT. Laws/StaysAttach.lean: what each operation of Machine/Attach.lean leaves. -/
namespace Sys2Proof.Machine
set_option Elab.async false

theorem State.refuseAtt_stays {kp : Bool} {s0 : State} {s : State} (c : Nat) (pkt : List Byte) (code : Nat) (hst : Stays kp s0 s) :
    Stays kp s0 (State.refuseAtt s c pkt code) := by
  unfold State.refuseAtt
  try dsimp only
  repeat' first
    | with_reducible assumption
    | with_reducible apply State.withdraw_stays
    | with_reducible apply State.dropJob_stays
    | with_reducible apply State.dropEntry_stays
    | with_reducible apply State.ringNak_stays
    | split
    | (with_reducible apply Stays.fst; with_reducible assumption)
    | dsimp only

theorem State.beginAtt_stays {kp : Bool} {s0 : State} {s : State} (c : Nat) (hst : Stays kp s0 s) :
    Stays kp s0 (State.beginAtt s c) := by
  unfold State.beginAtt
  try dsimp only
  repeat' first
    | with_reducible assumption
    | intro _
    | with_reducible apply Stays.ite
    | with_reducible apply State.modQuarter_stays
    | split
    | (with_reducible apply Stays.fst; with_reducible assumption)
    | (with_reducible apply Stays.mk_ <;> first | (show Stays _ _ _; skip) | simp +contextual)
    | dsimp only

theorem State.commitAtt_stays {kp : Bool} {s0 : State} {s : State} (c : Nat) (hst : Stays kp s0 s) :
    Stays kp s0 (State.commitAtt s c) := by
  unfold State.commitAtt
  try dsimp only
  repeat' first
    | with_reducible assumption
    | intro _
    | with_reducible apply Stays.ite
    | with_reducible apply Stays.iteFst
    | with_reducible apply State.putEntry_stays
    | with_reducible apply State.modFabric_stays
    | with_reducible apply State.respond_stays
    | with_reducible apply State.writeProgress_stays
    | with_reducible apply State.makeCandidate_stays
    | split
    | (with_reducible apply Stays.fst; with_reducible assumption)
    | (with_reducible apply Stays.mk_ <;> first | (show Stays _ _ _; skip) | simp +contextual)
    | dsimp only

end Sys2Proof.Machine
end

