-- ==== Sys2Proof/Laws/StaysBringup.lean ====
section
/-! SUPPORT. Laws/StaysBringup.lean: what each operation of Machine/Bringup.lean leaves. -/
namespace Sys2Proof.Machine
set_option Elab.async false

theorem State.settleWrites_stays {kp : Bool} {s0 : State} {s : State} (hst : Stays kp s0 s) :
    Stays kp s0 (State.settleWrites s) := by
  have k := Hbm.foldl_keeps (fun (h : Hbm) (p : (Nat × List Byte × List Bool) × Nat) =>
    if Config.keptWrite (s.free.picks + p.2) then h.write p.1.1 p.1.2.1 p.1.2.2 [] [] else h)
    (by
      intro h a
      split
      · exact ⟨Hbm.write_wf _ _ _ _ _, rfl, rfl⟩
      · exact ⟨id, rfl, rfl⟩)
    ((((s.fabric.txns.filter (fun (t : Txn) => t.isWrite && decide (t.target < 4) && t.state == TxnState.posted)).map (fun (t : Txn) => (spaOff t.spa, t.data, t.enables))) ++
      s.bufferedWrites.map (fun p => (spaOff (reqSpa p), pktData p (reqSpa p % 16) (reqSize p), []))).zipIdx) s.hbm
  refine Stays.updW hst rfl rfl (fun _ => rfl) (fun _ => Nat.le_refl _) k.1 ?_ rfl rfl id ?_ id
  · intro e
    exact Nat.le_trans (Nat.le_of_eq k.2.1) e
  · intro e
    exact (congrArg List.length k.2.2).trans e


theorem State.goShutdown_stays {kp : Bool} {s0 : State} {s : State} (hst : Stays kp s0 s) :
    Stays kp s0 (State.goShutdown s) := by
  unfold State.goShutdown
  try dsimp only
  repeat' first
    | with_reducible assumption
    | intro _
    | with_reducible apply State.settleWrites_stays
    | with_reducible apply State.linksDown_stays
    | with_reducible apply State.stopRoutines_stays
    | with_reducible apply State.sendVidNow_stays
    | with_reducible apply State.showStat_stays
    | (with_reducible apply Stays.mk_ <;> first | (show Stays _ _ _; skip) | simp +contextual)
    | dsimp only

theorem State.assertReset_stays {s0 : State} {s : State} (powerLost : Bool) (hst : Stays false s0 s) :
    Stays false s0 (State.assertReset s powerLost) := by
  have k := State.settleWrites_stays (kp := false) (Stays.refl false s)
  unfold State.assertReset
  dsimp only
  split
  · exact Stays.updW hst rfl rfl (fun e => absurd e Bool.false_ne_true) (fun e => absurd e Bool.false_ne_true)
      (fun _ => rfl) (fun _ => Nat.zero_le _) (List.length_map ..) (List.length_map ..) (fun _ => rfl) (fun _ => rfl) (fun _ => rfl)
  · exact Stays.updW hst rfl rfl (fun e => absurd e Bool.false_ne_true) (fun e => absurd e Bool.false_ne_true)
      k.mem (fun _ => Nat.zero_le _) (List.length_map ..) (List.length_map ..) (fun _ => rfl)
      (fun e => (List.length_map ..).trans (k.hbmStacks e)) (fun _ => rfl)


theorem State.enterPhase_stays {kp : Bool} {s0 : State} {s : State} (p : Nat) (hst : Stays kp s0 s) :
    Stays kp s0 (State.enterPhase s p) := by
  unfold State.enterPhase
  try dsimp only
  repeat' first
    | with_reducible assumption
    | with_reducible apply Stays.ite
    | with_reducible apply State.showStat_stays
    | split
    | (with_reducible apply Stays.mk_ <;> first | (show Stays _ _ _; skip) | simp +contextual)
    | dsimp only

theorem State.afterImages_stays {kp : Bool} {s0 : State} {s : State} (hst : Stays kp s0 s) :
    Stays kp s0 (State.afterImages s) := by
  unfold State.afterImages
  try dsimp only
  repeat' first
    | with_reducible assumption
    | with_reducible apply Stays.ite
    | with_reducible apply State.enterPhase_stays
    | split
    | dsimp only

theorem State.fuseState_stays {kp : Bool} {s0 : State} {s : State} (hst : Stays kp s0 s) :
    Stays kp s0 (State.fuseState s) := by
  unfold State.fuseState
  try dsimp only
  repeat' first
    | with_reducible assumption
    | intro _
    | (with_reducible apply Stays.foldl; intro _ _ _)
    | (with_reducible apply Stays.foldlFst; intro _ _ _)
    | (with_reducible apply Stays.mk_ <;> first | (show Stays _ _ _; skip) | simp +contextual)
    | dsimp only

theorem State.runBist_stays {kp : Bool} {s0 : State} {s : State} (findings : List Finding) (hst : Stays kp s0 s) :
    Stays kp s0 (State.runBist s findings) := by
  unfold State.runBist
  try dsimp only
  repeat' first
    | with_reducible assumption
    | intro _
    | with_reducible apply State.applyFinding_stays
    | with_reducible apply State.fuseState_stays
    | (with_reducible apply Stays.foldl; intro _ _ _)
    | (with_reducible apply Stays.foldlFst; intro _ _ _)
    | (with_reducible apply Stays.mk_ <;> first | (show Stays _ _ _; skip) | simp +contextual)
    | dsimp only

theorem State.setPartitions_stays {kp : Bool} {s0 : State} {s : State} (p : Profile) (hst : Stays kp s0 s) :
    Stays kp s0 (State.setPartitions s p) := by
  unfold State.setPartitions
  try dsimp only
  repeat' first
    | with_reducible assumption
    | intro _
    | (with_reducible apply Stays.mk_ <;> first | (show Stays _ _ _; skip) | simp +contextual)
    | dsimp only

theorem State.powerStart_stays {kp : Bool} {s0 : State} {s : State} (hst : Stays kp s0 s) :
    Stays kp s0 (State.powerStart s) := by
  unfold State.powerStart
  try dsimp only
  repeat' first
    | with_reducible assumption
    | (with_reducible apply Stays.mk_ <;> first | (show Stays _ _ _; skip) | simp +contextual)
    | dsimp only

theorem State.appliedEvent_stays {kp : Bool} {s0 : State} {s : State} (rinse : Bool) (spilled : Nat) (hst : Stays kp s0 s) :
    Stays kp s0 (State.appliedEvent s rinse spilled) := by
  unfold State.appliedEvent
  try dsimp only
  repeat' first
    | with_reducible assumption
    | with_reducible apply State.deviceEvent_stays
    | dsimp only

theorem State.applyAtBringUp_stays {s0 : State} {s : State} (p : Profile) (num : Nat) (rom : Bool) (hst : Stays false s0 s) :
    Stays false s0 (State.applyAtBringUp s p num rom) := by
  unfold State.applyAtBringUp
  try dsimp only
  repeat' first
    | with_reducible assumption
    | with_reducible apply Stays.ite
    | with_reducible apply State.newSweep_stays
    | with_reducible apply State.setPartitions_stays
    | with_reducible apply State.powerStart_stays
    | with_reducible apply State.sendVid_stays
    | split
    | (with_reducible apply Stays.mkF_ <;> first | (show Stays _ _ _; skip) | simp +contextual)
    | dsimp only

theorem State.enterHbm_stays {kp : Bool} {s0 : State} {s : State} (hst : Stays kp s0 s) :
    Stays kp s0 (State.enterHbm s) := by
  unfold State.enterHbm
  try dsimp only
  repeat' first
    | with_reducible assumption
    | with_reducible apply Stays.ite
    | with_reducible apply State.enterPhase_stays
    | split
    | (with_reducible apply Stays.mk_ <;> first | (show Stays _ _ _; skip) | simp +contextual)
    | dsimp only

theorem State.enterHostLink_stays {kp : Bool} {s0 : State} {s : State} (hst : Stays kp s0 s) :
    Stays kp s0 (State.enterHostLink s) := by
  unfold State.enterHostLink
  try dsimp only
  repeat' first
    | with_reducible assumption
    | intro _
    | with_reducible apply State.enterPhase_stays
    | with_reducible apply State.modHost_stays
    | (with_reducible apply Stays.mk_ <;> first | (show Stays _ _ _; skip) | simp +contextual)
    | dsimp only

theorem State.trainPorts_stays {kp : Bool} {s0 : State} {s : State} (hst : Stays kp s0 s) :
    Stays kp s0 (State.trainPorts s) := by
  unfold State.trainPorts
  try dsimp only
  repeat' first
    | with_reducible assumption
    | intro _
    | with_reducible apply Stays.ite
    | with_reducible apply Stays.iteFst
    | with_reducible apply State.beginTrain_stays
    | (with_reducible apply Stays.foldl; intro _ _ _)
    | (with_reducible apply Stays.foldlFst; intro _ _ _)
    | split
    | dsimp only

theorem State.hostLinkSettled_stays {kp : Bool} {s0 : State} {s : State} (hst : Stays kp s0 s) :
    Stays kp s0 (State.hostLinkSettled s) := by
  unfold State.hostLinkSettled
  try dsimp only
  repeat' first
    | with_reducible assumption
    | with_reducible apply Stays.ite
    | with_reducible apply State.enterPhase_stays
    | with_reducible apply State.trainPorts_stays
    | with_reducible apply State.refreshStat_stays
    | split
    | dsimp only

theorem State.writeReport_stays {kp : Bool} {s0 : State} {s : State} (hst : Stays kp s0 s) :
    Stays kp s0 (State.writeReport s) := by
  unfold State.writeReport
  try dsimp only
  repeat' first
    | with_reducible assumption
    | with_reducible apply Stays.ite
    | with_reducible apply State.deviceEventParts_stays
    | split
    | (with_reducible apply Stays.mk_ <;> first | (show Stays _ _ _; skip) | simp +contextual)
    | dsimp only

end Sys2Proof.Machine
end

