-- ==== Sys2Proof/Laws/StaysCommit.lean ====
section
/-! SUPPORT. Laws/StaysCommit.lean: what each operation of Machine/Commit.lean leaves. -/
namespace Sys2Proof.Machine
set_option Elab.async false

theorem State.commitTile_stays {kp : Bool} {s0 : State} {s : State} (c : Nat) (t : StagedTile) (hst : Stays kp s0 s) :
    Stays kp s0 (State.commitTile s c t) := by
  unfold State.commitTile
  try dsimp only
  repeat' first
    | with_reducible assumption
    | intro _
    | with_reducible apply Stays.ite
    | with_reducible apply State.modSlice_stays
    | with_reducible apply State.dropTilePegs_stays
    | split
    | (with_reducible apply Stays.fst; with_reducible assumption)
    | (with_reducible apply Stays.mk_ <;> first | (show Stays _ _ _; skip) | simp +contextual)
    | dsimp only

theorem State.resetPlane_stays {kp : Bool} {s0 : State} {s : State} (c : Nat) (pl : Nat) (isOpen : Bool) (hst : Stays kp s0 s) :
    Stays kp s0 (State.resetPlane s c pl isOpen) := by
  unfold State.resetPlane
  try dsimp only
  repeat' first
    | with_reducible assumption
    | intro _
    | with_reducible apply Stays.ite
    | with_reducible apply State.dropMoves_stays
    | with_reducible apply State.dropInternal_stays
    | with_reducible apply State.modEntry_stays
    | with_reducible apply State.modPlane_stays
    | split
    | (with_reducible apply Stays.fst; with_reducible assumption)
    | (with_reducible apply Stays.mk_ <;> first | (show Stays _ _ _; skip) | simp +contextual)
    | dsimp only

theorem State.setLive_stays {kp : Bool} {s0 : State} {s : State} (c : Nat) (j : Job) (op : Op) (hst : Stays kp s0 s) :
    Stays kp s0 (State.setLive s c j op) := by
  unfold State.setLive
  try dsimp only
  repeat' first
    | with_reducible assumption
    | intro _
    | with_reducible apply Stays.ite
    | with_reducible apply State.modEntry_stays
    | with_reducible apply State.modPlane_stays
    | split
    | (with_reducible apply Stays.mk_ <;> first | (show Stays _ _ _; skip) | simp +contextual)
    | dsimp only

theorem State.rangeEvents_stays {kp : Bool} {s0 : State} {s : State} (c : Nat) (j : Job) (op : Op) (hst : Stays kp s0 s) :
    Stays kp s0 (State.rangeEvents s c j op) := by
  unfold State.rangeEvents
  try dsimp only
  repeat' first
    | with_reducible assumption
    | intro _
    | with_reducible apply Stays.ite
    | with_reducible apply State.contextEvent_stays
    | with_reducible apply State.modHeadOp_stays
    | split
    | (with_reducible apply Stays.mk_ <;> first | (show Stays _ _ _; skip) | simp +contextual)
    | dsimp only

theorem State.poisonEvent_stays {kp : Bool} {s0 : State} {s : State} (c : Nat) (j : Job) (op : Op) (hst : Stays kp s0 s) :
    Stays kp s0 (State.poisonEvent s c j op) := by
  unfold State.poisonEvent
  try dsimp only
  repeat' first
    | with_reducible assumption
    | intro _
    | with_reducible apply Stays.ite
    | with_reducible apply State.contextEvent_stays
    | with_reducible apply State.modHeadOp_stays
    | split
    | (with_reducible apply Stays.mk_ <;> first | (show Stays _ _ _; skip) | simp +contextual)
    | dsimp only

theorem State.commitSpill_stays {kp : Bool} {s0 : State} {s : State} (c : Nat) (dispatch : Nat) (j : Job) (hst : Stays kp s0 s) :
    Stays kp s0 (State.commitSpill s c dispatch j).1 := by
  unfold State.commitSpill
  try dsimp only
  repeat' first
    | with_reducible assumption
    | intro _
    | with_reducible apply Stays.ite
    | with_reducible apply Stays.iteFst
    | with_reducible apply State.modEntry_stays
    | with_reducible apply State.postSpill_stays
    | with_reducible apply State.writeDescriptor_stays
    | split
    | (with_reducible apply Stays.fst; with_reducible assumption)
    | (with_reducible apply Stays.mk_ <;> first | (show Stays _ _ _; skip) | simp +contextual)
    | dsimp only

theorem State.releaseCommitted_stays {kp : Bool} {s0 : State} {s : State} (c : Nat) (upTo : Nat) (hst : Stays kp s0 s) :
    Stays kp s0 (State.releaseCommitted s c upTo) := by
  unfold State.releaseCommitted
  try dsimp only
  repeat' first
    | with_reducible assumption
    | intro _
    | split
    | (with_reducible apply Stays.fst; with_reducible assumption)
    | (with_reducible apply Stays.mk_ <;> first | (show Stays _ _ _; skip) | simp +contextual)
    | dsimp only

theorem State.commitOp_stays {kp : Bool} {s0 : State} {s : State} (c : Nat) (j : Job) (op : Op) (hst : Stays kp s0 s) :
    Stays kp s0 (State.commitOp s c j op) := by
  unfold State.commitOp
  try dsimp only
  repeat' first
    | with_reducible assumption
    | intro _
    | with_reducible apply Stays.ite
    | with_reducible apply Stays.iteFst
    | with_reducible apply State.commitTile_stays
    | with_reducible apply State.resetPlane_stays
    | with_reducible apply State.setLive_stays
    | with_reducible apply State.releaseCommitted_stays
    | with_reducible apply State.dropGot_stays
    | with_reducible apply State.commitSpill_stays
    | with_reducible apply State.rangeEvents_stays
    | with_reducible apply State.poisonEvent_stays
    | with_reducible apply State.modHeadOp_stays
    | with_reducible apply State.modEntry_stays
    | (with_reducible apply Stays.foldl; intro _ _ _)
    | (with_reducible apply Stays.foldlFst; intro _ _ _)
    | split
    | (with_reducible apply Stays.mk_ <;> first | (show Stays _ _ _; skip) | simp +contextual)
    | dsimp only

theorem State.afterSpill_stays {kp : Bool} {s0 : State} {s : State} (c : Nat) (slot : Nat) (hst : Stays kp s0 s) :
    Stays kp s0 (State.afterSpill s c slot) := by
  unfold State.afterSpill
  try dsimp only
  repeat' first
    | with_reducible assumption
    | with_reducible apply Stays.ite
    | with_reducible apply State.makeCandidate_stays
    | split
    | (with_reducible apply Stays.mk_ <;> first | (show Stays _ _ _; skip) | simp +contextual)
    | dsimp only

theorem State.spilledOut_stays {kp : Bool} {s0 : State} {s : State} (c : Nat) (hst : Stays kp s0 s) :
    Stays kp s0 (State.spilledOut s c) := by
  unfold State.spilledOut
  try dsimp only
  repeat' first
    | with_reducible assumption
    | intro _
    | with_reducible apply State.freeSlot_stays
    | with_reducible apply State.dropInternal_stays
    | with_reducible apply State.modEntry_stays
    | with_reducible apply State.afterSpill_stays
    | (with_reducible apply Stays.mk_ <;> first | (show Stays _ _ _; skip) | simp +contextual)
    | dsimp only

theorem State.commitEvict_stays {kp : Bool} {s0 : State} {s : State} (q : Nat) (c : Nat) (j : Job) (hst : Stays kp s0 s) :
    Stays kp s0 (State.commitEvict s q c j) := by
  unfold State.commitEvict
  try dsimp only
  repeat' first
    | with_reducible assumption
    | with_reducible apply Stays.ite
    | with_reducible apply Stays.iteFst
    | with_reducible apply State.commitSpill_stays
    | with_reducible apply State.dropJob_stays
    | with_reducible apply State.spilledOut_stays
    | split
    | dsimp only

theorem State.installParked_stays {kp : Bool} {s0 : State} {s : State} (c : Nat) (hst : Stays kp s0 s) :
    Stays kp s0 (State.installParked s c) := by
  unfold State.installParked
  try dsimp only
  repeat' first
    | with_reducible assumption
    | intro _
    | with_reducible apply Stays.ite
    | with_reducible apply Stays.iteFst
    | (with_reducible apply Stays.foldl; intro _ _ _)
    | (with_reducible apply Stays.foldlFst; intro _ _ _)
    | split
    | (with_reducible apply Stays.fst; with_reducible assumption)
    | (with_reducible apply Stays.mk_ <;> first | (show Stays _ _ _; skip) | simp +contextual)
    | dsimp only

theorem State.installImage_stays {kp : Bool} {s0 : State} {s : State} (c : Nat) (h : List Byte) (words : List (Nat × Meta))
    (hst : Stays kp s0 s) :
    Stays kp s0 (State.installImage s c h words) := by
  unfold State.installImage
  try dsimp only
  repeat' first
    | with_reducible assumption
    | intro _
    | with_reducible apply Stays.ite
    | with_reducible apply Stays.iteFst
    | with_reducible apply State.modSlice_stays
    | with_reducible apply State.installParked_stays
    | with_reducible apply State.modEntry_stays
    | (with_reducible apply Stays.foldl; intro _ _ _)
    | (with_reducible apply Stays.foldlFst; intro _ _ _)
    | split
    | (with_reducible apply Stays.fst; with_reducible assumption)
    | (with_reducible apply Stays.mk_ <;> first | (show Stays _ _ _; skip) | simp +contextual)
    | dsimp only

theorem State.commitRestore_stays {kp : Bool} {s0 : State} {s : State} (q : Nat) (c : Nat) (j : Job) (hst : Stays kp s0 s) :
    Stays kp s0 (State.commitRestore s q c j) := by
  unfold State.commitRestore
  try dsimp only
  repeat' first
    | with_reducible assumption
    | intro _
    | with_reducible apply Stays.ite
    | with_reducible apply State.modEntry_stays
    | with_reducible apply State.dropJob_stays
    | with_reducible apply State.installImage_stays
    | with_reducible apply State.dropInternal_stays
    | with_reducible apply State.endClaims_stays
    | with_reducible apply State.settle_stays
    | with_reducible apply State.claimOnWork_stays
    | split
    | (with_reducible apply Stays.mk_ <;> first | (show Stays _ _ _; skip) | simp +contextual)
    | dsimp only

theorem State.yielded_stays {kp : Bool} {s0 : State} {s : State} (c : Nat) (j : Job) (hst : Stays kp s0 s) :
    Stays kp s0 (State.yielded s c j) := by
  unfold State.yielded
  try dsimp only
  repeat' first
    | with_reducible assumption
    | intro _
    | with_reducible apply Stays.ite
    | with_reducible apply State.modHeadOp_stays
    | split
    | (with_reducible apply Stays.mk_ <;> first | (show Stays _ _ _; skip) | simp +contextual)
    | dsimp only

theorem State.commitJob_stays {kp : Bool} {s0 : State} {s : State} (q : Nat) (c : Nat) (j : Job) (hst : Stays kp s0 s) :
    Stays kp s0 (State.commitJob s q c j) := by
  unfold State.commitJob
  try dsimp only
  repeat' first
    | with_reducible assumption
    | with_reducible apply Stays.ite
    | with_reducible apply State.notePlaneWriter_stays
    | with_reducible apply State.commitOp_stays
    | with_reducible apply State.dropJob_stays
    | with_reducible apply State.commitEvict_stays
    | with_reducible apply State.commitRestore_stays
    | with_reducible apply State.commitAtt_stays
    | split
    | (with_reducible apply Stays.fst; with_reducible assumption)
    | dsimp only

theorem State.afterCommit_stays {kp : Bool} {s0 : State} {s : State} (q : Nat) (hst : Stays kp s0 s) :
    Stays kp s0 (State.afterCommit s q) := by
  unfold State.afterCommit
  try dsimp only
  repeat' first
    | with_reducible assumption
    | with_reducible apply State.retryBinds_stays
    | with_reducible apply State.noteLatency_stays
    | with_reducible apply State.endClaims_stays
    | with_reducible apply State.rinseProgress_stays
    | dsimp only

theorem State.commitSegment_stays {kp : Bool} {s0 : State} {s : State} (q : Nat) (held : Nat) (j : Job) (hst : Stays kp s0 s) :
    Stays kp s0 (State.commitSegment s q held j) := by
  unfold State.commitSegment
  try dsimp only
  repeat' first
    | with_reducible assumption
    | intro _
    | with_reducible apply Stays.ite
    | with_reducible apply State.advanceTo_stays
    | with_reducible apply State.chargeSegment_stays
    | with_reducible apply State.commitJob_stays
    | with_reducible apply State.noteOverrun_stays
    | with_reducible apply State.modEntry_stays
    | with_reducible apply State.yielded_stays
    | with_reducible apply State.dropFrames_stays
    | with_reducible apply State.settle_stays
    | with_reducible apply State.takeRebind_stays
    | with_reducible apply State.afterCommit_stays
    | split
    | (with_reducible apply Stays.mk_ <;> first | (show Stays _ _ _; skip) | simp +contextual)
    | dsimp only

theorem State.commitMove_stays {kp : Bool} {s0 : State} {s : State} (q : Nat) (held : Nat) (m : MoveJob) (hst : Stays kp s0 s) :
    Stays kp s0 (State.commitMove s q held m) := by
  unfold State.commitMove
  try dsimp only
  repeat' first
    | with_reducible assumption
    | intro _
    | with_reducible apply Stays.ite
    | with_reducible apply State.advanceTo_stays
    | with_reducible apply State.cancelPark_stays
    | with_reducible apply State.commitPark_stays
    | with_reducible apply State.commitUnpark_stays
    | with_reducible apply State.commitIsmove_stays
    | with_reducible apply State.modQuarter_stays
    | with_reducible apply State.settle_stays
    | with_reducible apply State.takeRebind_stays
    | with_reducible apply State.afterCommit_stays
    | split
    | (with_reducible apply Stays.fst; with_reducible assumption)
    | (with_reducible apply Stays.mk_ <;> first | (show Stays _ _ _; skip) | simp +contextual)
    | dsimp only

theorem State.closeFrame_stays {kp : Bool} {s0 : State} {s : State} (c : Nat) (op : Op) (hst : Stays kp s0 s) :
    Stays kp s0 (State.closeFrame s c op) := by
  unfold State.closeFrame
  try dsimp only
  repeat' first
    | with_reducible assumption
    | intro _
    | with_reducible apply Stays.ite
    | with_reducible apply State.contextEvent_stays
    | with_reducible apply State.modEntry_stays
    | split
    | (with_reducible apply Stays.fst; with_reducible assumption)
    | (with_reducible apply Stays.mk_ <;> first | (show Stays _ _ _; skip) | simp +contextual)
    | dsimp only

theorem State.completeEffect_stays {kp : Bool} {s0 : State} {s : State} (c : Nat) (op : Op) (hst : Stays kp s0 s) :
    Stays kp s0 (State.completeEffect s c op) := by
  unfold State.completeEffect
  try dsimp only
  repeat' first
    | with_reducible assumption
    | intro _
    | with_reducible apply Stays.ite
    | with_reducible apply State.dropTranslations_stays
    | with_reducible apply State.closeFrame_stays
    | with_reducible apply State.openFrame_stays
    | with_reducible apply State.modEntry_stays
    | split
    | (with_reducible apply Stays.mk_ <;> first | (show Stays _ _ _; skip) | simp +contextual)
    | dsimp only

theorem State.reportDone_stays {kp : Bool} {s0 : State} {s : State} (c : Nat) (op : Op) (after : List Nat) (hst : Stays kp s0 s) :
    Stays kp s0 (State.reportDone s c op after) := by
  unfold State.reportDone
  try dsimp only
  repeat' first
    | with_reducible assumption
    | with_reducible apply Stays.ite
    | with_reducible apply State.respond_stays
    | with_reducible apply State.writeProgress_stays
    | split
    | dsimp only

theorem State.afterReports_stays {kp : Bool} {s0 : State} {s : State} (c : Nat) (op : Op) (hst : Stays kp s0 s) :
    Stays kp s0 (State.afterReports s c op) := by
  unfold State.afterReports
  try dsimp only
  repeat' first
    | with_reducible assumption
    | intro _
    | with_reducible apply Stays.ite
    | with_reducible apply State.freeSlot_stays
    | with_reducible apply State.dropInternal_stays
    | with_reducible apply State.dropEntry_stays
    | with_reducible apply State.spilledOut_stays
    | with_reducible apply State.settle_stays
    | split
    | dsimp only

end Sys2Proof.Machine
end

