-- ==== Sys2Proof/Laws/StaysMoves.lean ====
section
/-! SUPPORT. Laws/StaysMoves.lean: what each operation of Machine/Moves.lean leaves. -/
namespace Sys2Proof.Machine
set_option Elab.async false

theorem State.readRanges_stays {kp : Bool} {s0 : State} {s : State} (q : Nat) (c : Nat) (ranges : List (Nat × Nat)) (asked : Job → Bool) (ask : Job → Job) (k : State → List Piece → Prog)
    (hst : Stays kp s0 s) (hk : ∀ (s : State) (a1 : List Piece), Stays kp s0 s → Stays kp s0 (k s a1).state) :
    Stays kp s0 (State.readRanges s q c ranges asked ask k).state := by
  unfold State.readRanges
  try dsimp only
  repeat' first
    | with_reducible assumption
    | intro _
    | with_reducible apply Stays.ite
    | with_reducible apply Stays.progIte
    | with_reducible apply Stays.go
    | with_reducible apply Stays.stop
    | with_reducible apply hk
    | with_reducible apply State.needPages_stays
    | with_reducible apply State.classify_stays
    | with_reducible apply State.postReads_stays
    | with_reducible apply State.modJob_stays
    | (with_reducible apply Stays.andThen; rotate_left; intro _ _; rotate_left)
    | split
    | (with_reducible apply Stays.fst; with_reducible assumption)
    | dsimp only

theorem State.withMap_stays {kp : Bool} {s0 : State} {s : State} (q : Nat) (c : Nat) (v : View) (tiles : List (Nat × Nat)) (all : List (Nat × Nat)) (k : State → (Nat → Nat → Bool) → Prog)
    (hst : Stays kp s0 s) (hk : ∀ (s : State) (a1 : (Nat → Nat → Bool)), Stays kp s0 s → Stays kp s0 (k s a1).state) :
    Stays kp s0 (State.withMap s q c v tiles all k).state := by
  unfold State.withMap
  try dsimp only
  repeat' first
    | with_reducible assumption
    | intro _
    | with_reducible apply Stays.ite
    | with_reducible apply Stays.progIte
    | with_reducible apply Stays.iteFst
    | with_reducible apply Stays.go
    | with_reducible apply Stays.stop
    | with_reducible apply hk
    | with_reducible apply State.readRanges_stays
    | with_reducible apply State.routineFault_stays
    | with_reducible apply State.modHeadOp_stays
    | with_reducible apply State.dropGot_stays
    | split
    | (with_reducible apply Stays.fst; with_reducible assumption)
    | (with_reducible apply Stays.mk_ <;> first | (show Stays _ _ _; skip) | simp +contextual)
    | dsimp only

theorem State.withData_stays {kp : Bool} {s0 : State} {s : State} (q : Nat) (c : Nat) (ranges : List (Nat × Nat)) (k : State → List Piece → Prog)
    (hst : Stays kp s0 s) (hk : ∀ (s : State) (a1 : List Piece), Stays kp s0 s → Stays kp s0 (k s a1).state) :
    Stays kp s0 (State.withData s q c ranges k).state := by
  unfold State.withData
  try dsimp only
  repeat' first
    | with_reducible assumption
    | intro _
    | with_reducible apply Stays.go
    | with_reducible apply Stays.stop
    | with_reducible apply hk
    | with_reducible apply State.readRanges_stays
    | with_reducible apply State.modJob_stays
    | (with_reducible apply Stays.mk_ <;> first | (show Stays _ _ _; skip) | simp +contextual)
    | dsimp only

theorem State.stageTiles_stays {kp : Bool} {s0 : State} {s : State} (q : Nat) (c : Nat) (values : List (Nat × Tile)) (others : List StagedTile)
    (hst : Stays kp s0 s) :
    Stays kp s0 (State.stageTiles s q c values others) := by
  unfold State.stageTiles
  try dsimp only
  repeat' first
    | with_reducible assumption
    | intro _
    | with_reducible apply State.fillStaged_stays
    | with_reducible apply State.toCommit_stays
    | (with_reducible apply Stays.foldl; intro _ _ _)
    | (with_reducible apply Stays.foldlFst; intro _ _ _)
    | (with_reducible apply Stays.mk_ <;> first | (show Stays _ _ _; skip) | simp +contextual)
    | dsimp only

theorem State.postWrites_stays {kp : Bool} {s0 : State} {s : State} (q : Nat) (c : Nat) (op : Op) (ws : List (Nat × List Byte))
    (hst : Stays kp s0 s) :
    Stays kp s0 (State.postWrites s q c op ws) := by
  unfold State.postWrites
  try dsimp only
  repeat' first
    | with_reducible assumption
    | intro _
    | with_reducible apply State.post_stays
    | (with_reducible apply Stays.foldl; intro _ _ _)
    | (with_reducible apply Stays.foldlFst; intro _ _ _)
    | dsimp only

theorem State.sttIssue_stays {kp : Bool} {s0 : State} {s : State} (q : Nat) (c : Nat) (found : List Found) (op : Op) (upTo : Nat)
    (hst : Stays kp s0 s) :
    Stays kp s0 (State.sttIssue s q c found op upTo) := by
  unfold State.sttIssue
  try dsimp only
  repeat' first
    | with_reducible assumption
    | intro _
    | with_reducible apply Stays.ite
    | with_reducible apply Stays.iteFst
    | with_reducible apply State.postWrites_stays
    | with_reducible apply State.modJob_stays
    | (with_reducible apply Stays.foldl; intro _ _ _)
    | (with_reducible apply Stays.foldlFst; intro _ _ _)
    | split
    | (with_reducible apply Stays.mk_ <;> first | (show Stays _ _ _; skip) | simp +contextual)
    | dsimp only

end Sys2Proof.Machine
end

