-- ==== Sys2Proof/Laws/StaysCompute.lean ====
section
/-! SUPPORT. Laws/StaysCompute.lean: what each operation of Machine/Compute.lean leaves. -/
namespace Sys2Proof.Machine
set_option Elab.async false

theorem State.pegFetch_stays {kp : Bool} {s0 : State} {s : State} (q : Nat) (c : Nat) (found : List Found) (i : Nat) (n : Nat)
    (hst : Stays kp s0 s) :
    Stays kp s0 (State.pegFetch s q c found i n).1 := by
  unfold State.pegFetch
  try dsimp only
  repeat' first
    | with_reducible assumption
    | intro _
    | with_reducible apply Stays.ite
    | with_reducible apply Stays.iteFst
    | with_reducible apply State.modQuarter_stays
    | split
    | (with_reducible apply Stays.fst; with_reducible assumption)
    | dsimp only

theorem State.streamFetch_stays {kp : Bool} {s0 : State} {s : State} (q : Nat) (i : Nat) (slice : Nat) (line : Nat) (hst : Stays kp s0 s) :
    Stays kp s0 (State.streamFetch s q i slice line).1 := by
  unfold State.streamFetch
  try dsimp only
  repeat' first
    | with_reducible assumption
    | intro _
    | with_reducible apply State.modQuarter_stays
    | (with_reducible apply Stays.fst; with_reducible assumption)
    | (with_reducible apply Stays.mk_ <;> first | (show Stays _ _ _; skip) | simp +contextual)
    | dsimp only

theorem State.bFetch_stays {kp : Bool} {s0 : State} {s : State} (q : Nat) (c : Nat) (found : List Found) (n : Nat) (x0 : BSource)
    (hst : Stays kp s0 s) :
    Stays kp s0 (State.bFetch s q c found n x0).1 := by
  unfold State.bFetch
  try dsimp only
  repeat' first
    | with_reducible assumption
    | with_reducible apply State.pegFetch_stays
    | with_reducible apply State.streamFetch_stays
    | split
    | (with_reducible apply Stays.fst; with_reducible assumption)
    | dsimp only

theorem State.postStep_stays {kp : Bool} {s0 : State} {s : State} (q : Nat) (c : Nat) (pkt : List Byte) (b : Nat → Nat → BSource) (o : Nat)
    (hst : Stays kp s0 s) :
    Stays kp s0 (State.postStep s q c pkt b o) := by
  unfold State.postStep
  try dsimp only
  repeat' first
    | with_reducible assumption
    | intro _
    | with_reducible apply State.postLines_stays
    | with_reducible apply State.modJob_stays
    | (with_reducible apply Stays.mk_ <;> first | (show Stays _ _ _; skip) | simp +contextual)
    | dsimp only

theorem State.fetchStep_stays {kp : Bool} {s0 : State} {s : State} (q : Nat) (c : Nat) (found : List Found) (pkt : List Byte) (b : Nat → Nat → BSource) (o : Nat)
    (hst : Stays kp s0 s) :
    Stays kp s0 (State.fetchStep s q c found pkt b o).1 := by
  unfold State.fetchStep
  try dsimp only
  repeat' first
    | with_reducible assumption
    | intro _
    | with_reducible apply State.pegFetch_stays
    | with_reducible apply State.bFetch_stays
    | (with_reducible apply Stays.foldl; intro _ _ _)
    | (with_reducible apply Stays.foldlFst; intro _ _ _)
    | (with_reducible apply Stays.fst; with_reducible assumption)
    | dsimp only

theorem State.sumStep_stays {kp : Bool} {s0 : State} {s : State} (q : Nat) (c : Nat) (g : Geom) (hst : Stays kp s0 s) :
    Stays kp s0 (State.sumStep s q c g) := by
  unfold State.sumStep
  try dsimp only
  repeat' first
    | with_reducible assumption
    | intro _
    | with_reducible apply Stays.ite
    | with_reducible apply Stays.iteFst
    | with_reducible apply State.modPlane_stays
    | with_reducible apply State.modJob_stays
    | split
    | (with_reducible apply Stays.mk_ <;> first | (show Stays _ _ _; skip) | simp +contextual)
    | dsimp only

theorem State.runSteps_stays {kp : Bool} {s0 : State} {s : State} (q : Nat) (c : Nat) (found : List Found) (pkt : List Byte) (b : Nat → Nat → BSource)
    (hst : Stays kp s0 s) :
    Stays kp s0 (State.runSteps s q c found pkt b).state := by
  unfold State.runSteps
  try dsimp only
  repeat' first
    | with_reducible assumption
    | intro _
    | with_reducible apply Stays.ite
    | with_reducible apply Stays.progIte
    | with_reducible apply Stays.iteFst
    | with_reducible apply Stays.go
    | with_reducible apply Stays.stop
    | with_reducible apply State.sumStep_stays
    | with_reducible apply State.toCommit_stays
    | with_reducible apply State.postStep_stays
    | with_reducible apply State.fetchStep_stays
    | with_reducible apply State.modJob_stays
    | (with_reducible apply Stays.andThen; rotate_left; intro _ _; rotate_left)
    | with_reducible apply Stays.until
    | split
    | (with_reducible apply Stays.fst; with_reducible assumption)
    | (with_reducible apply Stays.mk_ <;> first | (show Stays _ _ _; skip) | simp +contextual)
    | dsimp only

theorem State.chooseSteps_stays {kp : Bool} {s0 : State} {s : State} (q : Nat) (c : Nat) (j : Job) (pkt : List Byte) (b : Nat → Nat → BSource)
    (hst : Stays kp s0 s) :
    Stays kp s0 (State.chooseSteps s q c j pkt b) := by
  unfold State.chooseSteps
  try dsimp only
  repeat' first
    | with_reducible assumption
    | intro _
    | with_reducible apply Stays.ite
    | with_reducible apply State.modJob_stays
    | split
    | (with_reducible apply Stays.mk_ <;> first | (show Stays _ _ _; skip) | simp +contextual)
    | dsimp only

theorem State.stageStreams_stays {kp : Bool} {s0 : State} {s : State} (q : Nat) (c : Nat) (pcol : Nat) (tiles : List (Nat × Nat))
    (hst : Stays kp s0 s) :
    Stays kp s0 (State.stageStreams s q c pcol tiles).state := by
  unfold State.stageStreams
  try dsimp only
  repeat' first
    | with_reducible assumption
    | intro _
    | with_reducible apply Stays.go
    | with_reducible apply Stays.stop
    | with_reducible apply State.takeLine_stays
    | with_reducible apply Stays.until
    | (with_reducible apply Stays.foldl; intro _ _ _)
    | (with_reducible apply Stays.foldlFst; intro _ _ _)
    | dsimp only

theorem State.fillStream_stays {kp : Bool} {s0 : State} {s : State} (c : Nat) (pcol : Nat) (t : Nat × Nat) (rows : Tile)
    (hst : Stays kp s0 s) :
    Stays kp s0 (State.fillStream s c pcol t rows) := by
  unfold State.fillStream
  try dsimp only
  repeat' first
    | with_reducible assumption
    | intro _
    | with_reducible apply State.modSlice_stays
    | split
    | (with_reducible apply Stays.fst; with_reducible assumption)
    | dsimp only

theorem State.loadStreams_stays {kp : Bool} {s0 : State} {s : State} (q : Nat) (c : Nat) (j : Job) (pkt : List Byte) (k : State → Prog)
    (hst : Stays kp s0 s) (hk : ∀ (s : State), Stays kp s0 s → Stays kp s0 (k s).state) :
    Stays kp s0 (State.loadStreams s q c j pkt k).state := by
  unfold State.loadStreams
  try dsimp only
  repeat' first
    | with_reducible assumption
    | intro _
    | with_reducible apply Stays.ite
    | with_reducible apply Stays.progIte
    | with_reducible apply Stays.iteFst
    | with_reducible apply Stays.go
    | with_reducible apply Stays.stop
    | with_reducible apply hk
    | with_reducible apply State.withMap_stays
    | with_reducible apply State.withData_stays
    | with_reducible apply State.stageStreams_stays
    | with_reducible apply State.postOnce_stays
    | with_reducible apply State.postLines_stays
    | with_reducible apply State.fillStream_stays
    | with_reducible apply State.dropGot_stays
    | with_reducible apply State.modEntry_stays
    | (with_reducible apply Stays.andThen; rotate_left; intro _ _; rotate_left)
    | with_reducible apply Stays.until
    | (with_reducible apply Stays.foldl; intro _ _ _)
    | (with_reducible apply Stays.foldlFst; intro _ _ _)
    | split
    | (with_reducible apply Stays.mk_ <;> first | (show Stays _ _ _; skip) | simp +contextual)
    | dsimp only

theorem State.stageAhead_stays {kp : Bool} {s0 : State} {s : State} (q : Nat) (c : Nat) (op : Op) (hst : Stays kp s0 s) :
    Stays kp s0 (State.stageAhead s q c op) := by
  unfold State.stageAhead
  try dsimp only
  repeat' first
    | with_reducible assumption
    | intro _
    | with_reducible apply Stays.ite
    | with_reducible apply Stays.iteFst
    | with_reducible apply State.modJob_stays
    | with_reducible apply State.postReads_stays
    | with_reducible apply State.modEntry_stays
    | with_reducible apply State.stageStreams_stays
    | with_reducible apply State.postFor_stays
    | (with_reducible apply Stays.andThen; rotate_left; intro _ _; rotate_left)
    | with_reducible apply Stays.stop
    | with_reducible apply Stays.go
    | intro _
    | split
    | (with_reducible apply Stays.fst; with_reducible assumption)
    | dsimp only

end Sys2Proof.Machine
end

