-- ==== Sys2Proof/Laws/StaysDeadline.lean ====
section
/-! SUPPORT. Laws/StaysDeadline.lean: what each operation of Machine/Deadline.lean leaves. -/
namespace Sys2Proof.Machine
set_option Elab.async false

theorem State.nextPeriod_stays {kp : Bool} {s0 : State} {s : State} (hst : Stays kp s0 s) :
    Stays kp s0 (State.nextPeriod s) := by
  unfold State.nextPeriod
  try dsimp only
  repeat' first
    | with_reducible assumption
    | with_reducible apply Stays.ite
    | with_reducible apply State.advanceTo_stays
    | split
    | (with_reducible apply Stays.mk_ <;> first | (show Stays _ _ _; skip) | simp +contextual)
    | dsimp only

theorem State.takeRate_stays {kp : Bool} {s0 : State} {s : State} (hst : Stays kp s0 s) :
    Stays kp s0 (State.takeRate s) := by
  unfold State.takeRate
  try dsimp only
  repeat' first
    | with_reducible assumption
    | with_reducible apply Stays.ite
    | split
    | (with_reducible apply Stays.fst; with_reducible assumption)
    | (with_reducible apply Stays.mk_ <;> first | (show Stays _ _ _; skip) | simp +contextual)
    | dsimp only

theorem State.overcommitStep_stays {kp : Bool} {s0 : State} {s : State} (q : Nat) (hst : Stays kp s0 s) :
    Stays kp s0 (State.overcommitStep s q) := by
  unfold State.overcommitStep
  try dsimp only
  repeat' first
    | with_reducible assumption
    | intro _
    | with_reducible apply Stays.ite
    | with_reducible apply State.modQuarter_stays
    | with_reducible apply State.suspend_stays
    | split
    | (with_reducible apply Stays.mk_ <;> first | (show Stays _ _ _; skip) | simp +contextual)
    | dsimp only

theorem State.periodSuspensions_stays {kp : Bool} {s0 : State} {s : State} (q : Nat) (hst : Stays kp s0 s) :
    Stays kp s0 (State.periodSuspensions s q) := by
  unfold State.periodSuspensions
  try dsimp only
  repeat' first
    | with_reducible assumption
    | with_reducible apply Stays.ite
    | with_reducible apply State.suspend_stays
    | with_reducible apply State.overcommitStep_stays
    | split
    | dsimp only

theorem State.claimMissed_stays {kp : Bool} {s0 : State} {s : State} (c : Nat) (f : Frame) (hst : Stays kp s0 s) :
    Stays kp s0 (State.claimMissed s c f) := by
  unfold State.claimMissed
  try dsimp only
  repeat' first
    | with_reducible assumption
    | with_reducible apply Stays.ite
    | with_reducible apply State.preemptJob_stays
    | split
    | (with_reducible apply Stays.fst; with_reducible assumption)
    | dsimp only

theorem State.deadlinePasses_stays {kp : Bool} {s0 : State} {s : State} (c : Nat) (f : Frame) (hst : Stays kp s0 s) :
    Stays kp s0 (State.deadlinePasses s c f) := by
  unfold State.deadlinePasses
  try dsimp only
  repeat' first
    | with_reducible assumption
    | intro _
    | with_reducible apply Stays.ite
    | with_reducible apply State.advanceTo_stays
    | with_reducible apply State.modEntry_stays
    | with_reducible apply State.missFrame_stays
    | with_reducible apply State.claimMissed_stays
    | with_reducible apply State.dropFrames_stays
    | with_reducible apply State.settle_stays
    | with_reducible apply State.endClaims_stays
    | split
    | (with_reducible apply Stays.mk_ <;> first | (show Stays _ _ _; skip) | simp +contextual)
    | dsimp only

end Sys2Proof.Machine
end

