-- ==== Sys2Proof/Laws/StaysFabric.lean ====
section
/-! SUPPORT. Laws/StaysFabric.lean: what each operation of Machine/Fabric.lean leaves. -/
namespace Sys2Proof.Machine
set_option Elab.async false

theorem State.countEcc_stays {kp : Bool} {s0 : State} {s : State} (stack : Nat) (ce : Nat) (ue : Nat) (fs : List HbmFound)
    (hst : Stays kp s0 s) :
    Stays kp s0 (State.countEcc s stack ce ue fs) := by
  unfold State.countEcc
  try dsimp only
  repeat' first
    | with_reducible assumption
    | with_reducible apply State.bump_stays
    | dsimp only

theorem State.cureWords_stays {kp : Bool} {s0 : State} {s : State} (ws : List Nat) (hst : Stays kp s0 s) :
    Stays kp s0 (State.cureWords s ws) := by
  unfold State.cureWords
  try dsimp only
  repeat' first
    | with_reducible assumption
    | intro _
    | with_reducible apply Stays.ite
    | with_reducible apply State.modFabric_stays
    | split
    | (with_reducible apply Stays.mk_ <;> first | (show Stays _ _ _; skip) | simp +contextual)
    | dsimp only

theorem State.takeEntry_stays {kp : Bool} {s0 : State} {s : State} (t : Txn) (got : List Byte) (bad : List Nat) (st : Nat)
    (hst : Stays kp s0 s) :
    Stays kp s0 (State.takeEntry s t got bad st) := by
  unfold State.takeEntry
  try dsimp only
  repeat' first
    | with_reducible assumption
    | intro _
    | with_reducible apply Stays.ite
    | with_reducible apply State.modFabric_stays
    | split
    | (with_reducible apply Stays.mk_ <;> first | (show Stays _ _ _; skip) | simp +contextual)
    | dsimp only

theorem State.admitRead_stays {kp : Bool} {s0 : State} {s : State} (t : Txn) (hst : Stays kp s0 s) :
    Stays kp s0 (State.admitRead s t) := by
  unfold State.admitRead
  try dsimp only
  repeat' first
    | with_reducible assumption
    | intro _
    | with_reducible apply State.takeEntry_stays
    | dsimp only

theorem State.admitWrite_stays {kp : Bool} {s0 : State} {s : State} (t : Txn) (fs : List HbmFound) (hst : Stays kp s0 s) :
    Stays kp s0 (State.admitWrite s t fs) := by
  unfold State.admitWrite
  try dsimp only
  repeat' first
    | with_reducible assumption
    | with_reducible apply State.countEcc_stays
    | with_reducible apply State.bump_stays
    | with_reducible apply State.cureWords_stays
    | with_reducible apply State.endTxn_stays
    | (with_reducible apply Stays.mk_ <;> first | (show Stays _ _ _; skip) | simp +contextual)
    | dsimp only

theorem State.admitAtomic_stays {kp : Bool} {s0 : State} {s : State} (t : Txn) (fs : List HbmFound) (hst : Stays kp s0 s) :
    Stays kp s0 (State.admitAtomic s t fs) := by
  unfold State.admitAtomic
  try dsimp only
  repeat' first
    | with_reducible assumption
    | with_reducible apply Stays.ite
    | with_reducible apply Stays.iteFst
    | with_reducible apply State.countEcc_stays
    | with_reducible apply State.cureWords_stays
    | with_reducible apply State.takeEntry_stays
    | split
    | (with_reducible apply Stays.fst; with_reducible assumption)
    | (with_reducible apply Stays.mk_ <;> first | (show Stays _ _ _; skip) | simp +contextual)
    | dsimp only

theorem State.grantHbm_stays {kp : Bool} {s0 : State} {s : State} (t : Txn) (fs : List HbmFound) (hst : Stays kp s0 s) :
    Stays kp s0 (State.grantHbm s t fs) := by
  unfold State.grantHbm
  try dsimp only
  repeat' first
    | with_reducible assumption
    | with_reducible apply State.chargeFixed_stays
    | with_reducible apply State.admitRead_stays
    | with_reducible apply State.admitWrite_stays
    | with_reducible apply State.admitAtomic_stays
    | split
    | (with_reducible apply Stays.fst; with_reducible assumption)
    | dsimp only

theorem State.grantSlow_stays {kp : Bool} {s0 : State} {s : State} (t : Txn) (hst : Stays kp s0 s) :
    Stays kp s0 (State.grantSlow s t) := by
  unfold State.grantSlow
  try dsimp only
  repeat' first
    | with_reducible assumption
    | with_reducible apply State.advanceTo_stays
    | with_reducible apply State.endTxn_stays
    | dsimp only

theorem State.grant_stays {kp : Bool} {s0 : State} {s : State} (t0 : Txn) (fs : List HbmFound) (hst : Stays kp s0 s) :
    Stays kp s0 (State.grant s t0 fs) := by
  unfold State.grant
  try dsimp only
  repeat' first
    | with_reducible assumption
    | with_reducible apply Stays.ite
    | with_reducible apply State.chargeCore_stays
    | with_reducible apply State.grantHbm_stays
    | with_reducible apply State.grantSlow_stays
    | with_reducible apply State.grantOut_stays
    | split
    | dsimp only

theorem State.targetRound_stays {kp : Bool} {s0 : State} {s : State} (target : Nat) (errs : List (Nat × HbmFound)) (hst : Stays kp s0 s) :
    Stays kp s0 (State.targetRound s target errs) := by
  unfold State.targetRound
  try dsimp only
  repeat' first
    | with_reducible assumption
    | intro _
    | with_reducible apply Stays.ite
    | with_reducible apply Stays.iteFst
    | with_reducible apply State.modFabric_stays
    | with_reducible apply State.grant_stays
    | (with_reducible apply Stays.foldl; intro _ _ _)
    | (with_reducible apply Stays.foldlFst; intro _ _ _)
    | split
    | (with_reducible apply Stays.fst; with_reducible assumption)
    | (with_reducible apply Stays.mk_ <;> first | (show Stays _ _ _; skip) | simp +contextual)
    | dsimp only

theorem State.servePiece_stays {kp : Bool} {s0 : State} {s : State} (p : DramPiece) (older : List DramPiece) (hst : Stays kp s0 s) :
    Stays kp s0 (State.servePiece s p older) := by
  unfold State.servePiece
  try dsimp only
  repeat' first
    | with_reducible assumption
    | with_reducible apply State.advanceTo_stays
    | (with_reducible apply Stays.mk_ <;> first | (show Stays _ _ _; skip) | simp +contextual)
    | dsimp only

theorem State.serveChannel_stays {kp : Bool} {s0 : State} (x0 : Nat) {s : State} (x2 : Nat) (x3 : Nat) (hst : Stays kp s0 s) :
    Stays kp s0 (State.serveChannel x0 s x2 x3) := by
  induction x0 generalizing s with
  | zero => exact hst
  | succ n ih =>
    unfold State.serveChannel
    split
    · exact hst
    · exact ih (State.servePiece_stays _ _ hst)


theorem State.serveTxn_stays {kp : Bool} {s0 : State} {s : State} (txn : Nat) (hst : Stays kp s0 s) :
    Stays kp s0 (State.serveTxn s txn) := by
  unfold State.serveTxn
  try dsimp only
  repeat' first
    | with_reducible assumption
    | intro _
    | with_reducible apply State.serveChannel_stays
    | (with_reducible apply Stays.foldl; intro _ _ _)
    | (with_reducible apply Stays.foldlFst; intro _ _ _)
    | dsimp only

theorem State.drainWrite_stays {kp : Bool} {s0 : State} {s : State} (p : DramPiece) (hst : Stays kp s0 s) :
    Stays kp s0 (State.drainWrite s p) := by
  unfold State.drainWrite
  try dsimp only
  repeat' first
    | with_reducible assumption
    | intro _
    | with_reducible apply Stays.ite
    | with_reducible apply State.servePiece_stays
    | split
    | (with_reducible apply Stays.mk_ <;> first | (show Stays _ _ _; skip) | simp +contextual)
    | dsimp only

theorem State.drainWrites_stays {kp : Bool} {s0 : State} {s : State} (stack : Nat) (hst : Stays kp s0 s) :
    Stays kp s0 (State.drainWrites s stack) := by
  unfold State.drainWrites
  try dsimp only
  repeat' first
    | with_reducible assumption
    | intro _
    | with_reducible apply State.drainWrite_stays
    | (with_reducible apply Stays.foldl; intro _ _ _)
    | (with_reducible apply Stays.foldlFst; intro _ _ _)
    | dsimp only

theorem State.returnBurst_stays {kp : Bool} {s0 : State} {s : State} (t : Txn) (fs : List HbmFound) (hst : Stays kp s0 s) :
    Stays kp s0 (State.returnBurst s t fs) := by
  unfold State.returnBurst
  try dsimp only
  repeat' first
    | with_reducible assumption
    | intro _
    | with_reducible apply Stays.ite
    | with_reducible apply State.countEcc_stays
    | with_reducible apply State.bump_stays
    | with_reducible apply State.endTxn_stays
    | split
    | (with_reducible apply Stays.fst; with_reducible assumption)
    | (with_reducible apply Stays.mk_ <;> first | (show Stays _ _ _; skip) | simp +contextual)
    | dsimp only

theorem State.modStack_stays {kp : Bool} {s0 : State} {s : State} (k : Nat) (f : Stack → Stack) (hst : Stays kp s0 s) :
    Stays kp s0 (State.modStack s k f) := by
  unfold State.modStack
  try dsimp only
  repeat' first
    | with_reducible assumption
    | (with_reducible apply Stays.mk_ <;> first | (show Stays _ _ _; skip) | simp +contextual)
    | dsimp only

theorem State.clearChannel_stays {kp : Bool} {s0 : State} {s : State} (pc : Nat) (hst : Stays kp s0 s) :
    Stays kp s0 (State.clearChannel s pc) := by
  unfold State.clearChannel
  try dsimp only
  repeat' first
    | with_reducible assumption
    | intro _
    | with_reducible apply State.servePiece_stays
    | (with_reducible apply Stays.foldl; intro _ _ _)
    | (with_reducible apply Stays.foldlFst; intro _ _ _)
    | dsimp only

end Sys2Proof.Machine
end

