-- ==== Sys2Proof/Laws/StaysFabricPort.lean ====
section
/-! SUPPORT. Laws/StaysFabricPort.lean: what each operation of Machine/FabricPort.lean leaves. -/
namespace Sys2Proof.Machine
set_option Elab.async false

theorem State.advancePort_stays {kp : Bool} {s0 : State} {s : State} (n : Nat) (st : PortState) (hst : Stays kp s0 s) :
    Stays kp s0 (State.advancePort s n st) := by
  unfold State.advancePort
  try dsimp only
  repeat' first
    | with_reducible assumption
    | intro _
    | with_reducible apply Stays.ite
    | with_reducible apply State.modFport_stays
    | with_reducible apply State.setPortState_stays
    | split
    | (with_reducible apply Stays.mk_ <;> first | (show Stays _ _ _; skip) | simp +contextual)
    | dsimp only

theorem State.discardUnacked_stays {kp : Bool} {s0 : State} {s : State} (n : Nat) (hst : Stays kp s0 s) :
    Stays kp s0 (State.discardUnacked s n) := by
  unfold State.discardUnacked
  try dsimp only
  repeat' first
    | with_reducible assumption
    | intro _
    | with_reducible apply State.modFport_stays
    | with_reducible apply State.discardPacket_stays
    | (with_reducible apply Stays.foldl; intro _ _ _)
    | (with_reducible apply Stays.foldlFst; intro _ _ _)
    | (with_reducible apply Stays.mk_ <;> first | (show Stays _ _ _; skip) | simp +contextual)
    | dsimp only

theorem State.portDown_stays {kp : Bool} {s0 : State} {s : State} (n : Nat) (hst : Stays kp s0 s) :
    Stays kp s0 (State.portDown s n) := by
  unfold State.portDown
  try dsimp only
  repeat' first
    | with_reducible assumption
    | intro _
    | with_reducible apply State.modFport_stays
    | with_reducible apply State.setPortState_stays
    | with_reducible apply State.discardUnacked_stays
    | (with_reducible apply Stays.mk_ <;> first | (show Stays _ _ _; skip) | simp +contextual)
    | dsimp only

theorem State.portAttemptFailed_stays {kp : Bool} {s0 : State} {s : State} (n : Nat) (hst : Stays kp s0 s) :
    Stays kp s0 (State.portAttemptFailed s n) := by
  unfold State.portAttemptFailed
  try dsimp only
  repeat' first
    | with_reducible assumption
    | intro _
    | with_reducible apply Stays.ite
    | with_reducible apply Stays.iteFst
    | with_reducible apply State.modFport_stays
    | with_reducible apply State.setPortState_stays
    | with_reducible apply State.discardUnacked_stays
    | with_reducible apply State.bump_stays
    | with_reducible apply State.beginTrain_stays
    | split
    | (with_reducible apply Stays.mk_ <;> first | (show Stays _ _ _; skip) | simp +contextual)
    | dsimp only

theorem State.widthSwitched_stays {kp : Bool} {s0 : State} {s : State} (n : Nat) (hst : Stays kp s0 s) :
    Stays kp s0 (State.widthSwitched s n) := by
  unfold State.widthSwitched
  try dsimp only
  repeat' first
    | with_reducible assumption
    | intro _
    | with_reducible apply State.modFport_stays
    | with_reducible apply State.setPortState_stays
    | with_reducible apply State.fpEvent_stays
    | (with_reducible apply Stays.mk_ <;> first | (show Stays _ _ _; skip) | simp +contextual)
    | dsimp only

theorem State.askWidth_stays {kp : Bool} {s0 : State} {s : State} (n : Nat) (hst : Stays kp s0 s) :
    Stays kp s0 (State.askWidth s n) := by
  unfold State.askWidth
  try dsimp only
  repeat' first
    | with_reducible assumption
    | intro _
    | with_reducible apply State.enterRetrain_stays
    | with_reducible apply State.modFport_stays
    | split
    | (with_reducible apply Stays.fst; with_reducible assumption)
    | (with_reducible apply Stays.mk_ <;> first | (show Stays _ _ _; skip) | simp +contextual)
    | dsimp only

theorem State.receiveWidth_stays {kp : Bool} {s0 : State} {s : State} (n : Nat) (ack : Bool) (flit : List Byte) (hst : Stays kp s0 s) :
    Stays kp s0 (State.receiveWidth s n ack flit) := by
  unfold State.receiveWidth
  try dsimp only
  repeat' first
    | with_reducible assumption
    | intro _
    | with_reducible apply Stays.ite
    | with_reducible apply Stays.iteFst
    | with_reducible apply State.violate_stays
    | with_reducible apply State.enterRetrain_stays
    | with_reducible apply State.modFport_stays
    | split
    | (with_reducible apply Stays.fst; with_reducible assumption)
    | (with_reducible apply Stays.mk_ <;> first | (show Stays _ _ _; skip) | simp +contextual)
    | dsimp only

end Sys2Proof.Machine
end

