-- ==== Sys2Proof/Laws/StaysHostLink.lean ====
section
/-! SUPPORT. Laws/StaysHostLink.lean: what each operation of Machine/HostLink.lean leaves. -/
namespace Sys2Proof.Machine
set_option Elab.async false

theorem State.takeHeader_inl {kp : Bool} {s0 s t : State} {link : Nat} {flit : List Byte} (e : s.takeHeader link flit = .inl t)
    (hst : Stays kp s0 s) : Stays kp s0 t := by
  unfold State.takeHeader at e
  dsimp only at e
  split at e
  · cases e
    exact State.enterRetrain_stays _ (State.violate_stays _ _ _ _ hst)
  · split at e
    · cases e
      exact State.enterRetrain_stays _ (State.violate_stays _ _ _ _ hst)
    · cases e

theorem State.takeHeader_inr {kp : Bool} {s0 s t : State} {link : Nat} {flit : List Byte} (e : s.takeHeader link flit = .inr t)
    (hst : Stays kp s0 s) : Stays kp s0 t := by
  unfold State.takeHeader at e
  dsimp only at e
  split at e
  · cases e
  · split at e
    · cases e
    · cases e
      exact State.modLykel_stays _ _ hst

theorem State.becomeActive_stays {kp : Bool} {s0 : State} {s : State} (link : Nat) (hst : Stays kp s0 s) :
    Stays kp s0 (State.becomeActive s link) := by
  unfold State.becomeActive
  try dsimp only
  repeat' first
    | with_reducible assumption
    | intro _
    | with_reducible apply Stays.ite
    | with_reducible apply State.modHost_stays
    | with_reducible apply State.hostLinkSettled_stays
    | with_reducible apply State.modFport_stays
    | with_reducible apply State.setPortState_stays
    | split
    | (with_reducible apply Stays.mk_ <;> first | (show Stays _ _ _; skip) | simp +contextual)
    | dsimp only

theorem State.hostAttemptFailed_stays {kp : Bool} {s0 : State} {s : State} (hst : Stays kp s0 s) :
    Stays kp s0 (State.hostAttemptFailed s) := by
  unfold State.hostAttemptFailed
  try dsimp only
  repeat' first
    | with_reducible assumption
    | intro _
    | with_reducible apply Stays.ite
    | with_reducible apply Stays.iteFst
    | with_reducible apply State.modHost_stays
    | with_reducible apply State.hlinkEvent_stays
    | with_reducible apply State.finishOut_stays
    | with_reducible apply State.hostLinkSettled_stays
    | with_reducible apply State.bump_stays
    | (with_reducible apply Stays.foldl; intro _ _ _)
    | (with_reducible apply Stays.foldlFst; intro _ _ _)
    | split
    | (with_reducible apply Stays.mk_ <;> first | (show Stays _ _ _; skip) | simp +contextual)
    | dsimp only

theorem State.chargeFlit_stays {kp : Bool} {s0 : State} {s : State} (link : Nat) (hst : Stays kp s0 s) :
    Stays kp s0 (State.chargeFlit s link) := by
  unfold State.chargeFlit
  try dsimp only
  repeat' first
    | with_reducible assumption
    | with_reducible apply Stays.ite
    | with_reducible apply State.chargeFixed_stays
    | split
    | dsimp only

theorem State.portFlit_stays {kp : Bool} {s0 : State} {s : State} (n : Nat) (flit : List Byte) (hst : Stays kp s0 s) :
    Stays kp s0 (State.portFlit s n flit) := by
  unfold State.portFlit
  try dsimp only
  repeat' first
    | with_reducible assumption
    | intro _
    | with_reducible apply Stays.ite
    | with_reducible apply State.modFport_stays
    | with_reducible apply State.widthSwitched_stays
    | split
    | (with_reducible apply Stays.mk_ <;> first | (show Stays _ _ _; skip) | simp +contextual)
    | dsimp only

theorem State.placeFlit_stays {kp : Bool} {s0 : State} {s : State} (link : Nat) (fseq : Option Nat) (flit : List Byte)
    (hst : Stays kp s0 s) :
    Stays kp s0 (State.placeFlit s link fseq flit) := by
  unfold State.placeFlit
  try dsimp only
  repeat' first
    | with_reducible assumption
    | intro _
    | with_reducible apply Stays.ite
    | with_reducible apply State.chargeFlit_stays
    | with_reducible apply State.modLykel_stays
    | with_reducible apply State.modHost_stays
    | with_reducible apply State.portFlit_stays
    | split
    | (with_reducible apply Stays.mk_ <;> first | (show Stays _ _ _; skip) | simp +contextual)
    | dsimp only

theorem State.sendHandshake_stays {kp : Bool} {s0 : State} {s0 : State} (link : Nat) (hst : Stays kp s0 s0) :
    Stays kp s0 (State.sendHandshake s0 link) := by
  unfold State.sendHandshake
  try dsimp only
  repeat' first
    | with_reducible assumption
    | intro _
    | with_reducible apply Stays.ite
    | with_reducible apply State.modLykel_stays
    | with_reducible apply State.chargeFlit_stays
    | with_reducible apply State.modHost_stays
    | with_reducible apply State.portFlit_stays
    | split
    | (with_reducible apply Stays.mk_ <;> first | (show Stays _ _ _; skip) | simp +contextual)
    | dsimp only

theorem State.noteSent_stays {kp : Bool} {s0 : State} {s : State} (link : Nat) (ps : List OutPacket) (hst : Stays kp s0 s) :
    Stays kp s0 (State.noteSent s link ps) := by
  unfold State.noteSent
  try dsimp only
  repeat' first
    | with_reducible assumption
    | intro _
    | with_reducible apply Stays.ite
    | split
    | (with_reducible apply Stays.mk_ <;> first | (show Stays _ _ _; skip) | simp +contextual)
    | dsimp only

theorem State.sendNext_stays {kp : Bool} {s0 : State} {s : State} (link : Nat) (hst : Stays kp s0 s) :
    Stays kp s0 (State.sendNext s link) := by
  unfold State.sendNext
  try dsimp only
  repeat' first
    | with_reducible assumption
    | intro _
    | with_reducible apply Stays.ite
    | with_reducible apply Stays.iteFst
    | with_reducible apply State.modLykel_stays
    | with_reducible apply State.noteSent_stays
    | with_reducible apply State.placeFlit_stays
    | with_reducible apply State.modFport_stays
    | split
    | (with_reducible apply Stays.mk_ <;> first | (show Stays _ _ _; skip) | simp +contextual)
    | dsimp only

theorem State.receiveInit_stays {kp : Bool} {s0 : State} {s : State} (link : Nat) (flit : List Byte) (hst : Stays kp s0 s) :
    Stays kp s0 (State.receiveInit s link flit) := by
  unfold State.receiveInit
  try dsimp only
  repeat' first
    | with_reducible assumption
    | intro _
    | with_reducible apply Stays.ite
    | with_reducible apply Stays.iteFst
    | with_reducible apply State.modHost_stays
    | with_reducible apply State.modFport_stays
    | with_reducible apply State.setPortState_stays
    | with_reducible apply State.violate_stays
    | with_reducible apply State.portAttemptFailed_stays
    | with_reducible apply State.modLykel_stays
    | with_reducible apply State.bumpReplay_stays
    | with_reducible apply State.hlinkEvent_stays
    | split
    | (with_reducible apply Stays.mk_ <;> first | (show Stays _ _ _; skip) | simp +contextual)
    | dsimp only

theorem State.receiveData_stays {kp : Bool} {s0 : State} {s : State} (link : Nat) (flit : List Byte) (hst : Stays kp s0 s) :
    Stays kp s0 (State.receiveData s link flit) := by
  unfold State.receiveData
  try dsimp only
  repeat' first
    | with_reducible assumption
    | intro _
    | with_reducible apply Stays.ite
    | with_reducible apply Stays.iteFst
    | with_reducible apply State.violatePkt_stays
    | with_reducible apply State.enterRetrain_stays
    | with_reducible apply State.rxSlot_stays
    | with_reducible apply State.modLykel_stays
    | with_reducible apply State.bumpDup_stays
    | (with_reducible apply Stays.foldl; intro _ _ _)
    | (with_reducible apply Stays.foldlFst; intro _ _ _)
    | split
    | (with_reducible apply Stays.fst; with_reducible assumption)
    | (with_reducible apply Stays.mk_ <;> first | (show Stays _ _ _; skip) | simp +contextual)
    | dsimp only

theorem State.receiveRetry_stays {kp : Bool} {s0 : State} {s : State} (link : Nat) (flit : List Byte) (hst : Stays kp s0 s) :
    Stays kp s0 (State.receiveRetry s link flit) := by
  unfold State.receiveRetry
  try dsimp only
  repeat' first
    | with_reducible assumption
    | intro _
    | with_reducible apply State.bumpReplay_stays
    | with_reducible apply State.modLykel_stays
    | with_reducible apply State.violate_stays
    | with_reducible apply State.enterRetrain_stays
    | split
    | (with_reducible apply Stays.fst; with_reducible assumption)
    | dsimp only

theorem State.receiveFlit_stays {kp : Bool} {s0 : State} {s : State} (link : Nat) (flit0 : List Byte) (hst : Stays kp s0 s) :
    Stays kp s0 (State.receiveFlit s link flit0) := by
  unfold State.receiveFlit
  try dsimp only
  repeat' first
    | with_reducible assumption
    | intro _
    | with_reducible apply Stays.ite
    | with_reducible apply State.chargeFlit_stays
    | with_reducible apply State.bumpCrc_stays
    | with_reducible apply State.modLykel_stays
    | with_reducible apply State.violate_stays
    | with_reducible apply State.becomeActive_stays
    | with_reducible apply State.receiveData_stays
    | with_reducible apply State.receiveInit_stays
    | with_reducible apply State.receiveRetry_stays
    | with_reducible apply State.receiveWidth_stays
    | (with_reducible refine State.takeHeader_inl (by assumption) ?_)
    | (with_reducible refine State.takeHeader_inr (by assumption) ?_)
    | split
    | (with_reducible apply Stays.fst; with_reducible assumption)
    | dsimp only

theorem State.receiveCtl_stays {kp : Bool} {s0 : State} {s : State} (link : Nat) (ctype : Nat) (flit : List Byte) (hst : Stays kp s0 s) :
    Stays kp s0 (State.receiveCtl s link ctype flit) := by
  unfold State.receiveCtl
  try dsimp only
  repeat' first
    | with_reducible assumption
    | with_reducible apply Stays.ite
    | with_reducible apply State.receiveFlit_stays
    | split
    | dsimp only

theorem State.takeControl_stays {kp : Bool} {s0 : State} {s : State} (link : Nat) (t : Nat) (p : List Byte) (ok : Bool) (f : State → State)
    (hst : Stays kp s0 s) (hf : ∀ (s : State), Stays kp s0 s → Stays kp s0 (f s)) :
    Stays kp s0 (State.takeControl s link t p ok f) := by
  unfold State.takeControl
  try dsimp only
  repeat' first
    | with_reducible assumption
    | intro _
    | with_reducible apply Stays.ite
    | with_reducible apply hf
    | with_reducible apply State.takePacket_stays
    | with_reducible apply State.discard_stays
    | with_reducible apply State.unqueue_stays
    | split
    | dsimp only

theorem State.suspendTime_stays {kp : Bool} {s0 : State} {s : State} (hst : Stays kp s0 s) :
    Stays kp s0 (State.suspendTime s) := by
  unfold State.suspendTime
  try dsimp only
  repeat' first
    | with_reducible assumption
    | intro _
    | with_reducible apply Stays.ite
    | with_reducible apply Stays.iteFst
    | with_reducible apply State.suspend_stays
    | with_reducible apply State.suspendIn_stays
    | (with_reducible apply Stays.foldl; intro _ _ _)
    | (with_reducible apply Stays.foldlFst; intro _ _ _)
    | split
    | dsimp only

theorem State.haltQuarters_stays {kp : Bool} {s0 : State} {s : State} (qmask : Nat) (hst : Stays kp s0 s) :
    Stays kp s0 (State.haltQuarters s qmask) := by
  unfold State.haltQuarters
  try dsimp only
  repeat' first
    | with_reducible assumption
    | intro _
    | with_reducible apply State.modQuarter_stays
    | with_reducible apply State.suspend_stays
    | with_reducible apply State.preemptWhere_stays
    | (with_reducible apply Stays.foldl; intro _ _ _)
    | (with_reducible apply Stays.foldlFst; intro _ _ _)
    | (with_reducible apply Stays.mk_ <;> first | (show Stays _ _ _; skip) | simp +contextual)
    | dsimp only

theorem State.resumeQuarters_stays {kp : Bool} {s0 : State} {s : State} (qmask : Nat) (hst : Stays kp s0 s) :
    Stays kp s0 (State.resumeQuarters s qmask) := by
  unfold State.resumeQuarters
  try dsimp only
  repeat' first
    | with_reducible assumption
    | intro _
    | with_reducible apply State.modQuarter_stays
    | (with_reducible apply Stays.foldl; intro _ _ _)
    | (with_reducible apply Stays.foldlFst; intro _ _ _)
    | (with_reducible apply Stays.mk_ <;> first | (show Stays _ _ _; skip) | simp +contextual)
    | dsimp only

end Sys2Proof.Machine
end

