-- ==== Sys2Proof/Laws/StaysPower.lean ====
section
/-! SUPPORT. Laws/StaysPower.lean: what each operation of Machine/Power.lean leaves. -/
namespace Sys2Proof.Machine
set_option Elab.async false

theorem State.sensorFail_stays {kp : Bool} {s0 : State} {s : State} (group : Nat) (index : Nat) (working : Nat) (hst : Stays kp s0 s) :
    Stays kp s0 (State.sensorFail s group index working) := by
  unfold State.sensorFail
  try dsimp only
  repeat' first
    | with_reducible assumption
    | with_reducible apply State.deviceEvent_stays
    | dsimp only

theorem State.alarmStep_stays {kp : Bool} {s0 : State} {s : State} (h : Int) (hst : Stays kp s0 s) :
    Stays kp s0 (State.alarmStep s h) := by
  unfold State.alarmStep
  try dsimp only
  repeat' first
    | with_reducible assumption
    | with_reducible apply Stays.ite
    | with_reducible apply State.bump_stays
    | with_reducible apply State.deviceEvent_stays
    | split
    | (with_reducible apply Stays.mk_ <;> first | (show Stays _ _ _; skip) | simp +contextual)
    | dsimp only

theorem State.holdStep_stays {kp : Bool} {s0 : State} {s : State} (h : Int) (hst : Stays kp s0 s) :
    Stays kp s0 (State.holdStep s h) := by
  unfold State.holdStep
  try dsimp only
  repeat' first
    | with_reducible assumption
    | with_reducible apply Stays.ite
    | with_reducible apply State.hold_stays
    | with_reducible apply State.deviceEvent_stays
    | split
    | (with_reducible apply Stays.mk_ <;> first | (show Stays _ _ _; skip) | simp +contextual)
    | dsimp only

theorem State.sweepStep_stays {kp : Bool} {s0 : State} {s : State} (hst : Stays kp s0 s) :
    Stays kp s0 (State.sweepStep s) := by
  unfold State.sweepStep
  try dsimp only
  repeat' first
    | with_reducible assumption
    | with_reducible apply Stays.ite
    | split
    | (with_reducible apply Stays.mk_ <;> first | (show Stays _ _ _; skip) | simp +contextual)
    | dsimp only

theorem State.decideStep_stays {kp : Bool} {s0 : State} {s : State} (q : Nat) (hst : Stays kp s0 s) :
    Stays kp s0 (State.decideStep s q) := by
  unfold State.decideStep
  try dsimp only
  repeat' first
    | with_reducible assumption
    | intro _
    | with_reducible apply Stays.ite
    | with_reducible apply State.hold_stays
    | with_reducible apply State.modJob_stays
    | with_reducible apply State.suspend_stays
    | with_reducible apply State.modQuarter_stays
    | split
    | (with_reducible apply Stays.fst; with_reducible assumption)
    | (with_reducible apply Stays.mk_ <;> first | (show Stays _ _ _; skip) | simp +contextual)
    | dsimp only

end Sys2Proof.Machine
end

