-- ==== Sys2Proof/Laws/StaysRefresh.lean ====
section
/-! SUPPORT. Laws/StaysRefresh.lean: what each operation of Machine/Refresh.lean leaves. -/
namespace Sys2Proof.Machine
set_option Elab.async false

theorem State.refreshBank_stays {kp : Bool} {s0 : State} {s : State} (i : Nat) (b : Nat) (found : List Found) (hst : Stays kp s0 s) :
    Stays kp s0 (State.refreshBank s i b found) := by
  unfold State.refreshBank
  try dsimp only
  repeat' first
    | with_reducible assumption
    | intro _
    | with_reducible apply Stays.ite
    | with_reducible apply State.applyAll_stays
    | with_reducible apply State.modSlice_stays
    | with_reducible apply State.chargeCore_stays
    | split
    | (with_reducible apply Stays.fst; with_reducible assumption)
    | (with_reducible apply Stays.mk_ <;> first | (show Stays _ _ _; skip) | simp +contextual)
    | dsimp only

theorem State.latchLane_stays {kp : Bool} {s0 : State} {s : State} (i : Nat) (p : Nat) (r : Nat) (late : List (Nat × Nat))
    (hst : Stays kp s0 s) :
    Stays kp s0 (State.latchLane s i p r late) := by
  unfold State.latchLane
  try dsimp only
  repeat' first
    | with_reducible assumption
    | intro _
    | with_reducible apply Stays.ite
    | with_reducible apply State.modPort_stays
    | with_reducible apply State.modQuarter_stays
    | split
    | (with_reducible apply Stays.mk_ <;> first | (show Stays _ _ _; skip) | simp +contextual)
    | dsimp only

theorem State.serveLane_stays {kp : Bool} {s0 : State} {s : State} (i : Nat) (p : Nat) (r : Nat) (came : Nat) (hst : Stays kp s0 s) :
    Stays kp s0 (State.serveLane s i p r came) := by
  unfold State.serveLane
  try dsimp only
  repeat' first
    | with_reducible assumption
    | intro _
    | with_reducible apply Stays.ite
    | with_reducible apply State.modQuarter_stays
    | with_reducible apply State.chargeCore_stays
    | with_reducible apply State.modPort_stays
    | with_reducible apply State.postHeads_stays
    | split
    | (with_reducible apply Stays.fst; with_reducible assumption)
    | (with_reducible apply Stays.mk_ <;> first | (show Stays _ _ _; skip) | simp +contextual)
    | dsimp only

theorem State.latchPort_stays {kp : Bool} {s0 : State} {s : State} (i : Nat) (p : Nat) (late : List (Nat × Nat)) (hst : Stays kp s0 s) :
    Stays kp s0 (State.latchPort s i p late) := by
  unfold State.latchPort
  try dsimp only
  repeat' first
    | with_reducible assumption
    | intro _
    | with_reducible apply State.latchLane_stays
    | (with_reducible apply Stays.foldl; intro _ _ _)
    | (with_reducible apply Stays.foldlFst; intro _ _ _)
    | dsimp only

theorem State.portRound_stays {kp : Bool} {s0 : State} {s : State} (i : Nat) (p : Nat) (late : List (Nat × Nat)) (found : List Found)
    (hst : Stays kp s0 s) :
    Stays kp s0 (State.portRound s i p late found) := by
  unfold State.portRound
  try dsimp only
  repeat' first
    | with_reducible assumption
    | intro _
    | with_reducible apply Stays.ite
    | with_reducible apply Stays.iteFst
    | with_reducible apply State.latchPort_stays
    | with_reducible apply State.modPort_stays
    | with_reducible apply State.refreshBank_stays
    | with_reducible apply State.applyAll_stays
    | with_reducible apply State.serveLane_stays
    | (with_reducible apply Stays.foldl; intro _ _ _)
    | (with_reducible apply Stays.foldlFst; intro _ _ _)
    | split
    | (with_reducible apply Stays.fst; with_reducible assumption)
    | (with_reducible apply Stays.mk_ <;> first | (show Stays _ _ _; skip) | simp +contextual)
    | dsimp only

theorem State.shedOne_stays {kp : Bool} {s0 : State} {s : State} (c : Nat) (hst : Stays kp s0 s) :
    Stays kp s0 (State.shedOne s c) := by
  unfold State.shedOne
  try dsimp only
  repeat' first
    | with_reducible assumption
    | with_reducible apply Stays.ite
    | with_reducible apply State.faultContext_stays
    | split
    | (with_reducible apply Stays.mk_ <;> first | (show Stays _ _ _; skip) | simp +contextual)
    | dsimp only

theorem State.shrink_stays {kp : Bool} {s0 : State} {s : State} (i : Nat) (bank : Nat) (hst : Stays kp s0 s) :
    Stays kp s0 (State.shrink s i bank) := by
  unfold State.shrink
  try dsimp only
  repeat' first
    | with_reducible assumption
    | intro _
    | with_reducible apply State.modSlice_stays
    | with_reducible apply State.shedOne_stays
    | with_reducible apply State.deviceEvent_stays
    | (with_reducible apply Stays.foldl; intro _ _ _)
    | (with_reducible apply Stays.foldlFst; intro _ _ _)
    | (with_reducible apply Stays.mk_ <;> first | (show Stays _ _ _; skip) | simp +contextual)
    | dsimp only

theorem State.reopenSlots_stays {kp : Bool} {s0 : State} {s : State} (i : Nat) (hst : Stays kp s0 s) :
    Stays kp s0 (State.reopenSlots s i) := by
  unfold State.reopenSlots
  try dsimp only
  repeat' first
    | with_reducible assumption
    | intro _
    | with_reducible apply Stays.ite
    | with_reducible apply State.modSlice_stays
    | split
    | (with_reducible apply Stays.mk_ <;> first | (show Stays _ _ _; skip) | simp +contextual)
    | dsimp only

end Sys2Proof.Machine
end

