-- ==== Sys2Proof/Laws/StaysRepair.lean ====
section
/-! SUPPORT. Laws/StaysRepair.lean: what each operation of Machine/Repair.lean leaves. -/
namespace Sys2Proof.Machine
set_option Elab.async false

theorem State.modRotation_stays {kp : Bool} {s0 : State} {s : State} (q : Nat) (f : Rotation → Rotation) (hst : Stays kp s0 s) :
    Stays kp s0 (State.modRotation s q f) := by
  unfold State.modRotation
  try dsimp only
  repeat' first
    | with_reducible assumption
    | intro _
    | with_reducible apply State.modQuarter_stays
    | (with_reducible apply Stays.mk_ <;> first | (show Stays _ _ _; skip) | simp +contextual)
    | dsimp only

theorem State.columnPasses_stays {kp : Bool} {s0 : State} {s : State} (q : Nat) (col : Nat) (hst : Stays kp s0 s) :
    Stays kp s0 (State.columnPasses s q col) := by
  unfold State.columnPasses
  try dsimp only
  repeat' first
    | with_reducible assumption
    | intro _
    | with_reducible apply State.modRotation_stays
    | (with_reducible apply Stays.mk_ <;> first | (show Stays _ _ _; skip) | simp +contextual)
    | dsimp only

theorem State.darnColumn_stays {kp : Bool} {s0 : State} {s : State} (q : Nat) (col : Nat) (by_ : Nat) (cause : Nat) (hst : Stays kp s0 s) :
    Stays kp s0 (State.darnColumn s q col by_ cause) := by
  unfold State.darnColumn
  try dsimp only
  repeat' first
    | with_reducible assumption
    | intro _
    | with_reducible apply State.modRotation_stays
    | with_reducible apply State.bump_stays
    | with_reducible apply State.deviceEvent_stays
    | split
    | (with_reducible apply Stays.fst; with_reducible assumption)
    | (with_reducible apply Stays.mk_ <;> first | (show Stays _ _ _; skip) | simp +contextual)
    | dsimp only

theorem State.boardPeriod_stays {kp : Bool} {s0 : State} {s : State} (q : Nat) (x : Nat) (passed : Bool) (hst : Stays kp s0 s) :
    Stays kp s0 (State.boardPeriod s q x passed) := by
  unfold State.boardPeriod
  try dsimp only
  repeat' first
    | with_reducible assumption
    | intro _
    | with_reducible apply Stays.ite
    | with_reducible apply State.darnColumn_stays
    | with_reducible apply State.columnPasses_stays
    | with_reducible apply State.modRotation_stays
    | split
    | (with_reducible apply Stays.fst; with_reducible assumption)
    | (with_reducible apply Stays.mk_ <;> first | (show Stays _ _ _; skip) | simp +contextual)
    | dsimp only

theorem State.darnPeriod_stays {kp : Bool} {s0 : State} {s : State} (q : Nat) (d : Nat) (passed : Bool) (hst : Stays kp s0 s) :
    Stays kp s0 (State.darnPeriod s q d passed) := by
  unfold State.darnPeriod
  try dsimp only
  repeat' first
    | with_reducible assumption
    | intro _
    | with_reducible apply Stays.ite
    | with_reducible apply State.modRotation_stays
    | with_reducible apply State.columnPasses_stays
    | split
    | (with_reducible apply Stays.fst; with_reducible assumption)
    | (with_reducible apply Stays.mk_ <;> first | (show Stays _ _ _; skip) | simp +contextual)
    | dsimp only

theorem State.suspectEvents_stays {kp : Bool} {s0 : State} {s : State} (q : Nat) (y : Nat) (by_ : Nat) (hst : Stays kp s0 s) :
    Stays kp s0 (State.suspectEvents s q y by_) := by
  unfold State.suspectEvents
  try dsimp only
  repeat' first
    | with_reducible assumption
    | intro _
    | with_reducible apply State.contextEvent_stays
    | with_reducible apply State.deviceEvent_stays
    | (with_reducible apply Stays.foldl; intro _ _ _)
    | (with_reducible apply Stays.foldlFst; intro _ _ _)
    | dsimp only

theorem State.boardCompare_stays {kp : Bool} {s0 : State} {s : State} (q : Nat) (x : Nat) (y : Nat) (equal : Bool) (hst : Stays kp s0 s) :
    Stays kp s0 (State.boardCompare s q x y equal) := by
  unfold State.boardCompare
  try dsimp only
  repeat' first
    | with_reducible assumption
    | intro _
    | with_reducible apply Stays.ite
    | with_reducible apply State.modRotation_stays
    | with_reducible apply State.bump_stays
    | with_reducible apply State.darnColumn_stays
    | with_reducible apply State.suspectEvents_stays
    | split
    | (with_reducible apply Stays.mk_ <;> first | (show Stays _ _ _; skip) | simp +contextual)
    | dsimp only

theorem State.reinstateCompare_stays {kp : Bool} {s0 : State} {s : State} (q : Nat) (d : Nat) (y : Nat) (equal : Bool)
    (hst : Stays kp s0 s) :
    Stays kp s0 (State.reinstateCompare s q d y equal) := by
  unfold State.reinstateCompare
  try dsimp only
  repeat' first
    | with_reducible assumption
    | intro _
    | with_reducible apply Stays.ite
    | with_reducible apply State.deviceEvent_stays
    | with_reducible apply State.modRotation_stays
    | with_reducible apply State.bump_stays
    | split
    | (with_reducible apply Stays.mk_ <;> first | (show Stays _ _ _; skip) | simp +contextual)
    | dsimp only

theorem State.beginRemoval_stays {kp : Bool} {s0 : State} {s : State} (q : Nat) (cause : Nat) (hst : Stays kp s0 s) :
    Stays kp s0 (State.beginRemoval s q cause) := by
  unfold State.beginRemoval
  try dsimp only
  repeat' first
    | with_reducible assumption
    | intro _
    | with_reducible apply Stays.ite
    | with_reducible apply Stays.iteFst
    | with_reducible apply State.modQuarter_stays
    | with_reducible apply State.settle_stays
    | with_reducible apply State.preemptWhere_stays
    | with_reducible apply State.queueInternal_stays
    | (with_reducible apply Stays.foldl; intro _ _ _)
    | (with_reducible apply Stays.foldlFst; intro _ _ _)
    | split
    | (with_reducible apply Stays.mk_ <;> first | (show Stays _ _ _; skip) | simp +contextual)
    | dsimp only

theorem State.finishRemoval_stays {kp : Bool} {s0 : State} {s : State} (q : Nat) (hst : Stays kp s0 s) :
    Stays kp s0 (State.finishRemoval s q) := by
  unfold State.finishRemoval
  try dsimp only
  repeat' first
    | with_reducible assumption
    | intro _
    | with_reducible apply State.modQuarter_stays
    | with_reducible apply State.rebindAway_stays
    | with_reducible apply State.deviceEvent_stays
    | with_reducible apply State.refreshStat_stays
    | (with_reducible apply Stays.foldl; intro _ _ _)
    | (with_reducible apply Stays.foldlFst; intro _ _ _)
    | (with_reducible apply Stays.mk_ <;> first | (show Stays _ _ _; skip) | simp +contextual)
    | dsimp only

theorem State.debugFinding_stays {kp : Bool} {s0 : State} {s : State} (f : Finding) (hst : Stays kp s0 s) :
    Stays kp s0 (State.debugFinding s f) := by
  unfold State.debugFinding
  try dsimp only
  repeat' first
    | with_reducible assumption
    | intro _
    | with_reducible apply State.modSlice_stays
    | with_reducible apply State.applyFinding_stays
    | (with_reducible apply Stays.foldl; intro _ _ _)
    | (with_reducible apply Stays.foldlFst; intro _ _ _)
    | split
    | (with_reducible apply Stays.fst; with_reducible assumption)
    | dsimp only

theorem State.debugRetire_stays {kp : Bool} {s0 : State} {s : State} (before : List Slice) (f : Finding) (hst : Stays kp s0 s) :
    Stays kp s0 (State.debugRetire s before f) := by
  unfold State.debugRetire
  try dsimp only
  repeat' first
    | with_reducible assumption
    | with_reducible apply Stays.ite
    | with_reducible apply State.bump_stays
    | with_reducible apply State.deviceEvent_stays
    | split
    | (with_reducible apply Stays.fst; with_reducible assumption)
    | dsimp only

theorem State.debugEvents_stays {kp : Bool} {s0 : State} {s : State} (quarters : List Quarter) (slices : List Slice) (up : List Nat) (findings : List Finding)
    (hst : Stays kp s0 s) :
    Stays kp s0 (State.debugEvents s quarters slices up findings) := by
  unfold State.debugEvents
  try dsimp only
  repeat' first
    | with_reducible assumption
    | intro _
    | with_reducible apply State.debugRetire_stays
    | with_reducible apply State.darnEvents_stays
    | (with_reducible apply Stays.foldl; intro _ _ _)
    | (with_reducible apply Stays.foldlFst; intro _ _ _)
    | dsimp only

theorem State.debugBistEvent_stays {kp : Bool} {s0 : State} {s : State} (findings : List Finding) (hst : Stays kp s0 s) :
    Stays kp s0 (State.debugBistEvent s findings) := by
  unfold State.debugBistEvent
  try dsimp only
  repeat' first
    | with_reducible assumption
    | with_reducible apply State.deviceEventParts_stays
    | dsimp only

theorem State.quartersTested_stays {kp : Bool} {s0 : State} {s : State} (up : List Nat) (fs : List Finding) (hst : Stays kp s0 s) :
    Stays kp s0 (State.quartersTested s up fs) := by
  unfold State.quartersTested
  try dsimp only
  repeat' first
    | with_reducible assumption
    | intro _
    | with_reducible apply Stays.ite
    | with_reducible apply Stays.iteFst
    | split
    | (with_reducible apply Stays.mk_ <;> first | (show Stays _ _ _; skip) | simp +contextual)
    | dsimp only

theorem State.showFindings_stays {kp : Bool} {s0 : State} {s : State} (findings : List Finding) (hst : Stays kp s0 s) :
    Stays kp s0 (State.showFindings s findings) := by
  unfold State.showFindings
  try dsimp only
  repeat' first
    | with_reducible assumption
    | (with_reducible apply Stays.mk_ <;> first | (show Stays _ _ _; skip) | simp +contextual)
    | dsimp only

theorem State.debugBist_stays {kp : Bool} {s0 : State} {s : State} (findings : List Finding) (hst : Stays kp s0 s) :
    Stays kp s0 (State.debugBist s findings) := by
  unfold State.debugBist
  try dsimp only
  repeat' first
    | with_reducible assumption
    | intro _
    | with_reducible apply Stays.ite
    | with_reducible apply Stays.iteFst
    | with_reducible apply State.debugFinding_stays
    | with_reducible apply State.advanceTo_stays
    | with_reducible apply State.quartersTested_stays
    | with_reducible apply State.showFindings_stays
    | with_reducible apply State.rebindAway_stays
    | with_reducible apply State.debugEvents_stays
    | with_reducible apply State.debugBistEvent_stays
    | with_reducible apply State.refreshStat_stays
    | (with_reducible apply Stays.foldl; intro _ _ _)
    | (with_reducible apply Stays.foldlFst; intro _ _ _)
    | split
    | dsimp only

theorem State.imonEvent_stays {kp : Bool} {s0 : State} {s : State} (hst : Stays kp s0 s) :
    Stays kp s0 (State.imonEvent s) := by
  unfold State.imonEvent
  try dsimp only
  repeat' first
    | with_reducible assumption
    | with_reducible apply State.deviceEvent_stays
    | split
    | (with_reducible apply Stays.fst; with_reducible assumption)
    | dsimp only

end Sys2Proof.Machine
end

