-- ==== Sys2Proof/Laws/StaysSwitch.lean ====
section
/-! SUPPORT. Laws/StaysSwitch.lean: what each operation of Machine/Switch.lean leaves. -/
namespace Sys2Proof.Machine
set_option Elab.async false

theorem State.spilledToCandidates_stays {kp : Bool} {s0 : State} {s : State} (hst : Stays kp s0 s) :
    Stays kp s0 (State.spilledToCandidates s) := by
  unfold State.spilledToCandidates
  try dsimp only
  repeat' first
    | with_reducible assumption
    | intro _
    | with_reducible apply State.makeCandidate_stays
    | (with_reducible apply Stays.foldl; intro _ _ _)
    | (with_reducible apply Stays.foldlFst; intro _ _ _)
    | dsimp only

theorem State.dropRinseSpills_stays {kp : Bool} {s0 : State} {s : State} (hst : Stays kp s0 s) :
    Stays kp s0 (State.dropRinseSpills s) := by
  unfold State.dropRinseSpills
  try dsimp only
  repeat' first
    | with_reducible assumption
    | intro _
    | with_reducible apply State.dropInternal_stays
    | split
    | (with_reducible apply Stays.fst; with_reducible assumption)
    | dsimp only

theorem State.abandonSwitch_stays {kp : Bool} {s0 : State} {s : State} (r : Reject) (hst : Stays kp s0 s) :
    Stays kp s0 (State.abandonSwitch s r) := by
  unfold State.abandonSwitch
  try dsimp only
  repeat' first
    | with_reducible assumption
    | with_reducible apply Stays.ite
    | with_reducible apply State.dropRinseSpills_stays
    | with_reducible apply State.sendVid_stays
    | with_reducible apply State.spilledToCandidates_stays
    | with_reducible apply State.rejectEvent_stays
    | with_reducible apply State.refreshStat_stays
    | split
    | (with_reducible apply Stays.fst; with_reducible assumption)
    | (with_reducible apply Stays.mk_ <;> first | (show Stays _ _ _; skip) | simp +contextual)
    | dsimp only

theorem State.abandonRestore_stays {kp : Bool} {s0 : State} {s : State} (c : Nat) (hst : Stays kp s0 s) :
    Stays kp s0 (State.abandonRestore s c) := by
  unfold State.abandonRestore
  try dsimp only
  repeat' first
    | with_reducible assumption
    | intro _
    | with_reducible apply State.freeSlot_stays
    | with_reducible apply State.dropInternal_stays
    | with_reducible apply State.modEntry_stays
    | with_reducible apply State.settle_stays
    | (with_reducible apply Stays.mk_ <;> first | (show Stays _ _ _; skip) | simp +contextual)
    | dsimp only

theorem State.rinsePreempt_stays {kp : Bool} {s0 : State} {s : State} (plan : List Nat) (q : Nat) (hst : Stays kp s0 s) :
    Stays kp s0 (State.rinsePreempt s plan q) := by
  unfold State.rinsePreempt
  try dsimp only
  repeat' first
    | with_reducible assumption
    | intro _
    | with_reducible apply State.preemptJob_stays
    | with_reducible apply State.settle_stays
    | (with_reducible apply Stays.foldl; intro _ _ _)
    | (with_reducible apply Stays.foldlFst; intro _ _ _)
    | dsimp only

theorem State.parkLeaving_stays {kp : Bool} {s0 : State} {s : State} (hst : Stays kp s0 s) :
    Stays kp s0 (State.parkLeaving s) := by
  unfold State.parkLeaving
  try dsimp only
  repeat' first
    | with_reducible assumption
    | intro _
    | with_reducible apply Stays.ite
    | with_reducible apply Stays.iteFst
    | with_reducible apply State.queueInternal_stays
    | (with_reducible apply Stays.foldl; intro _ _ _)
    | (with_reducible apply Stays.foldlFst; intro _ _ _)
    | split
    | dsimp only

theorem State.suspendProfile_stays {kp : Bool} {s0 : State} {s : State} (hst : Stays kp s0 s) :
    Stays kp s0 (State.suspendProfile s) := by
  unfold State.suspendProfile
  try dsimp only
  repeat' first
    | with_reducible assumption
    | intro _
    | with_reducible apply Stays.ite
    | with_reducible apply Stays.iteFst
    | with_reducible apply State.suspend_stays
    | (with_reducible apply Stays.foldl; intro _ _ _)
    | (with_reducible apply Stays.foldlFst; intro _ _ _)
    | split
    | dsimp only

theorem State.reclassify_stays {kp : Bool} {s0 : State} {s : State} (t : Txn) (hst : Stays kp s0 s) :
    Stays kp s0 (State.reclassify s t) := by
  unfold State.reclassify
  try dsimp only
  repeat' first
    | with_reducible assumption
    | intro _
    | with_reducible apply Stays.ite
    | with_reducible apply State.modFabric_stays
    | with_reducible apply State.faultContext_stays
    | with_reducible apply State.recordLost_stays
    | with_reducible apply State.endTxn_stays
    | split
    | (with_reducible apply Stays.fst; with_reducible assumption)
    | (with_reducible apply Stays.mk_ <;> first | (show Stays _ _ _; skip) | simp +contextual)
    | dsimp only

theorem State.rebalance_stays {kp : Bool} {s0 : State} {s : State} (hst : Stays kp s0 s) :
    Stays kp s0 (State.rebalance s) := by
  unfold State.rebalance
  try dsimp only
  repeat' first
    | with_reducible assumption
    | intro _
    | with_reducible apply Stays.ite
    | with_reducible apply Stays.iteFst
    | (with_reducible apply Stays.foldl; intro _ _ _)
    | (with_reducible apply Stays.foldlFst; intro _ _ _)
    | split
    | (with_reducible apply Stays.mk_ <;> first | (show Stays _ _ _; skip) | simp +contextual)
    | dsimp only

theorem State.cutHolds_stays {kp : Bool} {s0 : State} {s : State} (hst : Stays kp s0 s) :
    Stays kp s0 (State.cutHolds s) := by
  unfold State.cutHolds
  try dsimp only
  repeat' first
    | with_reducible assumption
    | intro _
    | (with_reducible apply Stays.mk_ <;> first | (show Stays _ _ _; skip) | simp +contextual)
    | dsimp only

theorem State.reconfigurePort_stays {kp : Bool} {s0 : State} {s : State} (old : List PortCfg) (n : Nat) (hst : Stays kp s0 s) :
    Stays kp s0 (State.reconfigurePort s old n) := by
  unfold State.reconfigurePort
  try dsimp only
  repeat' first
    | with_reducible assumption
    | intro _
    | with_reducible apply Stays.ite
    | with_reducible apply State.portDown_stays
    | with_reducible apply State.modFport_stays
    | with_reducible apply State.beginTrain_stays
    | split
    | (with_reducible apply Stays.mk_ <;> first | (show Stays _ _ _; skip) | simp +contextual)
    | dsimp only

theorem State.returnQuarter_stays {kp : Bool} {s0 : State} {s : State} (x : Nat × List Finding) (hst : Stays kp s0 s) :
    Stays kp s0 (State.returnQuarter s x) := by
  unfold State.returnQuarter
  try dsimp only
  repeat' first
    | with_reducible assumption
    | intro _
    | with_reducible apply Stays.ite
    | with_reducible apply Stays.iteFst
    | with_reducible apply State.modQuarter_stays
    | with_reducible apply State.darnEvents_stays
    | with_reducible apply State.deviceEvent_stays
    | split
    | dsimp only

theorem State.cutPower_stays {kp : Bool} {s0 : State} {s : State} (oldCap : Nat) (old : Profile) (hst : Stays kp s0 s) :
    Stays kp s0 (State.cutPower s oldCap old) := by
  unfold State.cutPower
  try dsimp only
  repeat' first
    | with_reducible assumption
    | with_reducible apply Stays.ite
    | split
    | (with_reducible apply Stays.mk_ <;> first | (show Stays _ _ _; skip) | simp +contextual)
    | dsimp only

theorem State.applyClock_stays {kp : Bool} {s0 : State} {s : State} (old : Profile) (hst : Stays kp s0 s) :
    Stays kp s0 (State.applyClock s old) := by
  unfold State.applyClock
  try dsimp only
  repeat' first
    | with_reducible assumption
    | with_reducible apply Stays.ite
    | split
    | (with_reducible apply Stays.mk_ <;> first | (show Stays _ _ _; skip) | simp +contextual)
    | dsimp only

theorem State.applyRate_stays {kp : Bool} {s0 : State} {s : State} (old : Profile) (hst : Stays kp s0 s) :
    Stays kp s0 (State.applyRate s old) := by
  unfold State.applyRate
  try dsimp only
  repeat' first
    | with_reducible assumption
    | with_reducible apply Stays.ite
    | split
    | (with_reducible apply Stays.mk_ <;> first | (show Stays _ _ _; skip) | simp +contextual)
    | dsimp only

theorem State.installProfile_stays {s0 : State} {s : State} (hst : Stays false s0 s) :
    Stays false s0 (State.installProfile s) := by
  unfold State.installProfile
  try dsimp only
  repeat' first
    | with_reducible assumption
    | intro _
    | with_reducible apply Stays.ite
    | with_reducible apply Stays.iteFst
    | with_reducible apply State.applyRate_stays
    | with_reducible apply State.applyClock_stays
    | with_reducible apply State.cutPower_stays
    | with_reducible apply State.rebalance_stays
    | with_reducible apply State.cutHolds_stays
    | with_reducible apply State.advanceEpoch_stays
    | with_reducible apply State.reconfigurePort_stays
    | with_reducible apply State.returnQuarter_stays
    | with_reducible apply State.rebindAway_stays
    | (with_reducible apply Stays.foldl; intro _ _ _)
    | (with_reducible apply Stays.foldlFst; intro _ _ _)
    | split
    | (with_reducible apply Stays.mkF_ <;> first | (show Stays _ _ _; skip) | simp +contextual)
    | dsimp only

theorem State.applySwitch_stays {s0 : State} {s : State} (hst : Stays false s0 s) :
    Stays false s0 (State.applySwitch s) := by
  unfold State.applySwitch
  try dsimp only
  repeat' first
    | with_reducible assumption
    | intro _
    | with_reducible apply Stays.ite
    | with_reducible apply Stays.iteFst
    | with_reducible apply State.suspendProfile_stays
    | with_reducible apply State.installProfile_stays
    | with_reducible apply State.spilledToCandidates_stays
    | with_reducible apply State.reclassify_stays
    | with_reducible apply State.appliedEvent_stays
    | with_reducible apply State.refreshStat_stays
    | (with_reducible apply Stays.foldl; intro _ _ _)
    | (with_reducible apply Stays.foldlFst; intro _ _ _)
    | split
    | (with_reducible apply Stays.mkF_ <;> first | (show Stays _ _ _; skip) | simp +contextual)
    | dsimp only

end Sys2Proof.Machine
end

