-- ==== Sys2Proof/Laws/StaysVector.lean ====
section
/-! SUPPORT. Laws/StaysVector.lean: what each operation of Machine/Vector.lean leaves. -/
namespace Sys2Proof.Machine
set_option Elab.async false

theorem State.vecSegment_stays {kp : Bool} {s0 : State} {s : State} (q : Nat) (c : Nat) (reads : List Nat) (outs : List VecOut)
    (hst : Stays kp s0 s) :
    Stays kp s0 (State.vecSegment s q c reads outs).state := by
  unfold State.vecSegment
  try dsimp only
  repeat' first
    | with_reducible assumption
    | intro _
    | with_reducible apply Stays.ite
    | with_reducible apply Stays.progIte
    | with_reducible apply Stays.iteFst
    | with_reducible apply Stays.go
    | with_reducible apply Stays.stop
    | with_reducible apply State.postLines_stays
    | with_reducible apply State.modJob_stays
    | with_reducible apply State.stageLines_stays
    | with_reducible apply State.postOnce_stays
    | with_reducible apply State.stageTiles_stays
    | (with_reducible apply Stays.andThen; rotate_left; intro _ _; rotate_left)
    | with_reducible apply Stays.until
    | split
    | (with_reducible apply Stays.mk_ <;> first | (show Stays _ _ _; skip) | simp +contextual)
    | dsimp only

theorem State.vecElem_stays {kp : Bool} {s0 : State} {s : State} (opc : Nat) (c : Nat) (found : List Found) (hst : Stays kp s0 s) :
    Stays kp s0 (State.vecElem s opc c found) := by
  unfold State.vecElem
  try dsimp only
  repeat' first
    | with_reducible assumption
    | intro _
    | with_reducible apply State.runOp_stays
    | with_reducible apply State.vecSegment_stays
    | dsimp only

theorem State.vecRow_stays {kp : Bool} {s0 : State} {s : State} (opc : Nat) (c : Nat) (found : List Found) (out : List Byte → (Nat → Tile) → Nat → VecOut)
    (hst : Stays kp s0 s) :
    Stays kp s0 (State.vecRow s opc c found out) := by
  unfold State.vecRow
  try dsimp only
  repeat' first
    | with_reducible assumption
    | intro _
    | with_reducible apply State.runOp_stays
    | with_reducible apply State.vecSegment_stays
    | dsimp only

end Sys2Proof.Machine
end

