-- ==== Sys2Proof/Laws/ExecAttach.lean ====
section
/-! SUPPORT. Laws/ExecAttach.lean: what each command of Machine/Attach.lean leaves when it answers a next state. -/
namespace Sys2Proof.Machine
set_option Elab.async false

theorem execAtt_stays {ctx : Nat} {found : List Found} {s : State} {t : State}
    (h : execAtt ctx found s = .next t) : Stays true s t := by
  unfold execAtt at h
  replace h := fault_next h
  replace h := guardFound_next h
  cases h
  try dsimp only
  repeat' first
    | with_reducible assumption
    | intro _
    | with_reducible apply Stays.ite
    | with_reducible apply State.beginAtt_stays
    | with_reducible apply State.applyAll_stays
    | with_reducible apply State.refuseAtt_stays
    | with_reducible apply State.post_stays
    | with_reducible apply State.modJob_stays
    | with_reducible apply State.toCommit_stays
    | with_reducible exact Stays.refl _ _
    | split
    | (with_reducible apply Stays.fst; with_reducible assumption)
    | (with_reducible apply Stays.mk_ <;> first | (show Stays _ _ _; skip) | simp +contextual)
    | dsimp only

theorem execDet_stays {ctx : Nat} {found : List Found} {s : State} {t : State}
    (h : execDet ctx found s = .next t) : Stays true s t := by
  unfold execDet at h
  replace h := opCommand_next h
  cases h
  try dsimp only
  repeat' first
    | with_reducible assumption
    | intro _
    | with_reducible apply Stays.go
    | with_reducible apply Stays.stop
    | with_reducible apply State.runOp_stays
    | with_reducible apply State.toCommit_stays
    | with_reducible exact Stays.refl _ _
    | dsimp only

end Sys2Proof.Machine
end

