-- ==== Sys2Proof/Laws/ExecBringup.lean ====
section
/-! SUPPORT. Laws/ExecBringup.lean: what each command of Machine/Bringup.lean leaves when it answers a next state. -/
namespace Sys2Proof.Machine
set_option Elab.async false

theorem execPwrgoodFall_stays {s : State} {t : State}
    (h : execPwrgoodFall s = .next t) : Stays false s t := by
  unfold execPwrgoodFall at h
  cases h
  try dsimp only
  repeat' first
    | with_reducible assumption
    | with_reducible apply Stays.ite
    | with_reducible apply State.assertReset_stays
    | with_reducible exact Stays.refl _ _
    | split
    | dsimp only

theorem execPwrgoodRise_stays {s : State} {t : State}
    (h : execPwrgoodRise s = .next t) : Stays true s t := by
  unfold execPwrgoodRise at h
  cases h
  try dsimp only
  repeat' first
    | with_reducible assumption
    | with_reducible apply Stays.ite
    | with_reducible exact Stays.refl _ _
    | split
    | (with_reducible apply Stays.mk_ <;> first | (show Stays _ _ _; skip) | simp +contextual)
    | dsimp only

theorem execResetAssert_stays {s : State} {t : State}
    (h : execResetAssert s = .next t) : Stays false s t := by
  unfold execResetAssert at h
  cases h
  try dsimp only
  repeat' first
    | with_reducible assumption
    | with_reducible apply Stays.ite
    | with_reducible apply State.assertReset_stays
    | with_reducible exact Stays.refl _ _
    | split
    | dsimp only

theorem execResetRelease_stays {selfRefreshed : Bool} {s : State} {t : State}
    (h : execResetRelease selfRefreshed s = .next t) : Stays false s t := by
  unfold execResetRelease at h
  cases h
  try dsimp only
  repeat' first
    | with_reducible assumption
    | with_reducible apply Stays.ite
    | with_reducible exact Stays.refl _ _
    | split
    | (with_reducible apply Stays.mkF_ <;> first | (show Stays _ _ _; skip) | simp +contextual)
    | dsimp only

theorem execStrapLatch_stays {boot : Nat} {remapEn : Bool} {sealLocal : Bool} {pselLink : Bool} {testmode : Bool} {fuseOk : Bool} {trngOk : Bool} {s : State} {t : State}
    (h : execStrapLatch boot remapEn sealLocal pselLink testmode fuseOk trngOk s = .next t) : Stays false s t := by
  unfold execStrapLatch at h
  cases h
  try dsimp only
  repeat' first
    | with_reducible assumption
    | with_reducible apply Stays.ite
    | with_reducible apply State.advanceTo_stays
    | with_reducible apply State.enterPhase_stays
    | with_reducible apply State.goFatal_stays
    | with_reducible exact Stays.refl _ _
    | split
    | (with_reducible apply Stays.mkF_ <;> first | (show Stays _ _ _; skip) | simp +contextual)
    | dsimp only

theorem execLevelPinMeasure_stays {samples : List (List Nat)} {s : State} {t : State}
    (h : execLevelPinMeasure samples s = .next t) : Stays false s t := by
  unfold execLevelPinMeasure at h
  cases h
  try dsimp only
  repeat' first
    | with_reducible assumption
    | intro _
    | with_reducible apply Stays.ite
    | with_reducible apply State.advanceTo_stays
    | with_reducible apply State.goFatal_stays
    | with_reducible apply State.enterPhase_stays
    | with_reducible exact Stays.refl _ _
    | split
    | (with_reducible apply Stays.mkF_ <;> first | (show Stays _ _ _; skip) | simp +contextual)
    | dsimp only

theorem execPllsLocked_stays {s : State} {t : State}
    (h : execPllsLocked s = .next t) : Stays true s t := by
  unfold execPllsLocked at h
  cases h
  try dsimp only
  repeat' first
    | with_reducible assumption
    | with_reducible apply Stays.ite
    | with_reducible apply State.enterPhase_stays
    | with_reducible apply State.sendVid_stays
    | with_reducible apply State.afterImages_stays
    | with_reducible exact Stays.refl _ _
    | split
    | (with_reducible apply Stays.mk_ <;> first | (show Stays _ _ _; skip) | simp +contextual)
    | dsimp only

theorem execFlashSfdpRead_stays {found : SfdpRead} {s : State} {t : State}
    (h : execFlashSfdpRead found s = .next t) : Stays true s t := by
  unfold execFlashSfdpRead at h
  cases h
  try dsimp only
  repeat' first
    | with_reducible assumption
    | with_reducible apply Stays.ite
    | with_reducible apply State.enterPhase_stays
    | with_reducible exact Stays.refl _ _
    | split
    | (with_reducible apply Stays.mk_ <;> first | (show Stays _ _ _; skip) | simp +contextual)
    | dsimp only

theorem execHoldCleared_stays {s : State} {t : State}
    (h : execHoldCleared s = .next t) : Stays true s t := by
  unfold execHoldCleared at h
  cases h
  try dsimp only
  repeat' first
    | with_reducible assumption
    | with_reducible apply Stays.ite
    | with_reducible exact Stays.refl _ _
    | split
    | (with_reducible apply Stays.mk_ <;> first | (show Stays _ _ _; skip) | simp +contextual)
    | dsimp only

theorem execImageCopyVerify_stays {readOk : Bool} {copy : List Byte} {s : State} {t : State}
    (h : execImageCopyVerify readOk copy s = .next t) : Stays true s t := by
  unfold execImageCopyVerify at h
  cases h
  try dsimp only
  repeat' first
    | with_reducible assumption
    | with_reducible apply Stays.ite
    | with_reducible apply State.enterPhase_stays
    | with_reducible apply State.advanceTo_stays
    | with_reducible exact Stays.refl _ _
    | split
    | (with_reducible apply Stays.mk_ <;> first | (show Stays _ _ _; skip) | simp +contextual)
    | dsimp only

theorem execMicroRamRemap_stays {s : State} {t : State}
    (h : execMicroRamRemap s = .next t) : Stays true s t := by
  unfold execMicroRamRemap at h
  cases h
  try dsimp only
  repeat' first
    | with_reducible assumption
    | with_reducible apply Stays.ite
    | with_reducible apply State.afterImages_stays
    | with_reducible exact Stays.refl _ _
    | split
    | (with_reducible apply Stays.mk_ <;> first | (show Stays _ _ _; skip) | simp +contextual)
    | dsimp only

theorem execBist_stays {findings : List Finding} {s : State} {t : State}
    (h : execBist findings s = .next t) : Stays true s t := by
  unfold execBist at h
  cases h
  try dsimp only
  repeat' first
    | with_reducible assumption
    | intro _
    | with_reducible apply Stays.ite
    | with_reducible apply State.runBist_stays
    | with_reducible apply State.advanceTo_stays
    | with_reducible apply State.enterPhase_stays
    | with_reducible apply State.goFatal_stays
    | with_reducible exact Stays.refl _ _
    | split
    | (with_reducible apply Stays.mk_ <;> first | (show Stays _ _ _; skip) | simp +contextual)
    | dsimp only

theorem execBringupApply_stays {reached : Bool} {romReached : Bool} {s : State} {t : State}
    (h : execBringupApply reached romReached s = .next t) : Stays false s t := by
  unfold execBringupApply at h
  cases h
  try dsimp only
  repeat' first
    | with_reducible assumption
    | with_reducible apply Stays.ite
    | with_reducible apply State.applyAtBringUp_stays
    | with_reducible apply State.appliedEvent_stays
    | with_reducible apply State.enterHbm_stays
    | with_reducible apply State.rejectEvent_stays
    | with_reducible apply State.goFatal_stays
    | with_reducible exact Stays.refl _ _
    | split
    | (with_reducible apply Stays.fst; with_reducible assumption)
    | (with_reducible apply Stays.mkF_ <;> first | (show Stays _ _ _; skip) | simp +contextual)
    | dsimp only

theorem execHbmTraining_stays {attempts : List Nat} {repaired : List Nat} {s : State} {t : State}
    (h : execHbmTraining attempts repaired s = .next t) : Stays true s t := by
  unfold execHbmTraining at h
  cases h
  try dsimp only
  repeat' first
    | with_reducible assumption
    | intro _
    | with_reducible apply Stays.ite
    | with_reducible apply Stays.iteFst
    | with_reducible apply State.goFatal_stays
    | with_reducible apply State.bump_stays
    | with_reducible apply State.enterHostLink_stays
    | with_reducible exact Stays.refl _ _
    | (with_reducible apply Stays.foldl; intro _ _ _)
    | (with_reducible apply Stays.foldlFst; intro _ _ _)
    | split
    | (with_reducible apply Stays.mk_ <;> first | (show Stays _ _ _; skip) | simp +contextual)
    | dsimp only

theorem execHbmInitialise_stays {s : State} {t : State}
    (h : execHbmInitialise s = .next t) : Stays true s t := by
  unfold execHbmInitialise at h
  cases h
  try dsimp only
  repeat' first
    | with_reducible assumption
    | with_reducible apply Stays.ite
    | with_reducible apply State.enterHostLink_stays
    | with_reducible exact Stays.refl _ _
    | split
    | (with_reducible apply Stays.mk_ <;> first | (show Stays _ _ _; skip) | simp +contextual)
    | dsimp only

theorem execFabricTrainingEnd_stays {s : State} {t : State}
    (h : execFabricTrainingEnd s = .next t) : Stays true s t := by
  unfold execFabricTrainingEnd at h
  cases h
  try dsimp only
  repeat' first
    | with_reducible assumption
    | intro _
    | with_reducible apply Stays.ite
    | with_reducible apply Stays.iteFst
    | with_reducible apply State.advanceTo_stays
    | with_reducible apply State.enterPhase_stays
    | with_reducible exact Stays.refl _ _
    | split
    | dsimp only

theorem execReadiness_stays {s : State} {t : State}
    (h : execReadiness s = .next t) : Stays true s t := by
  unfold execReadiness at h
  cases h
  try dsimp only
  repeat' first
    | with_reducible assumption
    | with_reducible apply Stays.ite
    | with_reducible apply State.refreshStat_stays
    | with_reducible apply State.writeReport_stays
    | with_reducible exact Stays.refl _ _
    | split
    | (with_reducible apply Stays.mk_ <;> first | (show Stays _ _ _; skip) | simp +contextual)
    | dsimp only

theorem execBringupPhaseTimeout_stays {s : State} {t : State}
    (h : execBringupPhaseTimeout s = .next t) : Stays true s t := by
  unfold execBringupPhaseTimeout at h
  cases h
  try dsimp only
  repeat' first
    | with_reducible assumption
    | intro _
    | with_reducible apply Stays.ite
    | with_reducible apply State.advanceTo_stays
    | with_reducible apply State.goFatal_stays
    | with_reducible apply State.modHost_stays
    | with_reducible apply State.hostLinkSettled_stays
    | with_reducible apply State.enterPhase_stays
    | with_reducible exact Stays.refl _ _
    | split
    | (with_reducible apply Stays.mk_ <;> first | (show Stays _ _ _; skip) | simp +contextual)
    | dsimp only

theorem execStatHoldExpiry_stays {s : State} {t : State}
    (h : execStatHoldExpiry s = .next t) : Stays true s t := by
  unfold execStatHoldExpiry at h
  cases h
  try dsimp only
  repeat' first
    | with_reducible assumption
    | with_reducible apply State.advanceTo_stays
    | with_reducible exact Stays.refl _ _
    | split
    | (with_reducible apply Stays.fst; with_reducible assumption)
    | (with_reducible apply Stays.mk_ <;> first | (show Stays _ _ _; skip) | simp +contextual)
    | dsimp only

theorem execPllLockLoss_stays {core : Bool} {s : State} {t : State}
    (h : execPllLockLoss core s = .next t) : Stays true s t := by
  unfold execPllLockLoss at h
  cases h
  try dsimp only
  repeat' first
    | with_reducible assumption
    | with_reducible apply Stays.ite
    | with_reducible apply State.goFatal_stays
    | with_reducible exact Stays.refl _ _
    | split
    | (with_reducible apply Stays.mk_ <;> first | (show Stays _ _ _; skip) | simp +contextual)
    | dsimp only

end Sys2Proof.Machine
end

