-- ==== Sys2Proof/Laws/ExecCommit.lean ====
section
/-! SUPPORT. Laws/ExecCommit.lean: what each command of Machine/Commit.lean leaves when it answers a next state. -/
namespace Sys2Proof.Machine
set_option Elab.async false

theorem execSegmentCommit_stays {quarter : Nat} {track : Nat} {held : Nat} {s : State} {t : State}
    (h : execSegmentCommit quarter track held s = .next t) : Stays true s t := by
  unfold execSegmentCommit at h
  replace h := fault_next h
  replace h := fault_next h
  cases h
  try dsimp only
  repeat' first
    | with_reducible assumption
    | intro _
    | with_reducible apply Stays.ite
    | with_reducible apply State.commitSegment_stays
    | with_reducible apply State.commitMove_stays
    | with_reducible exact Stays.refl _ _
    | split
    | (with_reducible apply Stays.fst; with_reducible assumption)
    | dsimp only

theorem execOperationComplete_stays {ctx : Nat} {s : State} {t : State}
    (h : execOperationComplete ctx s = .next t) : Stays true s t := by
  unfold execOperationComplete at h
  replace h := fault_next h
  cases h
  try dsimp only
  repeat' first
    | with_reducible assumption
    | with_reducible apply Stays.ite
    | with_reducible apply State.completeEffect_stays
    | with_reducible apply State.popOp_stays
    | with_reducible apply State.reportDone_stays
    | with_reducible apply State.afterReports_stays
    | with_reducible apply State.endClaims_stays
    | with_reducible apply State.claimOnWork_stays
    | with_reducible exact Stays.refl _ _
    | split
    | (with_reducible apply Stays.fst; with_reducible assumption)
    | dsimp only

end Sys2Proof.Machine
end

