-- ==== Sys2Proof/Laws/ExecCompute.lean ====
section
/-! SUPPORT. Laws/ExecCompute.lean: what each command of Machine/Compute.lean leaves when it answers a next state. -/
namespace Sys2Proof.Machine
set_option Elab.async false

theorem execAop_stays {ctx : Nat} {found : List Found} {s : State} {t : State}
    (h : execAop ctx found s = .next t) : Stays true s t := by
  unfold execAop at h
  replace h := opCommand_next h
  cases h
  try dsimp only
  repeat' first
    | with_reducible assumption
    | intro _
    | with_reducible apply Stays.go
    | with_reducible apply Stays.stop
    | with_reducible apply State.runOp_stays
    | with_reducible apply State.toCommit_stays
    | with_reducible exact Stays.refl _ _
    | dsimp only

theorem execAcl_stays {ctx : Nat} {found : List Found} {s : State} {t : State}
    (h : execAcl ctx found s = .next t) : Stays true s t := by
  unfold execAcl at h
  replace h := opCommand_next h
  cases h
  try dsimp only
  repeat' first
    | with_reducible assumption
    | intro _
    | with_reducible apply Stays.go
    | with_reducible apply Stays.stop
    | with_reducible apply State.runOp_stays
    | with_reducible apply State.toCommit_stays
    | with_reducible exact Stays.refl _ _
    | dsimp only

theorem execAsd_stays {ctx : Nat} {found : List Found} {s : State} {t : State}
    (h : execAsd ctx found s = .next t) : Stays true s t := by
  unfold execAsd at h
  replace h := opCommand_next h
  cases h
  try dsimp only
  repeat' first
    | with_reducible assumption
    | intro _
    | with_reducible apply Stays.go
    | with_reducible apply Stays.stop
    | with_reducible apply State.runOp_stays
    | with_reducible apply State.postOnce_stays
    | with_reducible apply State.postLines_stays
    | with_reducible apply State.modPlane_stays
    | with_reducible apply State.toCommit_stays
    | (with_reducible apply Stays.andThen; rotate_left; intro _ _; rotate_left)
    | with_reducible apply Stays.until
    | with_reducible exact Stays.refl _ _
    | (with_reducible apply Stays.foldl; intro _ _ _)
    | (with_reducible apply Stays.foldlFst; intro _ _ _)
    | dsimp only

theorem execAdr_stays {ctx : Nat} {found : List Found} {s : State} {t : State}
    (h : execAdr ctx found s = .next t) : Stays true s t := by
  unfold execAdr at h
  replace h := opCommand_next h
  cases h
  try dsimp only
  repeat' first
    | with_reducible assumption
    | intro _
    | with_reducible apply Stays.go
    | with_reducible apply Stays.stop
    | with_reducible apply State.runOp_stays
    | with_reducible apply State.stageLines_stays
    | with_reducible apply State.postOnce_stays
    | with_reducible apply State.postLines_stays
    | with_reducible apply State.stageTiles_stays
    | with_reducible apply State.chargeCore_stays
    | (with_reducible apply Stays.andThen; rotate_left; intro _ _; rotate_left)
    | with_reducible apply Stays.until
    | with_reducible exact Stays.refl _ _
    | dsimp only

theorem execMma_stays {ctx : Nat} {found : List Found} {s : State} {t : State}
    (h : execMma ctx found s = .next t) : Stays true s t := by
  unfold execMma at h
  replace h := opCommand_next h
  cases h
  try dsimp only
  repeat' first
    | with_reducible assumption
    | intro _
    | with_reducible apply Stays.go
    | with_reducible apply Stays.stop
    | with_reducible apply State.runOp_stays
    | with_reducible apply State.chooseSteps_stays
    | with_reducible apply State.runSteps_stays
    | with_reducible exact Stays.refl _ _
    | dsimp only

theorem execMms_stays {ctx : Nat} {found : List Found} {s : State} {t : State}
    (h : execMms ctx found s = .next t) : Stays true s t := by
  unfold execMms at h
  replace h := opCommand_next h
  cases h
  try dsimp only
  repeat' first
    | with_reducible assumption
    | intro _
    | with_reducible apply Stays.go
    | with_reducible apply Stays.stop
    | with_reducible apply State.runOp_stays
    | with_reducible apply State.loadStreams_stays
    | with_reducible apply State.chooseSteps_stays
    | with_reducible apply State.stageAhead_stays
    | with_reducible apply State.runSteps_stays
    | with_reducible exact Stays.refl _ _
    | split
    | (with_reducible apply Stays.fst; with_reducible assumption)
    | dsimp only

end Sys2Proof.Machine
end

