-- ==== Sys2Proof/Laws/ExecDeadline.lean ====
section
/-! SUPPORT. Laws/ExecDeadline.lean: what each command of Machine/Deadline.lean leaves when it answers a next state. -/
namespace Sys2Proof.Machine
set_option Elab.async false

theorem execPeriodStart_stays {s : State} {t : State}
    (h : execPeriodStart s = .next t) : Stays true s t := by
  unfold execPeriodStart at h
  cases h
  try dsimp only
  repeat' first
    | with_reducible assumption
    | intro _
    | with_reducible apply Stays.ite
    | with_reducible apply Stays.iteFst
    | with_reducible apply State.nextPeriod_stays
    | with_reducible apply State.takeRate_stays
    | with_reducible apply State.endClaims_stays
    | with_reducible apply State.periodSuspensions_stays
    | with_reducible apply State.raiseClaim_stays
    | with_reducible exact Stays.refl _ _
    | (with_reducible apply Stays.foldl; intro _ _ _)
    | (with_reducible apply Stays.foldlFst; intro _ _ _)
    | split
    | dsimp only

theorem execFrameDeadline_stays {ctx : Nat} {s : State} {t : State}
    (h : execFrameDeadline ctx s = .next t) : Stays true s t := by
  unfold execFrameDeadline at h
  replace h := fault_next h
  cases h
  try dsimp only
  repeat' first
    | with_reducible assumption
    | with_reducible apply Stays.ite
    | with_reducible apply State.deadlinePasses_stays
    | with_reducible exact Stays.refl _ _
    | split
    | (with_reducible apply Stays.fst; with_reducible assumption)
    | dsimp only

end Sys2Proof.Machine
end

