-- ==== Sys2Proof/Laws/ExecErrors.lean ====
section
/-! SUPPORT. Laws/ExecErrors.lean: what each command of Machine/Errors.lean leaves when it answers a next state. -/
namespace Sys2Proof.Machine
set_option Elab.async false

theorem execStoreScrub_stays {found : List Found} {s : State} {t : State}
    (h : execStoreScrub found s = .next t) : Stays true s t := by
  unfold execStoreScrub at h
  replace h := guardFound_next h
  cases h
  try dsimp only
  repeat' first
    | with_reducible assumption
    | with_reducible apply Stays.ite
    | with_reducible apply State.advanceTo_stays
    | with_reducible apply State.applyAll_stays
    | with_reducible exact Stays.refl _ _
    | split
    | (with_reducible apply Stays.mk_ <;> first | (show Stays _ _ _; skip) | simp +contextual)
    | dsimp only

end Sys2Proof.Machine
end

