-- ==== Sys2Proof/Laws/ExecFabric.lean ====
section
/-! SUPPORT. Laws/ExecFabric.lean: what each command of Machine/Fabric.lean leaves when it answers a next state. -/
namespace Sys2Proof.Machine
set_option Elab.async false

theorem execFabricTargetRound_stays {target : Nat} {path : List (Nat × Nat)} {words : List (Nat × HbmFound)} {s : State} {t : State}
    (h : execFabricTargetRound target path words s = .next t) : Stays true s t := by
  unfold execFabricTargetRound at h
  replace h := fault_next h
  cases h
  try dsimp only
  repeat' first
    | with_reducible assumption
    | intro _
    | with_reducible apply Stays.ite
    | with_reducible apply Stays.iteFst
    | with_reducible apply State.drainWrites_stays
    | with_reducible apply State.targetRound_stays
    | with_reducible exact Stays.refl _ _
    | split
    | dsimp only

theorem execHbmReadReturn_stays {txn : Nat} {errs : List HbmFound} {s : State} {t : State}
    (h : execHbmReadReturn txn errs s = .next t) : Stays true s t := by
  unfold execHbmReadReturn at h
  cases h
  try dsimp only
  repeat' first
    | with_reducible assumption
    | intro _
    | with_reducible apply State.serveTxn_stays
    | with_reducible apply State.returnBurst_stays
    | with_reducible exact Stays.refl _ _
    | split
    | (with_reducible apply Stays.fst; with_reducible assumption)
    | dsimp only

theorem execHbmBankRefresh_stays {dram : DramBank} {s : State} {t : State}
    (h : execHbmBankRefresh dram s = .next t) : Stays true s t := by
  unfold execHbmBankRefresh at h
  replace h := fault_next h
  cases h
  try dsimp only
  repeat' first
    | with_reducible assumption
    | with_reducible apply Stays.ite
    | with_reducible apply State.advanceTo_stays
    | with_reducible exact Stays.refl _ _
    | split
    | (with_reducible apply Stays.mk_ <;> first | (show Stays _ _ _; skip) | simp +contextual)
    | dsimp only

theorem execHbmRetrain_stays {s : State} {t : State}
    (h : execHbmRetrain s = .next t) : Stays true s t := by
  unfold execHbmRetrain at h
  cases h
  try dsimp only
  repeat' first
    | with_reducible assumption
    | intro _
    | with_reducible apply Stays.ite
    | with_reducible apply State.advanceTo_stays
    | with_reducible apply State.modStack_stays
    | with_reducible apply State.bump_stays
    | with_reducible exact Stays.refl _ _
    | split
    | (with_reducible apply Stays.mk_ <;> first | (show Stays _ _ _; skip) | simp +contextual)
    | dsimp only

theorem execHbmScrubRead_stays {stack : Nat} {corrected : List Nat} {bad : List Nat} {s : State} {t : State}
    (h : execHbmScrubRead stack corrected bad s = .next t) : Stays true s t := by
  unfold execHbmScrubRead at h
  replace h := fault_next h
  cases h
  try dsimp only
  repeat' first
    | with_reducible assumption
    | intro _
    | with_reducible apply Stays.ite
    | with_reducible apply Stays.iteFst
    | with_reducible apply State.clearChannel_stays
    | with_reducible apply State.advanceTo_stays
    | with_reducible apply State.modStack_stays
    | with_reducible apply State.chargeFixed_stays
    | with_reducible apply State.bump_stays
    | with_reducible apply State.deviceEvent_stays
    | with_reducible exact Stays.refl _ _
    | (with_reducible apply Stays.foldl; intro _ _ _)
    | (with_reducible apply Stays.foldlFst; intro _ _ _)
    | split
    | (with_reducible apply Stays.mk_ <;> first | (show Stays _ _ _; skip) | simp +contextual)
    | dsimp only

theorem execTrngRefill_stays {s : State} {t : State}
    (h : execTrngRefill s = .next t) : Stays true s t := by
  unfold execTrngRefill at h
  cases h
  split
  · exact Stays.refl _ _
  · exact Stays.updW (State.advanceTo_stays _ (Stays.refl _ _)) rfl rfl (fun _ => rfl) (fun _ => Nat.le_refl _) id
      (fun _ => Nat.min_le_left _ _) rfl rfl id id id


end Sys2Proof.Machine
end

