-- ==== Sys2Proof/Laws/ExecFabricPort.lean ====
section
/-! SUPPORT. Laws/ExecFabricPort.lean: what each command of Machine/FabricPort.lean leaves when it answers a next state. -/
namespace Sys2Proof.Machine
set_option Elab.async false

theorem execFpTrainingFrame_stays {port : Nat} {frames : List TrainFrame} {s : State} {t : State}
    (h : execFpTrainingFrame port frames s = .next t) : Stays true s t := by
  unfold execFpTrainingFrame at h
  replace h := guardPort_next h
  cases h
  try dsimp only
  repeat' first
    | with_reducible assumption
    | intro _
    | with_reducible apply Stays.ite
    | with_reducible apply Stays.iteFst
    | with_reducible apply State.modFport_stays
    | with_reducible exact Stays.refl _ _
    | split
    | (with_reducible apply Stays.fst; with_reducible assumption)
    | (with_reducible apply Stays.mk_ <;> first | (show Stays _ _ _; skip) | simp +contextual)
    | dsimp only

theorem execFpCodedStreamStart_stays {port : Nat} {s : State} {t : State}
    (h : execFpCodedStreamStart port s = .next t) : Stays true s t := by
  unfold execFpCodedStreamStart at h
  replace h := guardPort_next h
  cases h
  try dsimp only
  repeat' first
    | with_reducible assumption
    | intro _
    | with_reducible apply Stays.ite
    | with_reducible apply State.modFport_stays
    | with_reducible apply State.advancePort_stays
    | with_reducible exact Stays.refl _ _
    | split
    | (with_reducible apply Stays.fst; with_reducible assumption)
    | (with_reducible apply Stays.mk_ <;> first | (show Stays _ _ _; skip) | simp +contextual)
    | dsimp only

theorem execFpMarkerLock_stays {port : Nat} {marks : List Marker} {s : State} {t : State}
    (h : execFpMarkerLock port marks s = .next t) : Stays true s t := by
  unfold execFpMarkerLock at h
  replace h := guardPort_next h
  cases h
  try dsimp only
  repeat' first
    | with_reducible assumption
    | intro _
    | with_reducible apply Stays.ite
    | with_reducible apply State.modFport_stays
    | with_reducible apply State.advancePort_stays
    | with_reducible exact Stays.refl _ _
    | split
    | (with_reducible apply Stays.fst; with_reducible assumption)
    | (with_reducible apply Stays.mk_ <;> first | (show Stays _ _ _; skip) | simp +contextual)
    | dsimp only

theorem execFpStateChange_stays {port : Nat} {s : State} {t : State}
    (h : execFpStateChange port s = .next t) : Stays true s t := by
  unfold execFpStateChange at h
  replace h := guardPort_next h
  cases h
  try dsimp only
  repeat' first
    | with_reducible assumption
    | with_reducible apply Stays.ite
    | with_reducible apply State.portDown_stays
    | with_reducible apply State.beginTrain_stays
    | with_reducible apply State.advancePort_stays
    | with_reducible exact Stays.refl _ _
    | split
    | dsimp only

theorem execFpStateTimeout_stays {port : Nat} {s : State} {t : State}
    (h : execFpStateTimeout port s = .next t) : Stays true s t := by
  unfold execFpStateTimeout at h
  replace h := guardPort_next h
  cases h
  try dsimp only
  repeat' first
    | with_reducible assumption
    | with_reducible apply Stays.ite
    | with_reducible apply State.advanceTo_stays
    | with_reducible apply State.enterRetrain_stays
    | with_reducible apply State.portAttemptFailed_stays
    | with_reducible exact Stays.refl _ _
    | split
    | (with_reducible apply Stays.fst; with_reducible assumption)
    | dsimp only

theorem execFpFailedRetry_stays {port : Nat} {s : State} {t : State}
    (h : execFpFailedRetry port s = .next t) : Stays true s t := by
  unfold execFpFailedRetry at h
  replace h := guardPort_next h
  cases h
  try dsimp only
  repeat' first
    | with_reducible assumption
    | intro _
    | with_reducible apply Stays.ite
    | with_reducible apply State.advanceTo_stays
    | with_reducible apply State.modFport_stays
    | with_reducible apply State.beginTrain_stays
    | with_reducible exact Stays.refl _ _
    | split
    | (with_reducible apply Stays.mk_ <;> first | (show Stays _ _ _; skip) | simp +contextual)
    | dsimp only

theorem execFpUeRateRetrain_stays {port : Nat} {count : Nat} {corrected : List Nat} {s : State} {t : State}
    (h : execFpUeRateRetrain port count corrected s = .next t) : Stays true s t := by
  unfold execFpUeRateRetrain at h
  replace h := guardPort_next h
  cases h
  try dsimp only
  repeat' first
    | with_reducible assumption
    | intro _
    | with_reducible apply Stays.ite
    | with_reducible apply Stays.iteFst
    | with_reducible apply State.bump_stays
    | with_reducible apply State.enterRetrain_stays
    | with_reducible exact Stays.refl _ _
    | (with_reducible apply Stays.foldl; intro _ _ _)
    | (with_reducible apply Stays.foldlFst; intro _ _ _)
    | split
    | dsimp only

theorem execFpLaneFail_stays {port : Nat} {lane : Nat} {s : State} {t : State}
    (h : execFpLaneFail port lane s = .next t) : Stays true s t := by
  unfold execFpLaneFail at h
  replace h := fault_next h
  replace h := guardPort_next h
  cases h
  try dsimp only
  repeat' first
    | with_reducible assumption
    | intro _
    | with_reducible apply Stays.ite
    | with_reducible apply State.modFport_stays
    | with_reducible apply State.askWidth_stays
    | with_reducible exact Stays.refl _ _
    | split
    | (with_reducible apply Stays.mk_ <;> first | (show Stays _ _ _; skip) | simp +contextual)
    | dsimp only

theorem execFpLaneRetrain_stays {port : Nat} {lane : Nat} {frames : List TrainFrame} {s : State} {t : State}
    (h : execFpLaneRetrain port lane frames s = .next t) : Stays true s t := by
  unfold execFpLaneRetrain at h
  replace h := fault_next h
  replace h := guardPort_next h
  cases h
  try dsimp only
  repeat' first
    | with_reducible assumption
    | intro _
    | with_reducible apply Stays.ite
    | with_reducible apply State.modFport_stays
    | with_reducible apply State.askWidth_stays
    | with_reducible exact Stays.refl _ _
    | split
    | (with_reducible apply Stays.mk_ <;> first | (show Stays _ _ _; skip) | simp +contextual)
    | dsimp only

theorem execFpLaneBerRemove_stays {port : Nat} {lane : Nat} {s : State} {t : State}
    (h : execFpLaneBerRemove port lane s = .next t) : Stays true s t := by
  unfold execFpLaneBerRemove at h
  replace h := fault_next h
  replace h := guardPort_next h
  cases h
  try dsimp only
  repeat' first
    | with_reducible assumption
    | intro _
    | with_reducible apply Stays.ite
    | with_reducible apply State.modFport_stays
    | with_reducible apply State.askWidth_stays
    | with_reducible exact Stays.refl _ _
    | split
    | (with_reducible apply Stays.fst; with_reducible assumption)
    | (with_reducible apply Stays.mk_ <;> first | (show Stays _ _ _; skip) | simp +contextual)
    | dsimp only

theorem execWidthSwitch_stays {port : Nat} {s : State} {t : State}
    (h : execWidthSwitch port s = .next t) : Stays true s t := by
  unfold execWidthSwitch at h
  replace h := guardPort_next h
  cases h
  try dsimp only
  repeat' first
    | with_reducible assumption
    | with_reducible apply Stays.ite
    | with_reducible apply State.modFport_stays
    | with_reducible apply State.widthSwitched_stays
    | with_reducible exact Stays.refl _ _
    | split
    | dsimp only

theorem execSdrefclkLoss_stays {quad : Nat} {s : State} {t : State}
    (h : execSdrefclkLoss quad s = .next t) : Stays true s t := by
  unfold execSdrefclkLoss at h
  replace h := fault_next h
  cases h
  try dsimp only
  repeat' first
    | with_reducible assumption
    | intro _
    | with_reducible apply Stays.ite
    | with_reducible apply Stays.iteFst
    | with_reducible apply State.enterRetrain_stays
    | with_reducible exact Stays.refl _ _
    | (with_reducible apply Stays.foldl; intro _ _ _)
    | (with_reducible apply Stays.foldlFst; intro _ _ _)
    | split
    | dsimp only

end Sys2Proof.Machine
end

