-- ==== Sys2Proof/Laws/ExecHostLink.lean ====
section
/-! SUPPORT. Laws/ExecHostLink.lean: what each command of Machine/HostLink.lean leaves when it answers a next state. -/
namespace Sys2Proof.Machine
set_option Elab.async false

theorem execHandshakeEntry_stays {s : State} {t : State}
    (h : execHandshakeEntry s = .next t) : Stays true s t := by
  unfold execHandshakeEntry at h
  cases h
  try dsimp only
  repeat' first
    | with_reducible assumption
    | intro _
    | with_reducible apply Stays.ite
    | with_reducible apply State.modHost_stays
    | with_reducible apply State.advanceTo_stays
    | with_reducible exact Stays.refl _ _
    | split
    | (with_reducible apply Stays.mk_ <;> first | (show Stays _ _ _; skip) | simp +contextual)
    | dsimp only

theorem execModuleActiveChange_stays {mask : Nat} {s : State} {t : State}
    (h : execModuleActiveChange mask s = .next t) : Stays true s t := by
  unfold execModuleActiveChange at h
  cases h
  try dsimp only
  repeat' first
    | with_reducible assumption
    | intro _
    | with_reducible apply Stays.ite
    | with_reducible apply State.modHost_stays
    | with_reducible apply State.refreshStat_stays
    | with_reducible exact Stays.refl _ _
    | split
    | (with_reducible apply Stays.mk_ <;> first | (show Stays _ _ _; skip) | simp +contextual)
    | dsimp only

theorem execLinkStateTimeout_stays {s : State} {t : State}
    (h : execLinkStateTimeout s = .next t) : Stays true s t := by
  unfold execLinkStateTimeout at h
  cases h
  try dsimp only
  repeat' first
    | with_reducible assumption
    | with_reducible apply Stays.ite
    | with_reducible apply State.advanceTo_stays
    | with_reducible apply State.hostAttemptFailed_stays
    | with_reducible apply State.enterRetrain_stays
    | with_reducible exact Stays.refl _ _
    | split
    | (with_reducible apply Stays.fst; with_reducible assumption)
    | dsimp only

theorem execModuleRetrain_stays {module : Nat} {s : State} {t : State}
    (h : execModuleRetrain module s = .next t) : Stays true s t := by
  unfold execModuleRetrain at h
  replace h := fault_next h
  cases h
  try dsimp only
  repeat' first
    | with_reducible assumption
    | intro _
    | with_reducible apply Stays.ite
    | with_reducible apply State.modHost_stays
    | with_reducible exact Stays.refl _ _
    | split
    | (with_reducible apply Stays.fst; with_reducible assumption)
    | (with_reducible apply Stays.mk_ <;> first | (show Stays _ _ _; skip) | simp +contextual)
    | dsimp only

theorem execFlitTransmit_stays {link : Nat} {s : State} {t : State}
    (h : execFlitTransmit link s = .next t) : Stays true s t := by
  unfold execFlitTransmit at h
  replace h := guardLink_next h
  cases h
  try dsimp only
  repeat' first
    | with_reducible assumption
    | with_reducible apply Stays.ite
    | with_reducible apply State.sendNext_stays
    | with_reducible apply State.sendHandshake_stays
    | with_reducible exact Stays.refl _ _
    | split
    | dsimp only

theorem execIdleFlitSend_stays {link : Nat} {s : State} {t : State}
    (h : execIdleFlitSend link s = .next t) : Stays true s t := by
  unfold execIdleFlitSend at h
  replace h := guardLink_next h
  cases h
  try dsimp only
  repeat' first
    | with_reducible assumption
    | with_reducible apply Stays.ite
    | with_reducible apply State.advanceTo_stays
    | with_reducible apply State.sendNext_stays
    | with_reducible exact Stays.refl _ _
    | split
    | dsimp only

theorem execRetryReqRepeat_stays {link : Nat} {s : State} {t : State}
    (h : execRetryReqRepeat link s = .next t) : Stays true s t := by
  unfold execRetryReqRepeat at h
  replace h := guardLink_next h
  cases h
  try dsimp only
  repeat' first
    | with_reducible assumption
    | intro _
    | with_reducible apply Stays.ite
    | with_reducible apply State.advanceTo_stays
    | with_reducible apply State.modLykel_stays
    | with_reducible apply State.sendNext_stays
    | with_reducible exact Stays.refl _ _
    | split
    | (with_reducible apply Stays.mk_ <;> first | (show Stays _ _ _; skip) | simp +contextual)
    | dsimp only

theorem execReplayTimeout_stays {link : Nat} {s : State} {t : State}
    (h : execReplayTimeout link s = .next t) : Stays true s t := by
  unfold execReplayTimeout at h
  replace h := guardLink_next h
  cases h
  try dsimp only
  repeat' first
    | with_reducible assumption
    | intro _
    | with_reducible apply State.advanceTo_stays
    | with_reducible apply State.bumpReplay_stays
    | with_reducible apply State.modLykel_stays
    | with_reducible exact Stays.refl _ _
    | split
    | (with_reducible apply Stays.fst; with_reducible assumption)
    | dsimp only

theorem execReplayLimit_stays {link : Nat} {s : State} {t : State}
    (h : execReplayLimit link s = .next t) : Stays true s t := by
  unfold execReplayLimit at h
  replace h := guardLink_next h
  cases h
  try dsimp only
  repeat' first
    | with_reducible assumption
    | intro _
    | with_reducible apply Stays.ite
    | with_reducible apply State.bump_stays
    | with_reducible apply State.modLykel_stays
    | with_reducible apply State.enterRetrain_stays
    | with_reducible exact Stays.refl _ _
    | split
    | (with_reducible apply Stays.mk_ <;> first | (show Stays _ _ _; skip) | simp +contextual)
    | dsimp only

theorem execCreditStallTimeout_stays {link : Nat} {s : State} {t : State}
    (h : execCreditStallTimeout link s = .next t) : Stays true s t := by
  unfold execCreditStallTimeout at h
  replace h := guardLink_next h
  cases h
  try dsimp only
  repeat' first
    | with_reducible assumption
    | intro _
    | with_reducible apply Stays.ite
    | with_reducible apply State.advanceTo_stays
    | with_reducible apply State.violatePkt_stays
    | with_reducible apply State.modLykel_stays
    | with_reducible apply State.enterRetrain_stays
    | with_reducible exact Stays.refl _ _
    | split
    | (with_reducible apply Stays.fst; with_reducible assumption)
    | (with_reducible apply Stays.mk_ <;> first | (show Stays _ _ _; skip) | simp +contextual)
    | dsimp only

theorem execFlitReceive_stays {link : Nat} {flit : List Byte} {s : State} {t : State}
    (h : execFlitReceive link flit s = .next t) : Stays true s t := by
  unfold execFlitReceive at h
  replace h := guardLink_next h
  cases h
  try dsimp only
  repeat' first
    | with_reducible assumption
    | with_reducible apply State.receiveFlit_stays
    | with_reducible exact Stays.refl _ _
    | dsimp only

theorem execRetryReqReceive_stays {link : Nat} {flit : List Byte} {s : State} {t : State}
    (h : execRetryReqReceive link flit s = .next t) : Stays true s t := by
  unfold execRetryReqReceive at h
  replace h := guardLink_next h
  cases h
  try dsimp only
  repeat' first
    | with_reducible assumption
    | with_reducible apply State.receiveCtl_stays
    | with_reducible exact Stays.refl _ _
    | dsimp only

theorem execInitReceive_stays {link : Nat} {flit : List Byte} {s : State} {t : State}
    (h : execInitReceive link flit s = .next t) : Stays true s t := by
  unfold execInitReceive at h
  replace h := guardLink_next h
  cases h
  try dsimp only
  repeat' first
    | with_reducible assumption
    | with_reducible apply State.receiveCtl_stays
    | with_reducible exact Stays.refl _ _
    | dsimp only

theorem execInitDoneReceive_stays {link : Nat} {flit : List Byte} {s : State} {t : State}
    (h : execInitDoneReceive link flit s = .next t) : Stays true s t := by
  unfold execInitDoneReceive at h
  replace h := guardLink_next h
  cases h
  try dsimp only
  repeat' first
    | with_reducible assumption
    | with_reducible apply State.receiveCtl_stays
    | with_reducible exact Stays.refl _ _
    | dsimp only

theorem execWidth_stays {port : Nat} {flit : List Byte} {s : State} {t : State}
    (h : execWidth port flit s = .next t) : Stays true s t := by
  unfold execWidth at h
  replace h := guardPort_next h
  cases h
  try dsimp only
  repeat' first
    | with_reducible assumption
    | with_reducible apply State.receiveCtl_stays
    | with_reducible exact Stays.refl _ _
    | dsimp only

theorem execLinkViolationReport_stays {s : State} {t : State}
    (h : execLinkViolationReport s = .next t) : Stays true s t := by
  unfold execLinkViolationReport at h
  cases h
  try dsimp only
  repeat' first
    | with_reducible assumption
    | intro _
    | with_reducible apply Stays.ite
    | with_reducible apply Stays.iteFst
    | with_reducible apply State.advanceTo_stays
    | with_reducible apply State.deviceEvent_stays
    | with_reducible exact Stays.refl _ _
    | (with_reducible apply Stays.foldl; intro _ _ _)
    | (with_reducible apply Stays.foldlFst; intro _ _ _)
    | split
    | (with_reducible apply Stays.mk_ <;> first | (show Stays _ _ _; skip) | simp +contextual)
    | dsimp only

theorem execSealPacket_stays {link : Nat} {pkt : List Byte} {s : State} {t : State}
    (h : execSealPacket link pkt s = .next t) : Stays true s t := by
  unfold execSealPacket at h
  replace h := guardLink_next h
  cases h
  try dsimp only
  repeat' first
    | with_reducible assumption
    | intro _
    | with_reducible apply Stays.ite
    | with_reducible apply State.takeControl_stays
    | with_reducible apply State.discard_stays
    | with_reducible apply State.cack_stays
    | with_reducible exact Stays.refl _ _
    | split
    | (with_reducible apply Stays.mk_ <;> first | (show Stays _ _ _; skip) | simp +contextual)
    | dsimp only

theorem execRingPacket_stays {link : Nat} {pkt : List Byte} {s : State} {t : State}
    (h : execRingPacket link pkt s = .next t) : Stays true s t := by
  unfold execRingPacket at h
  replace h := guardLink_next h
  cases h
  try dsimp only
  repeat' first
    | with_reducible assumption
    | intro _
    | with_reducible apply Stays.ite
    | with_reducible apply State.takeControl_stays
    | with_reducible apply State.discard_stays
    | with_reducible apply State.cack_stays
    | with_reducible apply State.writeReport_stays
    | with_reducible exact Stays.refl _ _
    | split
    | (with_reducible apply Stays.mk_ <;> first | (show Stays _ _ _; skip) | simp +contextual)
    | dsimp only

theorem execProfilePacket_stays {link : Nat} {pkt : List Byte} {s : State} {t : State}
    (h : execProfilePacket link pkt s = .next t) : Stays true s t := by
  unfold execProfilePacket at h
  replace h := guardLink_next h
  cases h
  try dsimp only
  repeat' first
    | with_reducible assumption
    | intro _
    | with_reducible apply Stays.ite
    | with_reducible apply State.takeControl_stays
    | with_reducible apply State.discard_stays
    | with_reducible apply State.cack_stays
    | with_reducible exact Stays.refl _ _
    | split
    | (with_reducible apply Stays.mk_ <;> first | (show Stays _ _ _; skip) | simp +contextual)
    | dsimp only

theorem execTimePacket_stays {link : Nat} {pkt : List Byte} {s : State} {t : State}
    (h : execTimePacket link pkt s = .next t) : Stays true s t := by
  unfold execTimePacket at h
  replace h := guardLink_next h
  cases h
  try dsimp only
  repeat' first
    | with_reducible assumption
    | intro _
    | with_reducible apply Stays.ite
    | with_reducible apply State.takeControl_stays
    | with_reducible apply State.cack_stays
    | with_reducible apply State.suspendTime_stays
    | with_reducible exact Stays.refl _ _
    | split
    | (with_reducible apply Stays.mk_ <;> first | (show Stays _ _ _; skip) | simp +contextual)
    | dsimp only

theorem execHaltPacket_stays {link : Nat} {pkt : List Byte} {s : State} {t : State}
    (h : execHaltPacket link pkt s = .next t) : Stays true s t := by
  unfold execHaltPacket at h
  replace h := guardLink_next h
  cases h
  try dsimp only
  repeat' first
    | with_reducible assumption
    | intro _
    | with_reducible apply State.takeControl_stays
    | with_reducible apply State.haltQuarters_stays
    | with_reducible exact Stays.refl _ _
    | (with_reducible apply Stays.mk_ <;> first | (show Stays _ _ _; skip) | simp +contextual)
    | dsimp only

theorem execHaltCack_stays {s : State} {t : State}
    (h : execHaltCack s = .next t) : Stays true s t := by
  unfold execHaltCack at h
  cases h
  try dsimp only
  repeat' first
    | with_reducible assumption
    | intro _
    | with_reducible apply State.freeSlots_stays
    | with_reducible apply State.cack_stays
    | with_reducible exact Stays.refl _ _
    | split
    | (with_reducible apply Stays.fst; with_reducible assumption)
    | (with_reducible apply Stays.mk_ <;> first | (show Stays _ _ _; skip) | simp +contextual)
    | dsimp only

theorem execResumePacket_stays {link : Nat} {pkt : List Byte} {s : State} {t : State}
    (h : execResumePacket link pkt s = .next t) : Stays true s t := by
  unfold execResumePacket at h
  replace h := guardLink_next h
  cases h
  try dsimp only
  repeat' first
    | with_reducible assumption
    | intro _
    | with_reducible apply State.takeControl_stays
    | with_reducible apply State.resumeQuarters_stays
    | with_reducible apply State.cack_stays
    | with_reducible exact Stays.refl _ _
    | dsimp only

theorem execJtagHaltInstrument_stays {qmask : Nat} {set : Bool} {s : State} {t : State}
    (h : execJtagHaltInstrument qmask set s = .next t) : Stays true s t := by
  unfold execJtagHaltInstrument at h
  cases h
  try dsimp only
  repeat' first
    | with_reducible assumption
    | with_reducible apply Stays.ite
    | with_reducible apply State.haltQuarters_stays
    | with_reducible apply State.resumeQuarters_stays
    | with_reducible exact Stays.refl _ _
    | split
    | dsimp only

end Sys2Proof.Machine
end

