-- ==== Sys2Proof/Laws/ExecIssue.lean ====
section
/-! SUPPORT. Laws/ExecIssue.lean: what each command of Machine/Issue.lean leaves when it answers a next state. -/
namespace Sys2Proof.Machine
set_option Elab.async false

theorem execOprReceive_stays {link : Nat} {pkt : List Byte} {s : State} {t : State}
    (h : execOprReceive link pkt s = .next t) : Stays true s t := by
  unfold execOprReceive at h
  replace h := guardLink_next h
  cases h
  try dsimp only
  repeat' first
    | with_reducible assumption
    | with_reducible apply Stays.ite
    | with_reducible apply State.takePacket_stays
    | with_reducible apply State.discard_stays
    | with_reducible apply State.hold_stays
    | with_reducible apply State.receiveOp_stays
    | with_reducible exact Stays.refl _ _
    | split
    | dsimp only

end Sys2Proof.Machine
end

