-- ==== Sys2Proof/Laws/ExecLinks.lean ====
section
/-! SUPPORT. Laws/ExecLinks.lean: what each command of Machine/Links.lean leaves when it answers a next state. -/
namespace Sys2Proof.Machine
set_option Elab.async false

theorem execPacketForward_stays {s : State} {t : State}
    (h : execPacketForward s = .next t) : Stays true s t := by
  unfold execPacketForward at h
  cases h
  try dsimp only
  repeat' first
    | with_reducible assumption
    | with_reducible apply State.sendHeld_stays
    | with_reducible apply State.discardHeld_stays
    | with_reducible exact Stays.refl _ _
    | split
    | (with_reducible apply Stays.fst; with_reducible assumption)
    | dsimp only

theorem execForwardHoldExpiry_stays {s : State} {t : State}
    (h : execForwardHoldExpiry s = .next t) : Stays true s t := by
  unfold execForwardHoldExpiry at h
  cases h
  try dsimp only
  repeat' first
    | with_reducible assumption
    | with_reducible apply State.advanceTo_stays
    | with_reducible apply State.discardHeld_stays
    | with_reducible exact Stays.refl _ _
    | split
    | (with_reducible apply Stays.fst; with_reducible assumption)
    | dsimp only

theorem execPinLapse_stays {index : Nat} {s : State} {t : State}
    (h : execPinLapse index s = .next t) : Stays true s t := by
  unfold execPinLapse at h
  cases h
  try dsimp only
  repeat' first
    | with_reducible assumption
    | with_reducible apply State.advanceTo_stays
    | with_reducible exact Stays.refl _ _
    | split
    | (with_reducible apply Stays.fst; with_reducible assumption)
    | (with_reducible apply Stays.mk_ <;> first | (show Stays _ _ _; skip) | simp +contextual)
    | dsimp only

theorem execStreamEpochResume_stays {dest : Nat} {s : State} {t : State}
    (h : execStreamEpochResume dest s = .next t) : Stays true s t := by
  unfold execStreamEpochResume at h
  replace h := fault_next h
  cases h
  try dsimp only
  repeat' first
    | with_reducible assumption
    | intro _
    | with_reducible apply Stays.ite
    | with_reducible apply State.modStream_stays
    | with_reducible exact Stays.refl _ _
    | split
    | (with_reducible apply Stays.mk_ <;> first | (show Stays _ _ _; skip) | simp +contextual)
    | dsimp only

theorem execMrd_stays {link : Nat} {pkt : List Byte} {s : State} {t : State}
    (h : execMrd link pkt s = .next t) : Stays true s t := by
  unfold execMrd at h
  replace h := guardLink_next h
  cases h
  try dsimp only
  repeat' first
    | with_reducible assumption
    | with_reducible apply State.takeRequest_stays
    | with_reducible exact Stays.refl _ _
    | dsimp only

theorem execMwr_stays {link : Nat} {pkt : List Byte} {s : State} {t : State}
    (h : execMwr link pkt s = .next t) : Stays true s t := by
  unfold execMwr at h
  replace h := guardLink_next h
  cases h
  try dsimp only
  repeat' first
    | with_reducible assumption
    | with_reducible apply State.takeRequest_stays
    | with_reducible exact Stays.refl _ _
    | dsimp only

theorem execMfa_stays {link : Nat} {pkt : List Byte} {s : State} {t : State}
    (h : execMfa link pkt s = .next t) : Stays true s t := by
  unfold execMfa at h
  replace h := guardLink_next h
  cases h
  try dsimp only
  repeat' first
    | with_reducible assumption
    | with_reducible apply State.takeRequest_stays
    | with_reducible exact Stays.refl _ _
    | dsimp only

theorem execMcs_stays {link : Nat} {pkt : List Byte} {s : State} {t : State}
    (h : execMcs link pkt s = .next t) : Stays true s t := by
  unfold execMcs at h
  replace h := guardLink_next h
  cases h
  try dsimp only
  repeat' first
    | with_reducible assumption
    | with_reducible apply State.takeRequest_stays
    | with_reducible exact Stays.refl _ _
    | dsimp only

theorem execRwr_stays {link : Nat} {pkt : List Byte} {s : State} {t : State}
    (h : execRwr link pkt s = .next t) : Stays true s t := by
  unfold execRwr at h
  replace h := guardLink_next h
  cases h
  try dsimp only
  repeat' first
    | with_reducible assumption
    | with_reducible apply State.takeRequest_stays
    | with_reducible exact Stays.refl _ _
    | dsimp only

theorem execCpldReceive_stays {link : Nat} {pkt : List Byte} {s : State} {t : State}
    (h : execCpldReceive link pkt s = .next t) : Stays true s t := by
  unfold execCpldReceive at h
  replace h := guardLink_next h
  cases h
  try dsimp only
  repeat' first
    | with_reducible assumption
    | intro _
    | with_reducible apply State.takeCompletion_stays
    | with_reducible apply State.takeCpld_stays
    | with_reducible exact Stays.refl _ _
    | dsimp only

theorem execCplReceive_stays {link : Nat} {pkt : List Byte} {s : State} {t : State}
    (h : execCplReceive link pkt s = .next t) : Stays true s t := by
  unfold execCplReceive at h
  replace h := guardLink_next h
  cases h
  try dsimp only
  repeat' first
    | with_reducible assumption
    | intro _
    | with_reducible apply State.takeCompletion_stays
    | with_reducible apply State.takeCpl_stays
    | with_reducible exact Stays.refl _ _
    | dsimp only

theorem execHostCompletionTimeout_stays {tag : Nat} {s : State} {t : State}
    (h : execHostCompletionTimeout tag s = .next t) : Stays true s t := by
  unfold execHostCompletionTimeout at h
  cases h
  try dsimp only
  repeat' first
    | with_reducible assumption
    | with_reducible apply Stays.ite
    | with_reducible apply State.advanceTo_stays
    | with_reducible apply State.violate_stays
    | with_reducible apply State.faultOut_stays
    | with_reducible exact Stays.refl _ _
    | split
    | (with_reducible apply Stays.fst; with_reducible assumption)
    | (with_reducible apply Stays.mk_ <;> first | (show Stays _ _ _; skip) | simp +contextual)
    | dsimp only

theorem execFabricCompletionTimeout_stays {link : Nat} {tag : Nat} {s : State} {t : State}
    (h : execFabricCompletionTimeout link tag s = .next t) : Stays true s t := by
  unfold execFabricCompletionTimeout at h
  replace h := guardLink_next h
  cases h
  try dsimp only
  repeat' first
    | with_reducible assumption
    | intro _
    | with_reducible apply Stays.ite
    | with_reducible apply State.advanceTo_stays
    | with_reducible apply State.bump_stays
    | with_reducible apply State.finishOut_stays
    | with_reducible exact Stays.refl _ _
    | split
    | (with_reducible apply Stays.fst; with_reducible assumption)
    | (with_reducible apply Stays.mk_ <;> first | (show Stays _ _ _; skip) | simp +contextual)
    | dsimp only

theorem execTagHoldExpiry_stays {link : Nat} {tag : Nat} {s : State} {t : State}
    (h : execTagHoldExpiry link tag s = .next t) : Stays true s t := by
  unfold execTagHoldExpiry at h
  replace h := guardLink_next h
  cases h
  try dsimp only
  repeat' first
    | with_reducible assumption
    | intro _
    | with_reducible apply State.advanceTo_stays
    | with_reducible exact Stays.refl _ _
    | split
    | (with_reducible apply Stays.fst; with_reducible assumption)
    | (with_reducible apply Stays.mk_ <;> first | (show Stays _ _ _; skip) | simp +contextual)
    | dsimp only

end Sys2Proof.Machine
end

