-- ==== Sys2Proof/Laws/ExecMoves.lean ====
section
/-! SUPPORT. Laws/ExecMoves.lean: what each command of Machine/Moves.lean leaves when it answers a next state. -/
namespace Sys2Proof.Machine
set_option Elab.async false

theorem execNop_stays {ctx : Nat} {found : List Found} {s : State} {t : State}
    (h : execNop ctx found s = .next t) : Stays true s t := by
  unfold execNop at h
  replace h := opCommand_next h
  cases h
  try dsimp only
  repeat' first
    | with_reducible assumption
    | intro _
    | with_reducible apply Stays.go
    | with_reducible apply Stays.stop
    | with_reducible apply State.runOp_stays
    | with_reducible apply State.toCommit_stays
    | with_reducible exact Stays.refl _ _
    | dsimp only

theorem execFrm_stays {ctx : Nat} {found : List Found} {s : State} {t : State}
    (h : execFrm ctx found s = .next t) : Stays true s t := by
  unfold execFrm at h
  replace h := opCommand_next h
  cases h
  try dsimp only
  repeat' first
    | with_reducible assumption
    | intro _
    | with_reducible apply Stays.go
    | with_reducible apply Stays.stop
    | with_reducible apply State.runOp_stays
    | with_reducible apply State.toCommit_stays
    | with_reducible exact Stays.refl _ _
    | dsimp only

theorem execFnc_stays {ctx : Nat} {found : List Found} {s : State} {t : State}
    (h : execFnc ctx found s = .next t) : Stays true s t := by
  unfold execFnc at h
  replace h := opCommand_next h
  cases h
  try dsimp only
  repeat' first
    | with_reducible assumption
    | intro _
    | with_reducible apply Stays.ite
    | with_reducible apply Stays.progIte
    | with_reducible apply Stays.go
    | with_reducible apply Stays.stop
    | with_reducible apply State.runOp_stays
    | with_reducible apply State.toCommit_stays
    | with_reducible exact Stays.refl _ _
    | split
    | dsimp only

theorem execNtf_stays {ctx : Nat} {found : List Found} {s : State} {t : State}
    (h : execNtf ctx found s = .next t) : Stays true s t := by
  unfold execNtf at h
  replace h := opCommand_next h
  cases h
  try dsimp only
  repeat' first
    | with_reducible assumption
    | intro _
    | with_reducible apply Stays.go
    | with_reducible apply Stays.stop
    | with_reducible apply State.runOp_stays
    | with_reducible apply State.needPages_stays
    | with_reducible apply State.classifyWrites_stays
    | with_reducible apply State.post_stays
    | with_reducible apply State.toCommit_stays
    | (with_reducible apply Stays.andThen; rotate_left; intro _ _; rotate_left)
    | with_reducible exact Stays.refl _ _
    | (with_reducible apply Stays.mk_ <;> first | (show Stays _ _ _; skip) | simp +contextual)
    | dsimp only

theorem execLdt_stays {ctx : Nat} {found : List Found} {s : State} {t : State}
    (h : execLdt ctx found s = .next t) : Stays true s t := by
  unfold execLdt at h
  replace h := opCommand_next h
  cases h
  try dsimp only
  repeat' first
    | with_reducible assumption
    | intro _
    | with_reducible apply Stays.go
    | with_reducible apply Stays.stop
    | with_reducible apply State.runOp_stays
    | with_reducible apply State.withMap_stays
    | with_reducible apply State.withData_stays
    | with_reducible apply State.stageLines_stays
    | with_reducible apply State.postOnce_stays
    | with_reducible apply State.postLines_stays
    | with_reducible apply State.stageTiles_stays
    | with_reducible apply State.dropGot_stays
    | (with_reducible apply Stays.andThen; rotate_left; intro _ _; rotate_left)
    | with_reducible apply Stays.until
    | with_reducible exact Stays.refl _ _
    | dsimp only

theorem execStt_stays {ctx : Nat} {found : List Found} {s : State} {t : State}
    (h : execStt ctx found s = .next t) : Stays true s t := by
  unfold execStt at h
  replace h := opCommand_next h
  cases h
  try dsimp only
  repeat' first
    | with_reducible assumption
    | intro _
    | with_reducible apply Stays.go
    | with_reducible apply Stays.stop
    | with_reducible apply State.runOpWith_stays
    | with_reducible apply State.sttIssue_stays
    | with_reducible apply State.needPages_stays
    | with_reducible apply State.classifyWrites_stays
    | with_reducible apply State.postOnce_stays
    | with_reducible apply State.postLines_stays
    | with_reducible apply State.toCommit_stays
    | (with_reducible apply Stays.andThen; rotate_left; intro _ _; rotate_left)
    | with_reducible apply Stays.until
    | with_reducible exact Stays.refl _ _
    | (with_reducible apply Stays.mk_ <;> first | (show Stays _ _ _; skip) | simp +contextual)
    | dsimp only

theorem execCpt_stays {ctx : Nat} {found : List Found} {s : State} {t : State}
    (h : execCpt ctx found s = .next t) : Stays true s t := by
  unfold execCpt at h
  replace h := opCommand_next h
  cases h
  try dsimp only
  repeat' first
    | with_reducible assumption
    | intro _
    | with_reducible apply Stays.go
    | with_reducible apply Stays.stop
    | with_reducible apply State.runOp_stays
    | with_reducible apply State.stageLines_stays
    | with_reducible apply State.postOnce_stays
    | with_reducible apply State.postLines_stays
    | with_reducible apply State.stageTiles_stays
    | (with_reducible apply Stays.andThen; rotate_left; intro _ _; rotate_left)
    | with_reducible apply Stays.until
    | with_reducible exact Stays.refl _ _
    | dsimp only

theorem execZrt_stays {ctx : Nat} {found : List Found} {s : State} {t : State}
    (h : execZrt ctx found s = .next t) : Stays true s t := by
  unfold execZrt at h
  replace h := opCommand_next h
  cases h
  try dsimp only
  repeat' first
    | with_reducible assumption
    | intro _
    | with_reducible apply Stays.go
    | with_reducible apply Stays.stop
    | with_reducible apply State.runOp_stays
    | with_reducible apply State.toCommit_stays
    | with_reducible exact Stays.refl _ _
    | (with_reducible apply Stays.mk_ <;> first | (show Stays _ _ _; skip) | simp +contextual)
    | dsimp only

theorem execRls_stays {ctx : Nat} {found : List Found} {s : State} {t : State}
    (h : execRls ctx found s = .next t) : Stays true s t := by
  unfold execRls at h
  replace h := opCommand_next h
  cases h
  try dsimp only
  repeat' first
    | with_reducible assumption
    | intro _
    | with_reducible apply Stays.go
    | with_reducible apply Stays.stop
    | with_reducible apply State.runOp_stays
    | with_reducible apply State.toCommit_stays
    | with_reducible exact Stays.refl _ _
    | (with_reducible apply Stays.mk_ <;> first | (show Stays _ _ _; skip) | simp +contextual)
    | dsimp only

end Sys2Proof.Machine
end

