-- ==== Sys2Proof/Laws/ExecPower.lean ====
section
/-! SUPPORT. Laws/ExecPower.lean: what each command of Machine/Power.lean leaves when it answers a next state. -/
namespace Sys2Proof.Machine
set_option Elab.async false

theorem execSensorSample_stays {readings : List Int} {failed : List Bool} {s : State} {t : State}
    (h : execSensorSample readings failed s = .next t) : Stays true s t := by
  unfold execSensorSample at h
  cases h
  try dsimp only
  repeat' first
    | with_reducible assumption
    | intro _
    | with_reducible apply Stays.ite
    | with_reducible apply Stays.iteFst
    | with_reducible apply State.advanceTo_stays
    | with_reducible apply State.sensorFail_stays
    | with_reducible apply State.goShutdown_stays
    | with_reducible apply State.sweepStep_stays
    | with_reducible apply State.alarmStep_stays
    | with_reducible apply State.holdStep_stays
    | with_reducible exact Stays.refl _ _
    | (with_reducible apply Stays.foldl; intro _ _ _)
    | (with_reducible apply Stays.foldlFst; intro _ _ _)
    | split
    | (with_reducible apply Stays.mk_ <;> first | (show Stays _ _ _; skip) | simp +contextual)
    | dsimp only

theorem execHbmTemperatureRead_stays {readings : List Int} {failed : List Bool} {s : State} {t : State}
    (h : execHbmTemperatureRead readings failed s = .next t) : Stays true s t := by
  unfold execHbmTemperatureRead at h
  cases h
  try dsimp only
  repeat' first
    | with_reducible assumption
    | intro _
    | with_reducible apply Stays.ite
    | with_reducible apply Stays.iteFst
    | with_reducible apply State.advanceTo_stays
    | with_reducible apply State.sensorFail_stays
    | with_reducible exact Stays.refl _ _
    | (with_reducible apply Stays.foldl; intro _ _ _)
    | (with_reducible apply Stays.foldlFst; intro _ _ _)
    | split
    | (with_reducible apply Stays.mk_ <;> first | (show Stays _ _ _; skip) | simp +contextual)
    | dsimp only

theorem execThermalCeilingUpdate_stays {s : State} {t : State}
    (h : execThermalCeilingUpdate s = .next t) : Stays true s t := by
  unfold execThermalCeilingUpdate at h
  cases h
  try dsimp only
  repeat' first
    | with_reducible assumption
    | with_reducible apply Stays.ite
    | with_reducible apply State.advanceTo_stays
    | with_reducible exact Stays.refl _ _
    | split
    | (with_reducible apply Stays.mk_ <;> first | (show Stays _ _ _; skip) | simp +contextual)
    | dsimp only

theorem execStaticBandEval_stays {s : State} {t : State}
    (h : execStaticBandEval s = .next t) : Stays true s t := by
  unfold execStaticBandEval at h
  cases h
  try dsimp only
  repeat' first
    | with_reducible assumption
    | with_reducible apply Stays.ite
    | with_reducible apply State.advanceTo_stays
    | with_reducible exact Stays.refl _ _
    | split
    | (with_reducible apply Stays.mk_ <;> first | (show Stays _ _ _; skip) | simp +contextual)
    | dsimp only

theorem execEnergyInterval_stays {s : State} {t : State}
    (h : execEnergyInterval s = .next t) : Stays true s t := by
  unfold execEnergyInterval at h
  cases h
  try dsimp only
  repeat' first
    | with_reducible assumption
    | intro _
    | with_reducible apply Stays.ite
    | with_reducible apply Stays.iteFst
    | with_reducible apply State.advanceTo_stays
    | with_reducible exact Stays.refl _ _
    | (with_reducible apply Stays.foldl; intro _ _ _)
    | (with_reducible apply Stays.foldlFst; intro _ _ _)
    | split
    | (with_reducible apply Stays.mk_ <;> first | (show Stays _ _ _; skip) | simp +contextual)
    | dsimp only

theorem execPowerStepDecision_stays {quarters : Nat} {s : State} {t : State}
    (h : execPowerStepDecision quarters s = .next t) : Stays true s t := by
  unfold execPowerStepDecision at h
  cases h
  try dsimp only
  repeat' first
    | with_reducible assumption
    | intro _
    | with_reducible apply State.decideStep_stays
    | with_reducible exact Stays.refl _ _
    | (with_reducible apply Stays.foldl; intro _ _ _)
    | (with_reducible apply Stays.foldlFst; intro _ _ _)
    | dsimp only

theorem execImonSample_stays {halfAmps : Nat} {s : State} {t : State}
    (h : execImonSample halfAmps s = .next t) : Stays true s t := by
  unfold execImonSample at h
  cases h
  try dsimp only
  repeat' first
    | with_reducible assumption
    | intro _
    | with_reducible apply Stays.ite
    | with_reducible apply Stays.iteFst
    | with_reducible apply State.advanceTo_stays
    | with_reducible apply State.bump_stays
    | with_reducible exact Stays.refl _ _
    | (with_reducible apply Stays.foldl; intro _ _ _)
    | (with_reducible apply Stays.foldlFst; intro _ _ _)
    | split
    | (with_reducible apply Stays.mk_ <;> first | (show Stays _ _ _; skip) | simp +contextual)
    | dsimp only

theorem execImonTripHoldExpiry_stays {s : State} {t : State}
    (h : execImonTripHoldExpiry s = .next t) : Stays true s t := by
  unfold execImonTripHoldExpiry at h
  cases h
  try dsimp only
  repeat' first
    | with_reducible assumption
    | with_reducible apply State.advanceTo_stays
    | with_reducible exact Stays.refl _ _
    | split
    | (with_reducible apply Stays.fst; with_reducible assumption)
    | (with_reducible apply Stays.mk_ <;> first | (show Stays _ _ _; skip) | simp +contextual)
    | dsimp only

theorem execVidLowerCode_stays {s : State} {t : State}
    (h : execVidLowerCode s = .next t) : Stays true s t := by
  unfold execVidLowerCode at h
  cases h
  try dsimp only
  repeat' first
    | with_reducible assumption
    | with_reducible apply State.advanceTo_stays
    | with_reducible apply State.sendVid_stays
    | with_reducible exact Stays.refl _ _
    | split
    | (with_reducible apply Stays.fst; with_reducible assumption)
    | (with_reducible apply Stays.mk_ <;> first | (show Stays _ _ _; skip) | simp +contextual)
    | dsimp only

end Sys2Proof.Machine
end

