-- ==== Sys2Proof/Laws/ExecRefresh.lean ====
section
/-! SUPPORT. Laws/ExecRefresh.lean: what each command of Machine/Refresh.lean leaves when it answers a next state. -/
namespace Sys2Proof.Machine
set_option Elab.async false

theorem execPortRound_stays {slice : Nat} {port : Nat} {found : RoundFind} {s : State} {t : State}
    (h : execPortRound slice port found s = .next t) : Stays true s t := by
  unfold execPortRound at h
  replace h := fault_next h
  replace h := guardFound_next h
  cases h
  try dsimp only
  repeat' first
    | with_reducible assumption
    | with_reducible apply Stays.ite
    | with_reducible apply State.portRound_stays
    | with_reducible exact Stays.refl _ _
    | split
    | dsimp only

theorem execTrfRefresh_stays {slice : Nat} {bank : Nat} {found : List Found} {s : State} {t : State}
    (h : execTrfRefresh slice bank found s = .next t) : Stays true s t := by
  unfold execTrfRefresh at h
  replace h := fault_next h
  replace h := guardFound_next h
  cases h
  try dsimp only
  repeat' first
    | with_reducible assumption
    | intro _
    | with_reducible apply Stays.ite
    | with_reducible apply State.advanceTo_stays
    | with_reducible apply State.modPort_stays
    | with_reducible apply State.portRound_stays
    | with_reducible exact Stays.refl _ _
    | split
    | (with_reducible apply Stays.mk_ <;> first | (show Stays _ _ _; skip) | simp +contextual)
    | dsimp only

theorem execTrfRefreshUrgent_stays {slice : Nat} {bank : Nat} {found : List Found} {s : State} {t : State}
    (h : execTrfRefreshUrgent slice bank found s = .next t) : Stays true s t := by
  unfold execTrfRefreshUrgent at h
  replace h := fault_next h
  replace h := guardFound_next h
  cases h
  try dsimp only
  repeat' first
    | with_reducible assumption
    | intro _
    | with_reducible apply Stays.ite
    | with_reducible apply State.advanceTo_stays
    | with_reducible apply State.modPort_stays
    | with_reducible apply State.refreshBank_stays
    | with_reducible exact Stays.refl _ _
    | split
    | (with_reducible apply Stays.mk_ <;> first | (show Stays _ _ _; skip) | simp +contextual)
    | dsimp only

theorem execRefIntervalChange_stays {s : State} {t : State}
    (h : execRefIntervalChange s = .next t) : Stays true s t := by
  unfold execRefIntervalChange at h
  cases h
  try dsimp only
  repeat' first
    | with_reducible assumption
    | with_reducible apply Stays.ite
    | with_reducible apply State.advanceTo_stays
    | with_reducible apply State.newSweep_stays
    | with_reducible apply State.deviceEvent_stays
    | with_reducible exact Stays.refl _ _
    | split
    | (with_reducible apply Stays.fst; with_reducible assumption)
    | (with_reducible apply Stays.mk_ <;> first | (show Stays _ _ _; skip) | simp +contextual)
    | dsimp only

theorem execDebugTransfer_stays {slice : Nat} {line : Nat} {s : State} {t : State}
    (h : execDebugTransfer slice line s = .next t) : Stays true s t := by
  unfold execDebugTransfer at h
  replace h := fault_next h
  cases h
  try dsimp only
  repeat' first
    | with_reducible assumption
    | with_reducible apply Stays.ite
    | with_reducible apply State.advanceTo_stays
    | with_reducible apply State.chargeCore_stays
    | with_reducible exact Stays.refl _ _
    | split
    | (with_reducible apply Stays.fst; with_reducible assumption)
    | (with_reducible apply Stays.mk_ <;> first | (show Stays _ _ _; skip) | simp +contextual)
    | dsimp only

theorem execAllocatorRound_stays {slice : Nat} {s : State} {t : State}
    (h : execAllocatorRound slice s = .next t) : Stays true s t := by
  unfold execAllocatorRound at h
  replace h := fault_next h
  cases h
  try dsimp only
  repeat' first
    | with_reducible assumption
    | intro _
    | with_reducible apply Stays.ite
    | with_reducible apply State.modSlice_stays
    | with_reducible exact Stays.refl _ _
    | split
    | dsimp only

theorem execArrayStepStart_stays {quarter : Nat} {s : State} {t : State}
    (h : execArrayStepStart quarter s = .next t) : Stays true s t := by
  unfold execArrayStepStart at h
  replace h := fault_next h
  cases h
  try dsimp only
  repeat' first
    | with_reducible assumption
    | intro _
    | with_reducible apply Stays.ite
    | with_reducible apply State.modQuarter_stays
    | with_reducible exact Stays.refl _ _
    | split
    | (with_reducible apply Stays.mk_ <;> first | (show Stays _ _ _; skip) | simp +contextual)
    | dsimp only

theorem execBankRetire_stays {slice : Nat} {bank : Nat} {cause : Nat} {s : State} {t : State}
    (h : execBankRetire slice bank cause s = .next t) : Stays true s t := by
  unfold execBankRetire at h
  replace h := fault_next h
  cases h
  try dsimp only
  repeat' first
    | with_reducible assumption
    | intro _
    | with_reducible apply Stays.ite
    | with_reducible apply State.modSlice_stays
    | with_reducible apply State.bump_stays
    | with_reducible apply State.deviceEvent_stays
    | with_reducible exact Stays.refl _ _
    | split
    | (with_reducible apply Stays.fst; with_reducible assumption)
    | (with_reducible apply Stays.mk_ <;> first | (show Stays _ _ _; skip) | simp +contextual)
    | dsimp only

theorem execBankHandoverSwap_stays {slice : Nat} {s : State} {t : State}
    (h : execBankHandoverSwap slice s = .next t) : Stays true s t := by
  unfold execBankHandoverSwap at h
  replace h := fault_next h
  cases h
  try dsimp only
  repeat' first
    | with_reducible assumption
    | intro _
    | with_reducible apply Stays.ite
    | with_reducible apply State.modSlice_stays
    | with_reducible exact Stays.refl _ _
    | split
    | (with_reducible apply Stays.fst; with_reducible assumption)
    | (with_reducible apply Stays.mk_ <;> first | (show Stays _ _ _; skip) | simp +contextual)
    | dsimp only

theorem execBankEvacuate_stays {slice : Nat} {bank : Nat} {s : State} {t : State}
    (h : execBankEvacuate slice bank s = .next t) : Stays true s t := by
  unfold execBankEvacuate at h
  replace h := fault_next h
  cases h
  try dsimp only
  repeat' first
    | with_reducible assumption
    | intro _
    | with_reducible apply Stays.ite
    | with_reducible apply Stays.iteFst
    | with_reducible apply State.shrink_stays
    | with_reducible apply State.modSlice_stays
    | with_reducible apply State.bump_stays
    | with_reducible apply State.deviceEvent_stays
    | with_reducible apply State.refreshStat_stays
    | with_reducible exact Stays.refl _ _
    | (with_reducible apply Stays.foldl; intro _ _ _)
    | (with_reducible apply Stays.foldlFst; intro _ _ _)
    | split
    | (with_reducible apply Stays.fst; with_reducible assumption)
    | (with_reducible apply Stays.mk_ <;> first | (show Stays _ _ _; skip) | simp +contextual)
    | dsimp only

theorem execBankMarch_stays {slice : Nat} {bank : Nat} {ok : Bool} {s : State} {t : State}
    (h : execBankMarch slice bank ok s = .next t) : Stays true s t := by
  unfold execBankMarch at h
  replace h := fault_next h
  cases h
  try dsimp only
  repeat' first
    | with_reducible assumption
    | intro _
    | with_reducible apply Stays.ite
    | with_reducible apply State.modSlice_stays
    | with_reducible exact Stays.refl _ _
    | split
    | (with_reducible apply Stays.fst; with_reducible assumption)
    | (with_reducible apply Stays.mk_ <;> first | (show Stays _ _ _; skip) | simp +contextual)
    | dsimp only

theorem execBankReinstate_stays {slice : Nat} {bank : Nat} {s : State} {t : State}
    (h : execBankReinstate slice bank s = .next t) : Stays true s t := by
  unfold execBankReinstate at h
  replace h := fault_next h
  cases h
  try dsimp only
  repeat' first
    | with_reducible assumption
    | intro _
    | with_reducible apply Stays.ite
    | with_reducible apply State.deviceEvent_stays
    | with_reducible apply State.advanceTo_stays
    | with_reducible apply State.modSlice_stays
    | with_reducible apply State.reopenSlots_stays
    | with_reducible apply State.refreshStat_stays
    | with_reducible exact Stays.refl _ _
    | split
    | (with_reducible apply Stays.fst; with_reducible assumption)
    | (with_reducible apply Stays.mk_ <;> first | (show Stays _ _ _; skip) | simp +contextual)
    | dsimp only

end Sys2Proof.Machine
end

