-- ==== Sys2Proof/Laws/ExecRepair.lean ====
section
/-! SUPPORT. Laws/ExecRepair.lean: what each command of Machine/Repair.lean leaves when it answers a next state. -/
namespace Sys2Proof.Machine
set_option Elab.async false

theorem execRotationBoundary_stays {quarter : Nat} {runs : List Bool} {s : State} {t : State}
    (h : execRotationBoundary quarter runs s = .next t) : Stays true s t := by
  unfold execRotationBoundary at h
  replace h := fault_next h
  cases h
  try dsimp only
  repeat' first
    | with_reducible assumption
    | intro _
    | with_reducible apply Stays.ite
    | with_reducible apply State.advanceTo_stays
    | with_reducible apply State.darnPeriod_stays
    | with_reducible apply State.modRotation_stays
    | with_reducible apply State.boardPeriod_stays
    | with_reducible exact Stays.refl _ _
    | split
    | (with_reducible apply Stays.fst; with_reducible assumption)
    | (with_reducible apply Stays.mk_ <;> first | (show Stays _ _ _; skip) | simp +contextual)
    | dsimp only

theorem execShadowStep_stays {quarter : Nat} {s : State} {t : State}
    (h : execShadowStep quarter s = .next t) : Stays true s t := by
  unfold execShadowStep at h
  replace h := fault_next h
  cases h
  try dsimp only
  repeat' first
    | with_reducible assumption
    | intro _
    | with_reducible apply Stays.ite
    | with_reducible apply State.modRotation_stays
    | with_reducible exact Stays.refl _ _
    | split
    | (with_reducible apply Stays.mk_ <;> first | (show Stays _ _ _; skip) | simp +contextual)
    | dsimp only

theorem execShadowCompare_stays {quarter : Nat} {equal : Bool} {s : State} {t : State}
    (h : execShadowCompare quarter equal s = .next t) : Stays true s t := by
  unfold execShadowCompare at h
  replace h := fault_next h
  cases h
  try dsimp only
  repeat' first
    | with_reducible assumption
    | with_reducible apply Stays.ite
    | with_reducible apply State.reinstateCompare_stays
    | with_reducible apply State.boardCompare_stays
    | with_reducible exact Stays.refl _ _
    | split
    | (with_reducible apply Stays.fst; with_reducible assumption)
    | dsimp only

theorem execQuarterRemove_stays {quarter : Nat} {cause : Nat} {s : State} {t : State}
    (h : execQuarterRemove quarter cause s = .next t) : Stays true s t := by
  unfold execQuarterRemove at h
  replace h := fault_next h
  cases h
  try dsimp only
  repeat' first
    | with_reducible assumption
    | intro _
    | with_reducible apply Stays.ite
    | with_reducible apply State.modQuarter_stays
    | with_reducible apply State.deviceEvent_stays
    | with_reducible apply State.beginRemoval_stays
    | with_reducible apply State.finishRemoval_stays
    | with_reducible exact Stays.refl _ _
    | split
    | (with_reducible apply Stays.mk_ <;> first | (show Stays _ _ _; skip) | simp +contextual)
    | dsimp only

theorem execDebugBist_stays {findings : List Finding} {s : State} {t : State}
    (h : execDebugBist findings s = .next t) : Stays true s t := by
  unfold execDebugBist at h
  cases h
  try dsimp only
  repeat' first
    | with_reducible assumption
    | intro _
    | with_reducible apply Stays.ite
    | with_reducible apply State.deviceEvent_stays
    | with_reducible apply State.debugBist_stays
    | with_reducible exact Stays.refl _ _
    | split
    | (with_reducible apply Stays.fst; with_reducible assumption)
    | (with_reducible apply Stays.mk_ <;> first | (show Stays _ _ _; skip) | simp +contextual)
    | dsimp only

theorem execHealthRecord_stays {s : State} {t : State}
    (h : execHealthRecord s = .next t) : Stays true s t := by
  unfold execHealthRecord at h
  cases h
  try dsimp only
  repeat' first
    | with_reducible assumption
    | with_reducible apply Stays.ite
    | with_reducible apply State.advanceTo_stays
    | with_reducible apply State.imonEvent_stays
    | with_reducible apply State.deviceEventParts_stays
    | with_reducible exact Stays.refl _ _
    | split
    | (with_reducible apply Stays.fst; with_reducible assumption)
    | (with_reducible apply Stays.mk_ <;> first | (show Stays _ _ _; skip) | simp +contextual)
    | dsimp only

end Sys2Proof.Machine
end

