-- ==== Sys2Proof/Laws/ExecResidency.lean ====
section
/-! SUPPORT. Laws/ExecResidency.lean: what each command of Machine/Residency.lean leaves when it answers a next state. -/
namespace Sys2Proof.Machine
set_option Elab.async false

theorem execContextRebind_stays {ctx : Nat} {s : State} {t : State}
    (h : execContextRebind ctx s = .next t) : Stays true s t := by
  unfold execContextRebind at h
  replace h := fault_next h
  cases h
  try dsimp only
  repeat' first
    | with_reducible assumption
    | intro _
    | with_reducible apply Stays.ite
    | with_reducible apply State.takeRebind_stays
    | with_reducible apply State.rebindAway_stays
    | with_reducible apply State.modEntry_stays
    | with_reducible apply State.rebindNow_stays
    | with_reducible exact Stays.refl _ _
    | split
    | (with_reducible apply Stays.fst; with_reducible assumption)
    | (with_reducible apply Stays.mk_ <;> first | (show Stays _ _ _; skip) | simp +contextual)
    | dsimp only

theorem execCandidateSlot_stays {s : State} {t : State}
    (h : execCandidateSlot s = .next t) : Stays true s t := by
  unfold execCandidateSlot at h
  cases h
  try dsimp only
  repeat' first
    | with_reducible assumption
    | intro _
    | with_reducible apply Stays.ite
    | with_reducible apply Stays.iteFst
    | with_reducible apply State.tellWait_stays
    | with_reducible apply State.giveSlot_stays
    | with_reducible apply State.modEntry_stays
    | with_reducible apply State.queueInternal_stays
    | with_reducible apply State.displace_stays
    | with_reducible exact Stays.refl _ _
    | (with_reducible apply Stays.foldl; intro _ _ _)
    | (with_reducible apply Stays.foldlFst; intro _ _ _)
    | split
    | (with_reducible apply Stays.fst; with_reducible assumption)
    | (with_reducible apply Stays.mk_ <;> first | (show Stays _ _ _; skip) | simp +contextual)
    | dsimp only

end Sys2Proof.Machine
end

