-- ==== Sys2Proof/Laws/ExecRoutine.lean ====
section
/-! SUPPORT. Laws/ExecRoutine.lean: what each command of Machine/Routine.lean leaves when it answers a next state. -/
namespace Sys2Proof.Machine
set_option Elab.async false

theorem execTranslationWalk_stays {ctx : Nat} {va : Nat} {s : State} {t : State}
    (h : execTranslationWalk ctx va s = .next t) : Stays true s t := by
  unfold execTranslationWalk at h
  replace h := fault_next h
  cases h
  try dsimp only
  repeat' first
    | with_reducible assumption
    | intro _
    | with_reducible apply Stays.ite
    | with_reducible apply State.post_stays
    | with_reducible apply State.endWalk_stays
    | with_reducible apply State.routineFault_stays
    | with_reducible apply State.fillFromWalk_stays
    | with_reducible exact Stays.refl _ _
    | split
    | (with_reducible apply Stays.fst; with_reducible assumption)
    | dsimp only

end Sys2Proof.Machine
end

