-- ==== Sys2Proof/Laws/ExecSpill.lean ====
section
/-! SUPPORT. Laws/ExecSpill.lean: what each command of Machine/Spill.lean leaves when it answers a next state. -/
namespace Sys2Proof.Machine
set_option Elab.async false

theorem execSpl_stays {ctx : Nat} {found : List Found} {s : State} {t : State}
    (h : execSpl ctx found s = .next t) : Stays true s t := by
  unfold execSpl at h
  replace h := opCommand_next h
  cases h
  try dsimp only
  repeat' first
    | with_reducible assumption
    | intro _
    | with_reducible apply Stays.ite
    | with_reducible apply Stays.progIte
    | with_reducible apply Stays.go
    | with_reducible apply Stays.stop
    | with_reducible apply State.runOpWith_stays
    | with_reducible apply State.spillIssue_stays
    | with_reducible apply State.toCommit_stays
    | with_reducible apply State.spillRun_stays
    | with_reducible exact Stays.refl _ _
    | split
    | (with_reducible apply Stays.mk_ <;> first | (show Stays _ _ _; skip) | simp +contextual)
    | dsimp only

theorem execEvict_stays {ctx : Nat} {found : List Found} {s : State} {t : State}
    (h : execEvict ctx found s = .next t) : Stays true s t := by
  unfold execEvict at h
  replace h := fault_next h
  replace h := guardFound_next h
  cases h
  try dsimp only
  repeat' first
    | with_reducible assumption
    | intro _
    | with_reducible apply Stays.ite
    | with_reducible apply State.beginEvict_stays
    | with_reducible apply State.runInternal_stays
    | with_reducible apply State.spillIssue_stays
    | with_reducible apply State.spillRun_stays
    | with_reducible exact Stays.refl _ _
    | split
    | dsimp only

theorem execSaltDrawResume_stays {ctx : Nat} {s : State} {t : State}
    (h : execSaltDrawResume ctx s = .next t) : Stays true s t := by
  unfold execSaltDrawResume at h
  replace h := fault_next h
  cases h
  try dsimp only
  repeat' first
    | with_reducible assumption
    | intro _
    | with_reducible apply Stays.ite
    | with_reducible apply State.modJob_stays
    | with_reducible apply State.drawSalt_stays
    | with_reducible exact Stays.refl _ _
    | split
    | (with_reducible apply Stays.fst; with_reducible assumption)
    | (with_reducible apply Stays.mk_ <;> first | (show Stays _ _ _; skip) | simp +contextual)
    | dsimp only

theorem execRestore_stays {ctx : Nat} {found : List Found} {s : State} {t : State}
    (h : execRestore ctx found s = .next t) : Stays true s t := by
  unfold execRestore at h
  replace h := fault_next h
  replace h := guardFound_next h
  cases h
  try dsimp only
  repeat' first
    | with_reducible assumption
    | intro _
    | with_reducible apply Stays.ite
    | with_reducible apply State.beginRestore_stays
    | with_reducible apply State.runInternal_stays
    | with_reducible apply State.noteClaim_stays
    | with_reducible apply State.restoreRun_stays
    | with_reducible exact Stays.refl _ _
    | split
    | dsimp only

theorem execPark_stays {ctx : Nat} {found : List Found} {s : State} {t : State}
    (h : execPark ctx found s = .next t) : Stays true s t := by
  unfold execPark at h
  replace h := fault_next h
  replace h := guardFound_next h
  cases h
  try dsimp only
  repeat' first
    | with_reducible assumption
    | intro _
    | with_reducible apply Stays.ite
    | with_reducible apply State.runPark_stays
    | with_reducible exact Stays.refl _ _
    | split
    | (with_reducible apply Stays.fst; with_reducible assumption)
    | dsimp only

theorem execUnpark_stays {ctx : Nat} {found : List Found} {s : State} {t : State}
    (h : execUnpark ctx found s = .next t) : Stays true s t := by
  unfold execUnpark at h
  replace h := fault_next h
  replace h := guardFound_next h
  cases h
  try dsimp only
  repeat' first
    | with_reducible assumption
    | intro _
    | with_reducible apply Stays.ite
    | with_reducible apply Stays.iteFst
    | with_reducible apply State.runUnpark_stays
    | with_reducible exact Stays.refl _ _
    | split
    | (with_reducible apply Stays.fst; with_reducible assumption)
    | dsimp only

theorem execIsmove_stays {ctx : Nat} {found : List Found} {s : State} {t : State}
    (h : execIsmove ctx found s = .next t) : Stays true s t := by
  unfold execIsmove at h
  replace h := fault_next h
  replace h := guardFound_next h
  cases h
  try dsimp only
  repeat' first
    | with_reducible assumption
    | intro _
    | with_reducible apply Stays.ite
    | with_reducible apply State.modEntry_stays
    | with_reducible apply State.dropInternal_stays
    | with_reducible apply State.runIsmove_stays
    | with_reducible exact Stays.refl _ _
    | split
    | (with_reducible apply Stays.fst; with_reducible assumption)
    | (with_reducible apply Stays.mk_ <;> first | (show Stays _ _ _; skip) | simp +contextual)
    | dsimp only

end Sys2Proof.Machine
end

