-- ==== Sys2Proof/Laws/ExecSwitch.lean ====
section
/-! SUPPORT. Laws/ExecSwitch.lean: what each command of Machine/Switch.lean leaves when it answers a next state. -/
namespace Sys2Proof.Machine
set_option Elab.async false

theorem execPselSample_stays {value : Nat} {s : State} {t : State}
    (h : execPselSample value s = .next t) : Stays true s t := by
  unfold execPselSample at h
  cases h
  try dsimp only
  repeat' first
    | with_reducible assumption
    | with_reducible apply Stays.ite
    | with_reducible apply State.advanceTo_stays
    | with_reducible exact Stays.refl _ _
    | split
    | (with_reducible apply Stays.mk_ <;> first | (show Stays _ _ _; skip) | simp +contextual)
    | dsimp only

theorem execPselDebounceDone_stays {s : State} {t : State}
    (h : execPselDebounceDone s = .next t) : Stays true s t := by
  unfold execPselDebounceDone at h
  cases h
  try dsimp only
  repeat' first
    | with_reducible assumption
    | with_reducible apply Stays.ite
    | with_reducible apply State.advanceTo_stays
    | with_reducible exact Stays.refl _ _
    | split
    | (with_reducible apply Stays.fst; with_reducible assumption)
    | (with_reducible apply Stays.mk_ <;> first | (show Stays _ _ _; skip) | simp +contextual)
    | dsimp only

theorem execProfileSwitchStart_stays {s : State} {t : State}
    (h : execProfileSwitchStart s = .next t) : Stays true s t := by
  unfold execProfileSwitchStart at h
  cases h
  try dsimp only
  repeat' first
    | with_reducible assumption
    | with_reducible apply Stays.ite
    | with_reducible apply State.showStat_stays
    | with_reducible apply State.rejectEvent_stays
    | with_reducible apply State.refreshStat_stays
    | with_reducible exact Stays.refl _ _
    | split
    | (with_reducible apply Stays.fst; with_reducible assumption)
    | (with_reducible apply Stays.mk_ <;> first | (show Stays _ _ _; skip) | simp +contextual)
    | dsimp only

theorem execRinseStart_stays {returns : List (Nat × List Finding)} {s : State} {t : State}
    (h : execRinseStart returns s = .next t) : Stays true s t := by
  unfold execRinseStart at h
  cases h
  try dsimp only
  repeat' first
    | with_reducible assumption
    | intro _
    | with_reducible apply Stays.ite
    | with_reducible apply Stays.progIte
    | with_reducible apply Stays.iteFst
    | with_reducible apply Stays.go
    | with_reducible apply Stays.stop
    | with_reducible apply State.advanceTo_stays
    | with_reducible apply State.suspendProfile_stays
    | with_reducible apply State.rinsePreempt_stays
    | with_reducible apply State.abandonRestore_stays
    | with_reducible apply State.dropInternal_stays
    | with_reducible apply State.queueInternal_stays
    | with_reducible apply State.parkLeaving_stays
    | with_reducible apply State.rinseProgress_stays
    | with_reducible exact Stays.refl _ _
    | (with_reducible apply Stays.foldl; intro _ _ _)
    | (with_reducible apply Stays.foldlFst; intro _ _ _)
    | split
    | (with_reducible apply Stays.fst; with_reducible assumption)
    | (with_reducible apply Stays.mk_ <;> first | (show Stays _ _ _; skip) | simp +contextual)
    | dsimp only

theorem execRinseTimeout_stays {s : State} {t : State}
    (h : execRinseTimeout s = .next t) : Stays true s t := by
  unfold execRinseTimeout at h
  cases h
  try dsimp only
  repeat' first
    | with_reducible assumption
    | with_reducible apply Stays.ite
    | with_reducible apply State.advanceTo_stays
    | with_reducible apply State.abandonSwitch_stays
    | with_reducible exact Stays.refl _ _
    | split
    | dsimp only

theorem execVidSettleTimeout_stays {s : State} {t : State}
    (h : execVidSettleTimeout s = .next t) : Stays true s t := by
  unfold execVidSettleTimeout at h
  cases h
  try dsimp only
  repeat' first
    | with_reducible assumption
    | with_reducible apply Stays.ite
    | with_reducible apply State.advanceTo_stays
    | with_reducible apply State.abandonSwitch_stays
    | with_reducible exact Stays.refl _ _
    | split
    | (with_reducible apply Stays.fst; with_reducible assumption)
    | dsimp only

theorem execProfileApply_stays {s : State} {t : State}
    (h : execProfileApply s = .next t) : Stays false s t := by
  unfold execProfileApply at h
  cases h
  try dsimp only
  repeat' first
    | with_reducible assumption
    | intro _
    | with_reducible apply Stays.ite
    | with_reducible apply Stays.progIte
    | with_reducible apply Stays.go
    | with_reducible apply Stays.stop
    | with_reducible apply State.rinseProgress_stays
    | with_reducible apply State.abandonSwitch_stays
    | with_reducible apply State.applySwitch_stays
    | with_reducible exact Stays.refl _ _
    | split
    | (with_reducible apply Stays.fst; with_reducible assumption)
    | dsimp only

end Sys2Proof.Machine
end

