-- ==== Sys2Proof/Laws/ExecVector.lean ====
section
/-! SUPPORT. Laws/ExecVector.lean: what each command of Machine/Vector.lean leaves when it answers a next state. -/
namespace Sys2Proof.Machine
set_option Elab.async false

theorem execVad_stays {ctx : Nat} {found : List Found} {s : State} {t : State}
    (h : execVad ctx found s = .next t) : Stays true s t := by
  unfold execVad at h
  replace h := opCommand_next h
  cases h
  try dsimp only
  repeat' first
    | with_reducible assumption
    | with_reducible apply State.vecElem_stays
    | with_reducible exact Stays.refl _ _
    | dsimp only

theorem execVmu_stays {ctx : Nat} {found : List Found} {s : State} {t : State}
    (h : execVmu ctx found s = .next t) : Stays true s t := by
  unfold execVmu at h
  replace h := opCommand_next h
  cases h
  try dsimp only
  repeat' first
    | with_reducible assumption
    | with_reducible apply State.vecElem_stays
    | with_reducible exact Stays.refl _ _
    | dsimp only

theorem execVmx_stays {ctx : Nat} {found : List Found} {s : State} {t : State}
    (h : execVmx ctx found s = .next t) : Stays true s t := by
  unfold execVmx at h
  replace h := opCommand_next h
  cases h
  try dsimp only
  repeat' first
    | with_reducible assumption
    | with_reducible apply State.vecElem_stays
    | with_reducible exact Stays.refl _ _
    | dsimp only

theorem execVmn_stays {ctx : Nat} {found : List Found} {s : State} {t : State}
    (h : execVmn ctx found s = .next t) : Stays true s t := by
  unfold execVmn at h
  replace h := opCommand_next h
  cases h
  try dsimp only
  repeat' first
    | with_reducible assumption
    | with_reducible apply State.vecElem_stays
    | with_reducible exact Stays.refl _ _
    | dsimp only

theorem execVsc_stays {ctx : Nat} {found : List Found} {s : State} {t : State}
    (h : execVsc ctx found s = .next t) : Stays true s t := by
  unfold execVsc at h
  replace h := opCommand_next h
  cases h
  try dsimp only
  repeat' first
    | with_reducible assumption
    | with_reducible apply State.vecElem_stays
    | with_reducible exact Stays.refl _ _
    | dsimp only

theorem execVex_stays {ctx : Nat} {found : List Found} {s : State} {t : State}
    (h : execVex ctx found s = .next t) : Stays true s t := by
  unfold execVex at h
  replace h := opCommand_next h
  cases h
  try dsimp only
  repeat' first
    | with_reducible assumption
    | with_reducible apply State.vecElem_stays
    | with_reducible exact Stays.refl _ _
    | dsimp only

theorem execVrc_stays {ctx : Nat} {found : List Found} {s : State} {t : State}
    (h : execVrc ctx found s = .next t) : Stays true s t := by
  unfold execVrc at h
  replace h := opCommand_next h
  cases h
  try dsimp only
  repeat' first
    | with_reducible assumption
    | with_reducible apply State.vecElem_stays
    | with_reducible exact Stays.refl _ _
    | dsimp only

theorem execVrs_stays {ctx : Nat} {found : List Found} {s : State} {t : State}
    (h : execVrs ctx found s = .next t) : Stays true s t := by
  unfold execVrs at h
  replace h := opCommand_next h
  cases h
  try dsimp only
  repeat' first
    | with_reducible assumption
    | with_reducible apply State.vecElem_stays
    | with_reducible exact Stays.refl _ _
    | dsimp only

theorem execVtr_stays {ctx : Nat} {found : List Found} {s : State} {t : State}
    (h : execVtr ctx found s = .next t) : Stays true s t := by
  unfold execVtr at h
  replace h := opCommand_next h
  cases h
  try dsimp only
  repeat' first
    | with_reducible assumption
    | with_reducible apply State.vecElem_stays
    | with_reducible exact Stays.refl _ _
    | dsimp only

theorem execVrq_stays {ctx : Nat} {found : List Found} {s : State} {t : State}
    (h : execVrq ctx found s = .next t) : Stays true s t := by
  unfold execVrq at h
  replace h := opCommand_next h
  cases h
  try dsimp only
  repeat' first
    | with_reducible assumption
    | with_reducible apply State.vecElem_stays
    | with_reducible exact Stays.refl _ _
    | dsimp only

theorem execVrr_stays {ctx : Nat} {found : List Found} {s : State} {t : State}
    (h : execVrr ctx found s = .next t) : Stays true s t := by
  unfold execVrr at h
  replace h := opCommand_next h
  cases h
  try dsimp only
  repeat' first
    | with_reducible assumption
    | with_reducible apply State.vecRow_stays
    | with_reducible exact Stays.refl _ _
    | dsimp only

theorem execSmx_stays {ctx : Nat} {found : List Found} {s : State} {t : State}
    (h : execSmx ctx found s = .next t) : Stays true s t := by
  unfold execSmx at h
  replace h := opCommand_next h
  cases h
  try dsimp only
  repeat' first
    | with_reducible assumption
    | intro _
    | with_reducible apply State.vecRow_stays
    | with_reducible exact Stays.refl _ _
    | dsimp only

theorem execNrm_stays {ctx : Nat} {found : List Found} {s : State} {t : State}
    (h : execNrm ctx found s = .next t) : Stays true s t := by
  unfold execNrm at h
  replace h := opCommand_next h
  cases h
  try dsimp only
  repeat' first
    | with_reducible assumption
    | intro _
    | with_reducible apply State.vecRow_stays
    | with_reducible exact Stays.refl _ _
    | dsimp only

end Sys2Proof.Machine
end

