-- ==== Sys2Proof/Laws/PerInstr.lean ====
section
/-! SUPPORT. Laws/PerInstr.lean: of every command, that well-formedness covers each unit that it names. -/
namespace Sys2Proof.Laws.WellFormedLaw

/-- A well-formed command names only units that the part has. -/
def Statement (i : Instr) : Prop := i.wf = true → ∀ u ∈ i.units, u.present = true

/-- The law, of any command. -/
theorem of_units (i : Instr) : Statement i := fun h u hu => List.all_eq_true.mp h u hu

theorem pwrgoodFall : Statement .pwrgoodFall := of_units _
theorem resetAssert : Statement .resetAssert := of_units _
theorem resetRelease : ∀ selfRefreshed, Statement (.resetRelease selfRefreshed) := fun _ => of_units _
theorem strapLatch : ∀ boot remapEn sealLocal pselLink testmode fuseOk trngOk, Statement (.strapLatch boot remapEn sealLocal pselLink testmode fuseOk trngOk) := fun _ _ _ _ _ _ _ => of_units _
theorem levelPinMeasure : ∀ samples, Statement (.levelPinMeasure samples) := fun _ => of_units _
theorem pllsLocked : Statement .pllsLocked := of_units _
theorem flashSfdpRead : ∀ found, Statement (.flashSfdpRead found) := fun _ => of_units _
theorem holdCleared : Statement .holdCleared := of_units _
theorem imageCopyVerify : ∀ readOk copy, Statement (.imageCopyVerify readOk copy) := fun _ _ => of_units _
theorem microRamRemap : Statement .microRamRemap := of_units _
theorem bist : ∀ findings, Statement (.bist findings) := fun _ => of_units _
theorem bringupApply : ∀ reached romReached, Statement (.bringupApply reached romReached) := fun _ _ => of_units _
theorem hbmTraining : ∀ attempts repaired, Statement (.hbmTraining attempts repaired) := fun _ _ => of_units _
theorem hbmInitialise : Statement .hbmInitialise := of_units _
theorem fabricTrainingEnd : Statement .fabricTrainingEnd := of_units _
theorem readiness : Statement .readiness := of_units _
theorem bringupPhaseTimeout : Statement .bringupPhaseTimeout := of_units _
theorem statHoldExpiry : Statement .statHoldExpiry := of_units _
theorem pllLockLoss : ∀ core, Statement (.pllLockLoss core) := fun _ => of_units _
theorem sdrefclkLoss : ∀ quad, Statement (.sdrefclkLoss quad) := fun _ => of_units _
theorem energyInterval : Statement .energyInterval := of_units _
theorem powerStepDecision : ∀ quarters, Statement (.powerStepDecision quarters) := fun _ => of_units _
theorem imonSample : ∀ halfAmps, Statement (.imonSample halfAmps) := fun _ => of_units _
theorem imonTripHoldExpiry : Statement .imonTripHoldExpiry := of_units _
theorem thermalCeilingUpdate : Statement .thermalCeilingUpdate := of_units _
theorem staticBandEval : Statement .staticBandEval := of_units _
theorem sensorSample : ∀ readings failed, Statement (.sensorSample readings failed) := fun _ _ => of_units _
theorem hbmTemperatureRead : ∀ readings failed, Statement (.hbmTemperatureRead readings failed) := fun _ _ => of_units _
theorem vidSettleTimeout : Statement .vidSettleTimeout := of_units _
theorem vidLowerCode : Statement .vidLowerCode := of_units _
theorem trfRefresh : ∀ slice bank found, Statement (.trfRefresh slice bank found) := fun _ _ _ => of_units _
theorem trfRefreshUrgent : ∀ slice bank found, Statement (.trfRefreshUrgent slice bank found) := fun _ _ _ => of_units _
theorem refIntervalChange : Statement .refIntervalChange := of_units _
theorem bankRetire : ∀ slice bank cause, Statement (.bankRetire slice bank cause) := fun _ _ _ => of_units _
theorem bankHandoverSwap : ∀ slice, Statement (.bankHandoverSwap slice) := fun _ => of_units _
theorem bankEvacuate : ∀ slice bank, Statement (.bankEvacuate slice bank) := fun _ _ => of_units _
theorem bankMarch : ∀ slice bank ok, Statement (.bankMarch slice bank ok) := fun _ _ _ => of_units _
theorem bankReinstate : ∀ slice bank, Statement (.bankReinstate slice bank) := fun _ _ => of_units _
theorem portRound : ∀ slice port found, Statement (.portRound slice port found) := fun _ _ _ => of_units _
theorem debugTransfer : ∀ slice line, Statement (.debugTransfer slice line) := fun _ _ => of_units _
theorem allocatorRound : ∀ slice, Statement (.allocatorRound slice) := fun _ => of_units _
theorem arrayStepStart : ∀ quarter, Statement (.arrayStepStart quarter) := fun _ => of_units _
theorem fabricTargetRound : ∀ target path words, Statement (.fabricTargetRound target path words) := fun _ _ _ => of_units _
theorem hbmReadReturn : ∀ txn errs, Statement (.hbmReadReturn txn errs) := fun _ _ => of_units _
theorem hbmBankRefresh : ∀ dram, Statement (.hbmBankRefresh dram) := fun _ => of_units _
theorem hbmRetrain : Statement .hbmRetrain := of_units _
theorem hbmScrubRead : ∀ stack corrected bad, Statement (.hbmScrubRead stack corrected bad) := fun _ _ _ => of_units _
theorem storeScrub : ∀ found, Statement (.storeScrub found) := fun _ => of_units _
theorem trngRefill : Statement .trngRefill := of_units _
theorem saltDrawResume : ∀ ctx, Statement (.saltDrawResume ctx) := fun _ => of_units _
theorem oprReceive : ∀ link pkt, Statement (.oprReceive link pkt) := fun _ _ => of_units _
theorem nop : ∀ ctx found, Statement (.nop ctx found) := fun _ _ => of_units _
theorem att : ∀ ctx found, Statement (.att ctx found) := fun _ _ => of_units _
theorem det : ∀ ctx found, Statement (.det ctx found) := fun _ _ => of_units _
theorem spl : ∀ ctx found, Statement (.spl ctx found) := fun _ _ => of_units _
theorem frm : ∀ ctx found, Statement (.frm ctx found) := fun _ _ => of_units _
theorem fnc : ∀ ctx found, Statement (.fnc ctx found) := fun _ _ => of_units _
theorem ntf : ∀ ctx found, Statement (.ntf ctx found) := fun _ _ => of_units _
theorem ldt : ∀ ctx found, Statement (.ldt ctx found) := fun _ _ => of_units _
theorem stt : ∀ ctx found, Statement (.stt ctx found) := fun _ _ => of_units _
theorem cpt : ∀ ctx found, Statement (.cpt ctx found) := fun _ _ => of_units _
theorem zrt : ∀ ctx found, Statement (.zrt ctx found) := fun _ _ => of_units _
theorem rls : ∀ ctx found, Statement (.rls ctx found) := fun _ _ => of_units _
theorem aop : ∀ ctx found, Statement (.aop ctx found) := fun _ _ => of_units _
theorem acl : ∀ ctx found, Statement (.acl ctx found) := fun _ _ => of_units _
theorem mma : ∀ ctx found, Statement (.mma ctx found) := fun _ _ => of_units _
theorem mms : ∀ ctx found, Statement (.mms ctx found) := fun _ _ => of_units _
theorem asd : ∀ ctx found, Statement (.asd ctx found) := fun _ _ => of_units _
theorem adr : ∀ ctx found, Statement (.adr ctx found) := fun _ _ => of_units _
theorem vad : ∀ ctx found, Statement (.vad ctx found) := fun _ _ => of_units _
theorem vmu : ∀ ctx found, Statement (.vmu ctx found) := fun _ _ => of_units _
theorem vmx : ∀ ctx found, Statement (.vmx ctx found) := fun _ _ => of_units _
theorem vmn : ∀ ctx found, Statement (.vmn ctx found) := fun _ _ => of_units _
theorem vsc : ∀ ctx found, Statement (.vsc ctx found) := fun _ _ => of_units _
theorem vex : ∀ ctx found, Statement (.vex ctx found) := fun _ _ => of_units _
theorem vrc : ∀ ctx found, Statement (.vrc ctx found) := fun _ _ => of_units _
theorem vrs : ∀ ctx found, Statement (.vrs ctx found) := fun _ _ => of_units _
theorem vrr : ∀ ctx found, Statement (.vrr ctx found) := fun _ _ => of_units _
theorem vtr : ∀ ctx found, Statement (.vtr ctx found) := fun _ _ => of_units _
theorem vrq : ∀ ctx found, Statement (.vrq ctx found) := fun _ _ => of_units _
theorem smx : ∀ ctx found, Statement (.smx ctx found) := fun _ _ => of_units _
theorem nrm : ∀ ctx found, Statement (.nrm ctx found) := fun _ _ => of_units _
theorem translationWalk : ∀ ctx va, Statement (.translationWalk ctx va) := fun _ _ => of_units _
theorem segmentCommit : ∀ quarter track held, Statement (.segmentCommit quarter track held) := fun _ _ _ => of_units _
theorem operationComplete : ∀ ctx, Statement (.operationComplete ctx) := fun _ => of_units _
theorem park : ∀ ctx found, Statement (.park ctx found) := fun _ _ => of_units _
theorem unpark : ∀ ctx found, Statement (.unpark ctx found) := fun _ _ => of_units _
theorem evict : ∀ ctx found, Statement (.evict ctx found) := fun _ _ => of_units _
theorem restore : ∀ ctx found, Statement (.restore ctx found) := fun _ _ => of_units _
theorem ismove : ∀ ctx found, Statement (.ismove ctx found) := fun _ _ => of_units _
theorem candidateSlot : Statement .candidateSlot := of_units _
theorem contextRebind : ∀ ctx, Statement (.contextRebind ctx) := fun _ => of_units _
theorem periodStart : Statement .periodStart := of_units _
theorem frameDeadline : ∀ ctx, Statement (.frameDeadline ctx) := fun _ => of_units _
theorem flitTransmit : ∀ link, Statement (.flitTransmit link) := fun _ => of_units _
theorem flitReceive : ∀ link flit, Statement (.flitReceive link flit) := fun _ _ => of_units _
theorem retryReqReceive : ∀ link flit, Statement (.retryReqReceive link flit) := fun _ _ => of_units _
theorem retryReqRepeat : ∀ link, Statement (.retryReqRepeat link) := fun _ => of_units _
theorem idleFlitSend : ∀ link, Statement (.idleFlitSend link) := fun _ => of_units _
theorem replayTimeout : ∀ link, Statement (.replayTimeout link) := fun _ => of_units _
theorem replayLimit : ∀ link, Statement (.replayLimit link) := fun _ => of_units _
theorem creditStallTimeout : ∀ link, Statement (.creditStallTimeout link) := fun _ => of_units _
theorem linkStateTimeout : Statement .linkStateTimeout := of_units _
theorem moduleActiveChange : ∀ mask, Statement (.moduleActiveChange mask) := fun _ => of_units _
theorem moduleRetrain : ∀ module, Statement (.moduleRetrain module) := fun _ => of_units _
theorem initReceive : ∀ link flit, Statement (.initReceive link flit) := fun _ _ => of_units _
theorem initDoneReceive : ∀ link flit, Statement (.initDoneReceive link flit) := fun _ _ => of_units _
theorem mrd : ∀ link pkt, Statement (.mrd link pkt) := fun _ _ => of_units _
theorem mwr : ∀ link pkt, Statement (.mwr link pkt) := fun _ _ => of_units _
theorem mfa : ∀ link pkt, Statement (.mfa link pkt) := fun _ _ => of_units _
theorem mcs : ∀ link pkt, Statement (.mcs link pkt) := fun _ _ => of_units _
theorem rwr : ∀ link pkt, Statement (.rwr link pkt) := fun _ _ => of_units _
theorem cpldReceive : ∀ link pkt, Statement (.cpldReceive link pkt) := fun _ _ => of_units _
theorem cplReceive : ∀ link pkt, Statement (.cplReceive link pkt) := fun _ _ => of_units _
theorem hostCompletionTimeout : ∀ tag, Statement (.hostCompletionTimeout tag) := fun _ => of_units _
theorem fabricCompletionTimeout : ∀ link tag, Statement (.fabricCompletionTimeout link tag) := fun _ _ => of_units _
theorem tagHoldExpiry : ∀ link tag, Statement (.tagHoldExpiry link tag) := fun _ _ => of_units _
theorem sealPacket : ∀ link pkt, Statement (.sealPacket link pkt) := fun _ _ => of_units _
theorem ringPacket : ∀ link pkt, Statement (.ringPacket link pkt) := fun _ _ => of_units _
theorem profilePacket : ∀ link pkt, Statement (.profilePacket link pkt) := fun _ _ => of_units _
theorem timePacket : ∀ link pkt, Statement (.timePacket link pkt) := fun _ _ => of_units _
theorem haltPacket : ∀ link pkt, Statement (.haltPacket link pkt) := fun _ _ => of_units _
theorem haltCack : Statement .haltCack := of_units _
theorem resumePacket : ∀ link pkt, Statement (.resumePacket link pkt) := fun _ _ => of_units _
theorem linkViolationReport : Statement .linkViolationReport := of_units _
theorem fpTrainingFrame : ∀ port frames, Statement (.fpTrainingFrame port frames) := fun _ _ => of_units _
theorem fpCodedStreamStart : ∀ port, Statement (.fpCodedStreamStart port) := fun _ => of_units _
theorem fpMarkerLock : ∀ port marks, Statement (.fpMarkerLock port marks) := fun _ _ => of_units _
theorem fpStateChange : ∀ port, Statement (.fpStateChange port) := fun _ => of_units _
theorem fpStateTimeout : ∀ port, Statement (.fpStateTimeout port) := fun _ => of_units _
theorem fpFailedRetry : ∀ port, Statement (.fpFailedRetry port) := fun _ => of_units _
theorem fpUeRateRetrain : ∀ port count corrected, Statement (.fpUeRateRetrain port count corrected) := fun _ _ _ => of_units _
theorem fpLaneFail : ∀ port lane, Statement (.fpLaneFail port lane) := fun _ _ => of_units _
theorem width : ∀ port flit, Statement (.width port flit) := fun _ _ => of_units _
theorem widthSwitch : ∀ port, Statement (.widthSwitch port) := fun _ => of_units _
theorem fpLaneRetrain : ∀ port lane frames, Statement (.fpLaneRetrain port lane frames) := fun _ _ _ => of_units _
theorem fpLaneBerRemove : ∀ port lane, Statement (.fpLaneBerRemove port lane) := fun _ _ => of_units _
theorem packetForward : Statement .packetForward := of_units _
theorem forwardHoldExpiry : Statement .forwardHoldExpiry := of_units _
theorem pinLapse : ∀ index, Statement (.pinLapse index) := fun _ => of_units _
theorem streamEpochResume : ∀ dest, Statement (.streamEpochResume dest) := fun _ => of_units _
theorem pselSample : ∀ value, Statement (.pselSample value) := fun _ => of_units _
theorem pselDebounceDone : Statement .pselDebounceDone := of_units _
theorem profileSwitchStart : Statement .profileSwitchStart := of_units _
theorem rinseStart : ∀ returns, Statement (.rinseStart returns) := fun _ => of_units _
theorem rinseTimeout : Statement .rinseTimeout := of_units _
theorem profileApply : Statement .profileApply := of_units _
theorem rotationBoundary : ∀ quarter runs, Statement (.rotationBoundary quarter runs) := fun _ _ => of_units _
theorem shadowStep : ∀ quarter, Statement (.shadowStep quarter) := fun _ => of_units _
theorem shadowCompare : ∀ quarter equal, Statement (.shadowCompare quarter equal) := fun _ _ => of_units _
theorem quarterRemove : ∀ quarter cause, Statement (.quarterRemove quarter cause) := fun _ _ => of_units _
theorem debugBist : ∀ findings, Statement (.debugBist findings) := fun _ => of_units _
theorem healthRecord : Statement .healthRecord := of_units _
theorem pwrgoodRise : Statement .pwrgoodRise := of_units _
theorem handshakeEntry : Statement .handshakeEntry := of_units _
theorem jtagHaltInstrument : ∀ qmask set, Statement (.jtagHaltInstrument qmask set) := fun _ _ => of_units _

end Sys2Proof.Laws.WellFormedLaw
end

