-- ==== Sys2Proof/Laws/State.lean ====
section
/-! SUPPORT. Laws/State.lean: what each plain update of the state leaves, field by field, and what a part reads after an update of it. -/
namespace Sys2Proof.Machine
set_option Elab.async false

@[simp] theorem State.modQuarter_pending (s : State) (q : Nat) (f : Quarter → Quarter) : (s.modQuarter q f).pending = s.pending := rfl
@[simp] theorem State.modQuarter_now (s : State) (q : Nat) (f : Quarter → Quarter) : (s.modQuarter q f).now = s.now := rfl
@[simp] theorem State.modQuarter_tbOffset (s : State) (q : Nat) (f : Quarter → Quarter) : (s.modQuarter q f).tbOffset = s.tbOffset := rfl
@[simp] theorem State.modQuarter_slices (s : State) (q : Nat) (f : Quarter → Quarter) : (s.modQuarter q f).slices = s.slices := rfl
@[simp] theorem State.modQuarter_ports (s : State) (q : Nat) (f : Quarter → Quarter) : (s.modQuarter q f).ports = s.ports := rfl
@[simp] theorem State.modQuarter_refresh (s : State) (q : Nat) (f : Quarter → Quarter) : (s.modQuarter q f).refresh = s.refresh := rfl
@[simp] theorem State.modQuarter_entries (s : State) (q : Nat) (f : Quarter → Quarter) : (s.modQuarter q f).entries = s.entries := rfl
@[simp] theorem State.modQuarter_internal (s : State) (q : Nat) (f : Quarter → Quarter) : (s.modQuarter q f).internal = s.internal := rfl
@[simp] theorem State.modQuarter_candidates (s : State) (q : Nat) (f : Quarter → Quarter) : (s.modQuarter q f).candidates = s.candidates := rfl
@[simp] theorem State.modQuarter_fabric (s : State) (q : Nat) (f : Quarter → Quarter) : (s.modQuarter q f).fabric = s.fabric := rfl
@[simp] theorem State.modQuarter_hbm (s : State) (q : Nat) (f : Quarter → Quarter) : (s.modQuarter q f).hbm = s.hbm := rfl
@[simp] theorem State.modQuarter_links (s : State) (q : Nat) (f : Quarter → Quarter) : (s.modQuarter q f).links = s.links := rfl
@[simp] theorem State.modQuarter_straps (s : State) (q : Nat) (f : Quarter → Quarter) : (s.modQuarter q f).straps = s.straps := rfl
@[simp] theorem State.modQuarter_levels (s : State) (q : Nat) (f : Quarter → Quarter) : (s.modQuarter q f).levels = s.levels := rfl
@[simp] theorem State.modQuarter_fuses (s : State) (q : Nat) (f : Quarter → Quarter) : (s.modQuarter q f).fuses = s.fuses := rfl
@[simp] theorem State.modQuarter_boot (s : State) (q : Nat) (f : Quarter → Quarter) : (s.modQuarter q f).boot = s.boot := rfl
@[simp] theorem State.modQuarter_stores (s : State) (q : Nat) (f : Quarter → Quarter) : (s.modQuarter q f).stores = s.stores := rfl
@[simp] theorem State.modQuarter_profile (s : State) (q : Nat) (f : Quarter → Quarter) : (s.modQuarter q f).profile = s.profile := rfl
@[simp] theorem State.modQuarter_profNum (s : State) (q : Nat) (f : Quarter → Quarter) : (s.modQuarter q f).profNum = s.profNum := rfl
@[simp] theorem State.modQuarter_profRom (s : State) (q : Nat) (f : Quarter → Quarter) : (s.modQuarter q f).profRom = s.profRom := rfl
@[simp] theorem State.modQuarter_pepoch (s : State) (q : Nat) (f : Quarter → Quarter) : (s.modQuarter q f).pepoch = s.pepoch := rfl
@[simp] theorem State.modQuarter_profStore (s : State) (q : Nat) (f : Quarter → Quarter) : (s.modQuarter q f).profStore = s.profStore := rfl
@[simp] theorem State.modQuarter_switch (s : State) (q : Nat) (f : Quarter → Quarter) : (s.modQuarter q f).switch = s.switch := rfl
@[simp] theorem State.modQuarter_period (s : State) (q : Nat) (f : Quarter → Quarter) : (s.modQuarter q f).period = s.period := rfl
@[simp] theorem State.modQuarter_periodAt (s : State) (q : Nat) (f : Quarter → Quarter) : (s.modQuarter q f).periodAt = s.periodAt := rfl
@[simp] theorem State.modQuarter_oldHz (s : State) (q : Nat) (f : Quarter → Quarter) : (s.modQuarter q f).oldHz = s.oldHz := rfl
@[simp] theorem State.modQuarter_sealKey (s : State) (q : Nat) (f : Quarter → Quarter) : (s.modQuarter q f).sealKey = s.sealKey := rfl
@[simp] theorem State.modQuarter_sealUsed (s : State) (q : Nat) (f : Quarter → Quarter) : (s.modQuarter q f).sealUsed = s.sealUsed := rfl
@[simp] theorem State.modQuarter_ring (s : State) (q : Nat) (f : Quarter → Quarter) : (s.modQuarter q f).ring = s.ring := rfl
@[simp] theorem State.modQuarter_health (s : State) (q : Nat) (f : Quarter → Quarter) : (s.modQuarter q f).health = s.health := rfl
@[simp] theorem State.modQuarter_power (s : State) (q : Nat) (f : Quarter → Quarter) : (s.modQuarter q f).power = s.power := rfl
@[simp] theorem State.modQuarter_thermal (s : State) (q : Nat) (f : Quarter → Quarter) : (s.modQuarter q f).thermal = s.thermal := rfl
@[simp] theorem State.modQuarter_instruments (s : State) (q : Nat) (f : Quarter → Quarter) : (s.modQuarter q f).instruments = s.instruments := rfl
@[simp] theorem State.modQuarter_free (s : State) (q : Nat) (f : Quarter → Quarter) : (s.modQuarter q f).free = s.free := rfl

@[simp] theorem State.modSlice_pending (s : State) (i : Nat) (f : Slice → Slice) : (s.modSlice i f).pending = s.pending := rfl
@[simp] theorem State.modSlice_now (s : State) (i : Nat) (f : Slice → Slice) : (s.modSlice i f).now = s.now := rfl
@[simp] theorem State.modSlice_tbOffset (s : State) (i : Nat) (f : Slice → Slice) : (s.modSlice i f).tbOffset = s.tbOffset := rfl
@[simp] theorem State.modSlice_ports (s : State) (i : Nat) (f : Slice → Slice) : (s.modSlice i f).ports = s.ports := rfl
@[simp] theorem State.modSlice_refresh (s : State) (i : Nat) (f : Slice → Slice) : (s.modSlice i f).refresh = s.refresh := rfl
@[simp] theorem State.modSlice_quarters (s : State) (i : Nat) (f : Slice → Slice) : (s.modSlice i f).quarters = s.quarters := rfl
@[simp] theorem State.modSlice_entries (s : State) (i : Nat) (f : Slice → Slice) : (s.modSlice i f).entries = s.entries := rfl
@[simp] theorem State.modSlice_internal (s : State) (i : Nat) (f : Slice → Slice) : (s.modSlice i f).internal = s.internal := rfl
@[simp] theorem State.modSlice_candidates (s : State) (i : Nat) (f : Slice → Slice) : (s.modSlice i f).candidates = s.candidates := rfl
@[simp] theorem State.modSlice_fabric (s : State) (i : Nat) (f : Slice → Slice) : (s.modSlice i f).fabric = s.fabric := rfl
@[simp] theorem State.modSlice_hbm (s : State) (i : Nat) (f : Slice → Slice) : (s.modSlice i f).hbm = s.hbm := rfl
@[simp] theorem State.modSlice_links (s : State) (i : Nat) (f : Slice → Slice) : (s.modSlice i f).links = s.links := rfl
@[simp] theorem State.modSlice_straps (s : State) (i : Nat) (f : Slice → Slice) : (s.modSlice i f).straps = s.straps := rfl
@[simp] theorem State.modSlice_levels (s : State) (i : Nat) (f : Slice → Slice) : (s.modSlice i f).levels = s.levels := rfl
@[simp] theorem State.modSlice_fuses (s : State) (i : Nat) (f : Slice → Slice) : (s.modSlice i f).fuses = s.fuses := rfl
@[simp] theorem State.modSlice_boot (s : State) (i : Nat) (f : Slice → Slice) : (s.modSlice i f).boot = s.boot := rfl
@[simp] theorem State.modSlice_stores (s : State) (i : Nat) (f : Slice → Slice) : (s.modSlice i f).stores = s.stores := rfl
@[simp] theorem State.modSlice_profile (s : State) (i : Nat) (f : Slice → Slice) : (s.modSlice i f).profile = s.profile := rfl
@[simp] theorem State.modSlice_profNum (s : State) (i : Nat) (f : Slice → Slice) : (s.modSlice i f).profNum = s.profNum := rfl
@[simp] theorem State.modSlice_profRom (s : State) (i : Nat) (f : Slice → Slice) : (s.modSlice i f).profRom = s.profRom := rfl
@[simp] theorem State.modSlice_pepoch (s : State) (i : Nat) (f : Slice → Slice) : (s.modSlice i f).pepoch = s.pepoch := rfl
@[simp] theorem State.modSlice_profStore (s : State) (i : Nat) (f : Slice → Slice) : (s.modSlice i f).profStore = s.profStore := rfl
@[simp] theorem State.modSlice_switch (s : State) (i : Nat) (f : Slice → Slice) : (s.modSlice i f).switch = s.switch := rfl
@[simp] theorem State.modSlice_period (s : State) (i : Nat) (f : Slice → Slice) : (s.modSlice i f).period = s.period := rfl
@[simp] theorem State.modSlice_periodAt (s : State) (i : Nat) (f : Slice → Slice) : (s.modSlice i f).periodAt = s.periodAt := rfl
@[simp] theorem State.modSlice_oldHz (s : State) (i : Nat) (f : Slice → Slice) : (s.modSlice i f).oldHz = s.oldHz := rfl
@[simp] theorem State.modSlice_sealKey (s : State) (i : Nat) (f : Slice → Slice) : (s.modSlice i f).sealKey = s.sealKey := rfl
@[simp] theorem State.modSlice_sealUsed (s : State) (i : Nat) (f : Slice → Slice) : (s.modSlice i f).sealUsed = s.sealUsed := rfl
@[simp] theorem State.modSlice_ring (s : State) (i : Nat) (f : Slice → Slice) : (s.modSlice i f).ring = s.ring := rfl
@[simp] theorem State.modSlice_health (s : State) (i : Nat) (f : Slice → Slice) : (s.modSlice i f).health = s.health := rfl
@[simp] theorem State.modSlice_power (s : State) (i : Nat) (f : Slice → Slice) : (s.modSlice i f).power = s.power := rfl
@[simp] theorem State.modSlice_thermal (s : State) (i : Nat) (f : Slice → Slice) : (s.modSlice i f).thermal = s.thermal := rfl
@[simp] theorem State.modSlice_instruments (s : State) (i : Nat) (f : Slice → Slice) : (s.modSlice i f).instruments = s.instruments := rfl
@[simp] theorem State.modSlice_free (s : State) (i : Nat) (f : Slice → Slice) : (s.modSlice i f).free = s.free := rfl

@[simp] theorem State.modPort_pending (s : State) (i p : Nat) (f : Port → Port) : (s.modPort i p f).pending = s.pending := rfl
@[simp] theorem State.modPort_now (s : State) (i p : Nat) (f : Port → Port) : (s.modPort i p f).now = s.now := rfl
@[simp] theorem State.modPort_tbOffset (s : State) (i p : Nat) (f : Port → Port) : (s.modPort i p f).tbOffset = s.tbOffset := rfl
@[simp] theorem State.modPort_slices (s : State) (i p : Nat) (f : Port → Port) : (s.modPort i p f).slices = s.slices := rfl
@[simp] theorem State.modPort_refresh (s : State) (i p : Nat) (f : Port → Port) : (s.modPort i p f).refresh = s.refresh := rfl
@[simp] theorem State.modPort_quarters (s : State) (i p : Nat) (f : Port → Port) : (s.modPort i p f).quarters = s.quarters := rfl
@[simp] theorem State.modPort_entries (s : State) (i p : Nat) (f : Port → Port) : (s.modPort i p f).entries = s.entries := rfl
@[simp] theorem State.modPort_internal (s : State) (i p : Nat) (f : Port → Port) : (s.modPort i p f).internal = s.internal := rfl
@[simp] theorem State.modPort_candidates (s : State) (i p : Nat) (f : Port → Port) : (s.modPort i p f).candidates = s.candidates := rfl
@[simp] theorem State.modPort_fabric (s : State) (i p : Nat) (f : Port → Port) : (s.modPort i p f).fabric = s.fabric := rfl
@[simp] theorem State.modPort_hbm (s : State) (i p : Nat) (f : Port → Port) : (s.modPort i p f).hbm = s.hbm := rfl
@[simp] theorem State.modPort_links (s : State) (i p : Nat) (f : Port → Port) : (s.modPort i p f).links = s.links := rfl
@[simp] theorem State.modPort_straps (s : State) (i p : Nat) (f : Port → Port) : (s.modPort i p f).straps = s.straps := rfl
@[simp] theorem State.modPort_levels (s : State) (i p : Nat) (f : Port → Port) : (s.modPort i p f).levels = s.levels := rfl
@[simp] theorem State.modPort_fuses (s : State) (i p : Nat) (f : Port → Port) : (s.modPort i p f).fuses = s.fuses := rfl
@[simp] theorem State.modPort_boot (s : State) (i p : Nat) (f : Port → Port) : (s.modPort i p f).boot = s.boot := rfl
@[simp] theorem State.modPort_stores (s : State) (i p : Nat) (f : Port → Port) : (s.modPort i p f).stores = s.stores := rfl
@[simp] theorem State.modPort_profile (s : State) (i p : Nat) (f : Port → Port) : (s.modPort i p f).profile = s.profile := rfl
@[simp] theorem State.modPort_profNum (s : State) (i p : Nat) (f : Port → Port) : (s.modPort i p f).profNum = s.profNum := rfl
@[simp] theorem State.modPort_profRom (s : State) (i p : Nat) (f : Port → Port) : (s.modPort i p f).profRom = s.profRom := rfl
@[simp] theorem State.modPort_pepoch (s : State) (i p : Nat) (f : Port → Port) : (s.modPort i p f).pepoch = s.pepoch := rfl
@[simp] theorem State.modPort_profStore (s : State) (i p : Nat) (f : Port → Port) : (s.modPort i p f).profStore = s.profStore := rfl
@[simp] theorem State.modPort_switch (s : State) (i p : Nat) (f : Port → Port) : (s.modPort i p f).switch = s.switch := rfl
@[simp] theorem State.modPort_period (s : State) (i p : Nat) (f : Port → Port) : (s.modPort i p f).period = s.period := rfl
@[simp] theorem State.modPort_periodAt (s : State) (i p : Nat) (f : Port → Port) : (s.modPort i p f).periodAt = s.periodAt := rfl
@[simp] theorem State.modPort_oldHz (s : State) (i p : Nat) (f : Port → Port) : (s.modPort i p f).oldHz = s.oldHz := rfl
@[simp] theorem State.modPort_sealKey (s : State) (i p : Nat) (f : Port → Port) : (s.modPort i p f).sealKey = s.sealKey := rfl
@[simp] theorem State.modPort_sealUsed (s : State) (i p : Nat) (f : Port → Port) : (s.modPort i p f).sealUsed = s.sealUsed := rfl
@[simp] theorem State.modPort_ring (s : State) (i p : Nat) (f : Port → Port) : (s.modPort i p f).ring = s.ring := rfl
@[simp] theorem State.modPort_health (s : State) (i p : Nat) (f : Port → Port) : (s.modPort i p f).health = s.health := rfl
@[simp] theorem State.modPort_power (s : State) (i p : Nat) (f : Port → Port) : (s.modPort i p f).power = s.power := rfl
@[simp] theorem State.modPort_thermal (s : State) (i p : Nat) (f : Port → Port) : (s.modPort i p f).thermal = s.thermal := rfl
@[simp] theorem State.modPort_instruments (s : State) (i p : Nat) (f : Port → Port) : (s.modPort i p f).instruments = s.instruments := rfl
@[simp] theorem State.modPort_free (s : State) (i p : Nat) (f : Port → Port) : (s.modPort i p f).free = s.free := rfl

@[simp] theorem State.putEntry_pending (s : State) (c : Nat) (e : Entry) : (s.putEntry c e).pending = s.pending := rfl
@[simp] theorem State.putEntry_now (s : State) (c : Nat) (e : Entry) : (s.putEntry c e).now = s.now := rfl
@[simp] theorem State.putEntry_tbOffset (s : State) (c : Nat) (e : Entry) : (s.putEntry c e).tbOffset = s.tbOffset := rfl
@[simp] theorem State.putEntry_slices (s : State) (c : Nat) (e : Entry) : (s.putEntry c e).slices = s.slices := rfl
@[simp] theorem State.putEntry_ports (s : State) (c : Nat) (e : Entry) : (s.putEntry c e).ports = s.ports := rfl
@[simp] theorem State.putEntry_refresh (s : State) (c : Nat) (e : Entry) : (s.putEntry c e).refresh = s.refresh := rfl
@[simp] theorem State.putEntry_quarters (s : State) (c : Nat) (e : Entry) : (s.putEntry c e).quarters = s.quarters := rfl
@[simp] theorem State.putEntry_internal (s : State) (c : Nat) (e : Entry) : (s.putEntry c e).internal = s.internal := rfl
@[simp] theorem State.putEntry_candidates (s : State) (c : Nat) (e : Entry) : (s.putEntry c e).candidates = s.candidates := rfl
@[simp] theorem State.putEntry_fabric (s : State) (c : Nat) (e : Entry) : (s.putEntry c e).fabric = s.fabric := rfl
@[simp] theorem State.putEntry_hbm (s : State) (c : Nat) (e : Entry) : (s.putEntry c e).hbm = s.hbm := rfl
@[simp] theorem State.putEntry_links (s : State) (c : Nat) (e : Entry) : (s.putEntry c e).links = s.links := rfl
@[simp] theorem State.putEntry_straps (s : State) (c : Nat) (e : Entry) : (s.putEntry c e).straps = s.straps := rfl
@[simp] theorem State.putEntry_levels (s : State) (c : Nat) (e : Entry) : (s.putEntry c e).levels = s.levels := rfl
@[simp] theorem State.putEntry_fuses (s : State) (c : Nat) (e : Entry) : (s.putEntry c e).fuses = s.fuses := rfl
@[simp] theorem State.putEntry_boot (s : State) (c : Nat) (e : Entry) : (s.putEntry c e).boot = s.boot := rfl
@[simp] theorem State.putEntry_stores (s : State) (c : Nat) (e : Entry) : (s.putEntry c e).stores = s.stores := rfl
@[simp] theorem State.putEntry_profile (s : State) (c : Nat) (e : Entry) : (s.putEntry c e).profile = s.profile := rfl
@[simp] theorem State.putEntry_profNum (s : State) (c : Nat) (e : Entry) : (s.putEntry c e).profNum = s.profNum := rfl
@[simp] theorem State.putEntry_profRom (s : State) (c : Nat) (e : Entry) : (s.putEntry c e).profRom = s.profRom := rfl
@[simp] theorem State.putEntry_pepoch (s : State) (c : Nat) (e : Entry) : (s.putEntry c e).pepoch = s.pepoch := rfl
@[simp] theorem State.putEntry_profStore (s : State) (c : Nat) (e : Entry) : (s.putEntry c e).profStore = s.profStore := rfl
@[simp] theorem State.putEntry_switch (s : State) (c : Nat) (e : Entry) : (s.putEntry c e).switch = s.switch := rfl
@[simp] theorem State.putEntry_period (s : State) (c : Nat) (e : Entry) : (s.putEntry c e).period = s.period := rfl
@[simp] theorem State.putEntry_periodAt (s : State) (c : Nat) (e : Entry) : (s.putEntry c e).periodAt = s.periodAt := rfl
@[simp] theorem State.putEntry_oldHz (s : State) (c : Nat) (e : Entry) : (s.putEntry c e).oldHz = s.oldHz := rfl
@[simp] theorem State.putEntry_sealKey (s : State) (c : Nat) (e : Entry) : (s.putEntry c e).sealKey = s.sealKey := rfl
@[simp] theorem State.putEntry_sealUsed (s : State) (c : Nat) (e : Entry) : (s.putEntry c e).sealUsed = s.sealUsed := rfl
@[simp] theorem State.putEntry_ring (s : State) (c : Nat) (e : Entry) : (s.putEntry c e).ring = s.ring := rfl
@[simp] theorem State.putEntry_health (s : State) (c : Nat) (e : Entry) : (s.putEntry c e).health = s.health := rfl
@[simp] theorem State.putEntry_power (s : State) (c : Nat) (e : Entry) : (s.putEntry c e).power = s.power := rfl
@[simp] theorem State.putEntry_thermal (s : State) (c : Nat) (e : Entry) : (s.putEntry c e).thermal = s.thermal := rfl
@[simp] theorem State.putEntry_instruments (s : State) (c : Nat) (e : Entry) : (s.putEntry c e).instruments = s.instruments := rfl
@[simp] theorem State.putEntry_free (s : State) (c : Nat) (e : Entry) : (s.putEntry c e).free = s.free := rfl

theorem State.modEntry_eq (s : State) (c : Nat) (f : Entry → Entry) : s.modEntry c f = { s with entries := (s.modEntry c f).entries } := by
  unfold State.modEntry
  split
  · rfl
  · first | rfl | (split <;> rfl)

@[simp] theorem State.modEntry_pending (s : State) (c : Nat) (f : Entry → Entry) : (s.modEntry c f).pending = s.pending := by rw [State.modEntry_eq]
@[simp] theorem State.modEntry_now (s : State) (c : Nat) (f : Entry → Entry) : (s.modEntry c f).now = s.now := by rw [State.modEntry_eq]
@[simp] theorem State.modEntry_tbOffset (s : State) (c : Nat) (f : Entry → Entry) : (s.modEntry c f).tbOffset = s.tbOffset := by rw [State.modEntry_eq]
@[simp] theorem State.modEntry_slices (s : State) (c : Nat) (f : Entry → Entry) : (s.modEntry c f).slices = s.slices := by rw [State.modEntry_eq]
@[simp] theorem State.modEntry_ports (s : State) (c : Nat) (f : Entry → Entry) : (s.modEntry c f).ports = s.ports := by rw [State.modEntry_eq]
@[simp] theorem State.modEntry_refresh (s : State) (c : Nat) (f : Entry → Entry) : (s.modEntry c f).refresh = s.refresh := by rw [State.modEntry_eq]
@[simp] theorem State.modEntry_quarters (s : State) (c : Nat) (f : Entry → Entry) : (s.modEntry c f).quarters = s.quarters := by rw [State.modEntry_eq]
@[simp] theorem State.modEntry_internal (s : State) (c : Nat) (f : Entry → Entry) : (s.modEntry c f).internal = s.internal := by rw [State.modEntry_eq]
@[simp] theorem State.modEntry_candidates (s : State) (c : Nat) (f : Entry → Entry) : (s.modEntry c f).candidates = s.candidates := by rw [State.modEntry_eq]
@[simp] theorem State.modEntry_fabric (s : State) (c : Nat) (f : Entry → Entry) : (s.modEntry c f).fabric = s.fabric := by rw [State.modEntry_eq]
@[simp] theorem State.modEntry_hbm (s : State) (c : Nat) (f : Entry → Entry) : (s.modEntry c f).hbm = s.hbm := by rw [State.modEntry_eq]
@[simp] theorem State.modEntry_links (s : State) (c : Nat) (f : Entry → Entry) : (s.modEntry c f).links = s.links := by rw [State.modEntry_eq]
@[simp] theorem State.modEntry_straps (s : State) (c : Nat) (f : Entry → Entry) : (s.modEntry c f).straps = s.straps := by rw [State.modEntry_eq]
@[simp] theorem State.modEntry_levels (s : State) (c : Nat) (f : Entry → Entry) : (s.modEntry c f).levels = s.levels := by rw [State.modEntry_eq]
@[simp] theorem State.modEntry_fuses (s : State) (c : Nat) (f : Entry → Entry) : (s.modEntry c f).fuses = s.fuses := by rw [State.modEntry_eq]
@[simp] theorem State.modEntry_boot (s : State) (c : Nat) (f : Entry → Entry) : (s.modEntry c f).boot = s.boot := by rw [State.modEntry_eq]
@[simp] theorem State.modEntry_stores (s : State) (c : Nat) (f : Entry → Entry) : (s.modEntry c f).stores = s.stores := by rw [State.modEntry_eq]
@[simp] theorem State.modEntry_profile (s : State) (c : Nat) (f : Entry → Entry) : (s.modEntry c f).profile = s.profile := by rw [State.modEntry_eq]
@[simp] theorem State.modEntry_profNum (s : State) (c : Nat) (f : Entry → Entry) : (s.modEntry c f).profNum = s.profNum := by rw [State.modEntry_eq]
@[simp] theorem State.modEntry_profRom (s : State) (c : Nat) (f : Entry → Entry) : (s.modEntry c f).profRom = s.profRom := by rw [State.modEntry_eq]
@[simp] theorem State.modEntry_pepoch (s : State) (c : Nat) (f : Entry → Entry) : (s.modEntry c f).pepoch = s.pepoch := by rw [State.modEntry_eq]
@[simp] theorem State.modEntry_profStore (s : State) (c : Nat) (f : Entry → Entry) : (s.modEntry c f).profStore = s.profStore := by rw [State.modEntry_eq]
@[simp] theorem State.modEntry_switch (s : State) (c : Nat) (f : Entry → Entry) : (s.modEntry c f).switch = s.switch := by rw [State.modEntry_eq]
@[simp] theorem State.modEntry_period (s : State) (c : Nat) (f : Entry → Entry) : (s.modEntry c f).period = s.period := by rw [State.modEntry_eq]
@[simp] theorem State.modEntry_periodAt (s : State) (c : Nat) (f : Entry → Entry) : (s.modEntry c f).periodAt = s.periodAt := by rw [State.modEntry_eq]
@[simp] theorem State.modEntry_oldHz (s : State) (c : Nat) (f : Entry → Entry) : (s.modEntry c f).oldHz = s.oldHz := by rw [State.modEntry_eq]
@[simp] theorem State.modEntry_sealKey (s : State) (c : Nat) (f : Entry → Entry) : (s.modEntry c f).sealKey = s.sealKey := by rw [State.modEntry_eq]
@[simp] theorem State.modEntry_sealUsed (s : State) (c : Nat) (f : Entry → Entry) : (s.modEntry c f).sealUsed = s.sealUsed := by rw [State.modEntry_eq]
@[simp] theorem State.modEntry_ring (s : State) (c : Nat) (f : Entry → Entry) : (s.modEntry c f).ring = s.ring := by rw [State.modEntry_eq]
@[simp] theorem State.modEntry_health (s : State) (c : Nat) (f : Entry → Entry) : (s.modEntry c f).health = s.health := by rw [State.modEntry_eq]
@[simp] theorem State.modEntry_power (s : State) (c : Nat) (f : Entry → Entry) : (s.modEntry c f).power = s.power := by rw [State.modEntry_eq]
@[simp] theorem State.modEntry_thermal (s : State) (c : Nat) (f : Entry → Entry) : (s.modEntry c f).thermal = s.thermal := by rw [State.modEntry_eq]
@[simp] theorem State.modEntry_instruments (s : State) (c : Nat) (f : Entry → Entry) : (s.modEntry c f).instruments = s.instruments := by rw [State.modEntry_eq]
@[simp] theorem State.modEntry_free (s : State) (c : Nat) (f : Entry → Entry) : (s.modEntry c f).free = s.free := by rw [State.modEntry_eq]

@[simp] theorem State.modFport_pending (s : State) (n : Nat) (f : FabricPort → FabricPort) : (s.modFport n f).pending = s.pending := rfl
@[simp] theorem State.modFport_now (s : State) (n : Nat) (f : FabricPort → FabricPort) : (s.modFport n f).now = s.now := rfl
@[simp] theorem State.modFport_tbOffset (s : State) (n : Nat) (f : FabricPort → FabricPort) : (s.modFport n f).tbOffset = s.tbOffset := rfl
@[simp] theorem State.modFport_slices (s : State) (n : Nat) (f : FabricPort → FabricPort) : (s.modFport n f).slices = s.slices := rfl
@[simp] theorem State.modFport_ports (s : State) (n : Nat) (f : FabricPort → FabricPort) : (s.modFport n f).ports = s.ports := rfl
@[simp] theorem State.modFport_refresh (s : State) (n : Nat) (f : FabricPort → FabricPort) : (s.modFport n f).refresh = s.refresh := rfl
@[simp] theorem State.modFport_quarters (s : State) (n : Nat) (f : FabricPort → FabricPort) : (s.modFport n f).quarters = s.quarters := rfl
@[simp] theorem State.modFport_entries (s : State) (n : Nat) (f : FabricPort → FabricPort) : (s.modFport n f).entries = s.entries := rfl
@[simp] theorem State.modFport_internal (s : State) (n : Nat) (f : FabricPort → FabricPort) : (s.modFport n f).internal = s.internal := rfl
@[simp] theorem State.modFport_candidates (s : State) (n : Nat) (f : FabricPort → FabricPort) : (s.modFport n f).candidates = s.candidates := rfl
@[simp] theorem State.modFport_fabric (s : State) (n : Nat) (f : FabricPort → FabricPort) : (s.modFport n f).fabric = s.fabric := rfl
@[simp] theorem State.modFport_hbm (s : State) (n : Nat) (f : FabricPort → FabricPort) : (s.modFport n f).hbm = s.hbm := rfl
@[simp] theorem State.modFport_straps (s : State) (n : Nat) (f : FabricPort → FabricPort) : (s.modFport n f).straps = s.straps := rfl
@[simp] theorem State.modFport_levels (s : State) (n : Nat) (f : FabricPort → FabricPort) : (s.modFport n f).levels = s.levels := rfl
@[simp] theorem State.modFport_fuses (s : State) (n : Nat) (f : FabricPort → FabricPort) : (s.modFport n f).fuses = s.fuses := rfl
@[simp] theorem State.modFport_boot (s : State) (n : Nat) (f : FabricPort → FabricPort) : (s.modFport n f).boot = s.boot := rfl
@[simp] theorem State.modFport_stores (s : State) (n : Nat) (f : FabricPort → FabricPort) : (s.modFport n f).stores = s.stores := rfl
@[simp] theorem State.modFport_profile (s : State) (n : Nat) (f : FabricPort → FabricPort) : (s.modFport n f).profile = s.profile := rfl
@[simp] theorem State.modFport_profNum (s : State) (n : Nat) (f : FabricPort → FabricPort) : (s.modFport n f).profNum = s.profNum := rfl
@[simp] theorem State.modFport_profRom (s : State) (n : Nat) (f : FabricPort → FabricPort) : (s.modFport n f).profRom = s.profRom := rfl
@[simp] theorem State.modFport_pepoch (s : State) (n : Nat) (f : FabricPort → FabricPort) : (s.modFport n f).pepoch = s.pepoch := rfl
@[simp] theorem State.modFport_profStore (s : State) (n : Nat) (f : FabricPort → FabricPort) : (s.modFport n f).profStore = s.profStore := rfl
@[simp] theorem State.modFport_switch (s : State) (n : Nat) (f : FabricPort → FabricPort) : (s.modFport n f).switch = s.switch := rfl
@[simp] theorem State.modFport_period (s : State) (n : Nat) (f : FabricPort → FabricPort) : (s.modFport n f).period = s.period := rfl
@[simp] theorem State.modFport_periodAt (s : State) (n : Nat) (f : FabricPort → FabricPort) : (s.modFport n f).periodAt = s.periodAt := rfl
@[simp] theorem State.modFport_oldHz (s : State) (n : Nat) (f : FabricPort → FabricPort) : (s.modFport n f).oldHz = s.oldHz := rfl
@[simp] theorem State.modFport_sealKey (s : State) (n : Nat) (f : FabricPort → FabricPort) : (s.modFport n f).sealKey = s.sealKey := rfl
@[simp] theorem State.modFport_sealUsed (s : State) (n : Nat) (f : FabricPort → FabricPort) : (s.modFport n f).sealUsed = s.sealUsed := rfl
@[simp] theorem State.modFport_ring (s : State) (n : Nat) (f : FabricPort → FabricPort) : (s.modFport n f).ring = s.ring := rfl
@[simp] theorem State.modFport_health (s : State) (n : Nat) (f : FabricPort → FabricPort) : (s.modFport n f).health = s.health := rfl
@[simp] theorem State.modFport_power (s : State) (n : Nat) (f : FabricPort → FabricPort) : (s.modFport n f).power = s.power := rfl
@[simp] theorem State.modFport_thermal (s : State) (n : Nat) (f : FabricPort → FabricPort) : (s.modFport n f).thermal = s.thermal := rfl
@[simp] theorem State.modFport_instruments (s : State) (n : Nat) (f : FabricPort → FabricPort) : (s.modFport n f).instruments = s.instruments := rfl
@[simp] theorem State.modFport_free (s : State) (n : Nat) (f : FabricPort → FabricPort) : (s.modFport n f).free = s.free := rfl

@[simp] theorem State.modHost_pending (s : State) (f : HostLink → HostLink) : (s.modHost f).pending = s.pending := rfl
@[simp] theorem State.modHost_now (s : State) (f : HostLink → HostLink) : (s.modHost f).now = s.now := rfl
@[simp] theorem State.modHost_tbOffset (s : State) (f : HostLink → HostLink) : (s.modHost f).tbOffset = s.tbOffset := rfl
@[simp] theorem State.modHost_slices (s : State) (f : HostLink → HostLink) : (s.modHost f).slices = s.slices := rfl
@[simp] theorem State.modHost_ports (s : State) (f : HostLink → HostLink) : (s.modHost f).ports = s.ports := rfl
@[simp] theorem State.modHost_refresh (s : State) (f : HostLink → HostLink) : (s.modHost f).refresh = s.refresh := rfl
@[simp] theorem State.modHost_quarters (s : State) (f : HostLink → HostLink) : (s.modHost f).quarters = s.quarters := rfl
@[simp] theorem State.modHost_entries (s : State) (f : HostLink → HostLink) : (s.modHost f).entries = s.entries := rfl
@[simp] theorem State.modHost_internal (s : State) (f : HostLink → HostLink) : (s.modHost f).internal = s.internal := rfl
@[simp] theorem State.modHost_candidates (s : State) (f : HostLink → HostLink) : (s.modHost f).candidates = s.candidates := rfl
@[simp] theorem State.modHost_fabric (s : State) (f : HostLink → HostLink) : (s.modHost f).fabric = s.fabric := rfl
@[simp] theorem State.modHost_hbm (s : State) (f : HostLink → HostLink) : (s.modHost f).hbm = s.hbm := rfl
@[simp] theorem State.modHost_straps (s : State) (f : HostLink → HostLink) : (s.modHost f).straps = s.straps := rfl
@[simp] theorem State.modHost_levels (s : State) (f : HostLink → HostLink) : (s.modHost f).levels = s.levels := rfl
@[simp] theorem State.modHost_fuses (s : State) (f : HostLink → HostLink) : (s.modHost f).fuses = s.fuses := rfl
@[simp] theorem State.modHost_boot (s : State) (f : HostLink → HostLink) : (s.modHost f).boot = s.boot := rfl
@[simp] theorem State.modHost_stores (s : State) (f : HostLink → HostLink) : (s.modHost f).stores = s.stores := rfl
@[simp] theorem State.modHost_profile (s : State) (f : HostLink → HostLink) : (s.modHost f).profile = s.profile := rfl
@[simp] theorem State.modHost_profNum (s : State) (f : HostLink → HostLink) : (s.modHost f).profNum = s.profNum := rfl
@[simp] theorem State.modHost_profRom (s : State) (f : HostLink → HostLink) : (s.modHost f).profRom = s.profRom := rfl
@[simp] theorem State.modHost_pepoch (s : State) (f : HostLink → HostLink) : (s.modHost f).pepoch = s.pepoch := rfl
@[simp] theorem State.modHost_profStore (s : State) (f : HostLink → HostLink) : (s.modHost f).profStore = s.profStore := rfl
@[simp] theorem State.modHost_switch (s : State) (f : HostLink → HostLink) : (s.modHost f).switch = s.switch := rfl
@[simp] theorem State.modHost_period (s : State) (f : HostLink → HostLink) : (s.modHost f).period = s.period := rfl
@[simp] theorem State.modHost_periodAt (s : State) (f : HostLink → HostLink) : (s.modHost f).periodAt = s.periodAt := rfl
@[simp] theorem State.modHost_oldHz (s : State) (f : HostLink → HostLink) : (s.modHost f).oldHz = s.oldHz := rfl
@[simp] theorem State.modHost_sealKey (s : State) (f : HostLink → HostLink) : (s.modHost f).sealKey = s.sealKey := rfl
@[simp] theorem State.modHost_sealUsed (s : State) (f : HostLink → HostLink) : (s.modHost f).sealUsed = s.sealUsed := rfl
@[simp] theorem State.modHost_ring (s : State) (f : HostLink → HostLink) : (s.modHost f).ring = s.ring := rfl
@[simp] theorem State.modHost_health (s : State) (f : HostLink → HostLink) : (s.modHost f).health = s.health := rfl
@[simp] theorem State.modHost_power (s : State) (f : HostLink → HostLink) : (s.modHost f).power = s.power := rfl
@[simp] theorem State.modHost_thermal (s : State) (f : HostLink → HostLink) : (s.modHost f).thermal = s.thermal := rfl
@[simp] theorem State.modHost_instruments (s : State) (f : HostLink → HostLink) : (s.modHost f).instruments = s.instruments := rfl
@[simp] theorem State.modHost_free (s : State) (f : HostLink → HostLink) : (s.modHost f).free = s.free := rfl

theorem State.modLykel_eq (s : State) (l : Nat) (f : Lykel → Lykel) : s.modLykel l f = { s with links := (s.modLykel l f).links } := by
  unfold State.modLykel
  split
  · rfl
  · first | rfl | (split <;> rfl)

@[simp] theorem State.modLykel_pending (s : State) (l : Nat) (f : Lykel → Lykel) : (s.modLykel l f).pending = s.pending := by rw [State.modLykel_eq]
@[simp] theorem State.modLykel_now (s : State) (l : Nat) (f : Lykel → Lykel) : (s.modLykel l f).now = s.now := by rw [State.modLykel_eq]
@[simp] theorem State.modLykel_tbOffset (s : State) (l : Nat) (f : Lykel → Lykel) : (s.modLykel l f).tbOffset = s.tbOffset := by rw [State.modLykel_eq]
@[simp] theorem State.modLykel_slices (s : State) (l : Nat) (f : Lykel → Lykel) : (s.modLykel l f).slices = s.slices := by rw [State.modLykel_eq]
@[simp] theorem State.modLykel_ports (s : State) (l : Nat) (f : Lykel → Lykel) : (s.modLykel l f).ports = s.ports := by rw [State.modLykel_eq]
@[simp] theorem State.modLykel_refresh (s : State) (l : Nat) (f : Lykel → Lykel) : (s.modLykel l f).refresh = s.refresh := by rw [State.modLykel_eq]
@[simp] theorem State.modLykel_quarters (s : State) (l : Nat) (f : Lykel → Lykel) : (s.modLykel l f).quarters = s.quarters := by rw [State.modLykel_eq]
@[simp] theorem State.modLykel_entries (s : State) (l : Nat) (f : Lykel → Lykel) : (s.modLykel l f).entries = s.entries := by rw [State.modLykel_eq]
@[simp] theorem State.modLykel_internal (s : State) (l : Nat) (f : Lykel → Lykel) : (s.modLykel l f).internal = s.internal := by rw [State.modLykel_eq]
@[simp] theorem State.modLykel_candidates (s : State) (l : Nat) (f : Lykel → Lykel) : (s.modLykel l f).candidates = s.candidates := by rw [State.modLykel_eq]
@[simp] theorem State.modLykel_fabric (s : State) (l : Nat) (f : Lykel → Lykel) : (s.modLykel l f).fabric = s.fabric := by rw [State.modLykel_eq]
@[simp] theorem State.modLykel_hbm (s : State) (l : Nat) (f : Lykel → Lykel) : (s.modLykel l f).hbm = s.hbm := by rw [State.modLykel_eq]
@[simp] theorem State.modLykel_straps (s : State) (l : Nat) (f : Lykel → Lykel) : (s.modLykel l f).straps = s.straps := by rw [State.modLykel_eq]
@[simp] theorem State.modLykel_levels (s : State) (l : Nat) (f : Lykel → Lykel) : (s.modLykel l f).levels = s.levels := by rw [State.modLykel_eq]
@[simp] theorem State.modLykel_fuses (s : State) (l : Nat) (f : Lykel → Lykel) : (s.modLykel l f).fuses = s.fuses := by rw [State.modLykel_eq]
@[simp] theorem State.modLykel_boot (s : State) (l : Nat) (f : Lykel → Lykel) : (s.modLykel l f).boot = s.boot := by rw [State.modLykel_eq]
@[simp] theorem State.modLykel_stores (s : State) (l : Nat) (f : Lykel → Lykel) : (s.modLykel l f).stores = s.stores := by rw [State.modLykel_eq]
@[simp] theorem State.modLykel_profile (s : State) (l : Nat) (f : Lykel → Lykel) : (s.modLykel l f).profile = s.profile := by rw [State.modLykel_eq]
@[simp] theorem State.modLykel_profNum (s : State) (l : Nat) (f : Lykel → Lykel) : (s.modLykel l f).profNum = s.profNum := by rw [State.modLykel_eq]
@[simp] theorem State.modLykel_profRom (s : State) (l : Nat) (f : Lykel → Lykel) : (s.modLykel l f).profRom = s.profRom := by rw [State.modLykel_eq]
@[simp] theorem State.modLykel_pepoch (s : State) (l : Nat) (f : Lykel → Lykel) : (s.modLykel l f).pepoch = s.pepoch := by rw [State.modLykel_eq]
@[simp] theorem State.modLykel_profStore (s : State) (l : Nat) (f : Lykel → Lykel) : (s.modLykel l f).profStore = s.profStore := by rw [State.modLykel_eq]
@[simp] theorem State.modLykel_switch (s : State) (l : Nat) (f : Lykel → Lykel) : (s.modLykel l f).switch = s.switch := by rw [State.modLykel_eq]
@[simp] theorem State.modLykel_period (s : State) (l : Nat) (f : Lykel → Lykel) : (s.modLykel l f).period = s.period := by rw [State.modLykel_eq]
@[simp] theorem State.modLykel_periodAt (s : State) (l : Nat) (f : Lykel → Lykel) : (s.modLykel l f).periodAt = s.periodAt := by rw [State.modLykel_eq]
@[simp] theorem State.modLykel_oldHz (s : State) (l : Nat) (f : Lykel → Lykel) : (s.modLykel l f).oldHz = s.oldHz := by rw [State.modLykel_eq]
@[simp] theorem State.modLykel_sealKey (s : State) (l : Nat) (f : Lykel → Lykel) : (s.modLykel l f).sealKey = s.sealKey := by rw [State.modLykel_eq]
@[simp] theorem State.modLykel_sealUsed (s : State) (l : Nat) (f : Lykel → Lykel) : (s.modLykel l f).sealUsed = s.sealUsed := by rw [State.modLykel_eq]
@[simp] theorem State.modLykel_ring (s : State) (l : Nat) (f : Lykel → Lykel) : (s.modLykel l f).ring = s.ring := by rw [State.modLykel_eq]
@[simp] theorem State.modLykel_health (s : State) (l : Nat) (f : Lykel → Lykel) : (s.modLykel l f).health = s.health := by rw [State.modLykel_eq]
@[simp] theorem State.modLykel_power (s : State) (l : Nat) (f : Lykel → Lykel) : (s.modLykel l f).power = s.power := by rw [State.modLykel_eq]
@[simp] theorem State.modLykel_thermal (s : State) (l : Nat) (f : Lykel → Lykel) : (s.modLykel l f).thermal = s.thermal := by rw [State.modLykel_eq]
@[simp] theorem State.modLykel_instruments (s : State) (l : Nat) (f : Lykel → Lykel) : (s.modLykel l f).instruments = s.instruments := by rw [State.modLykel_eq]
@[simp] theorem State.modLykel_free (s : State) (l : Nat) (f : Lykel → Lykel) : (s.modLykel l f).free = s.free := by rw [State.modLykel_eq]

@[simp] theorem State.modFabric_pending (s : State) (f : Fabric → Fabric) : (s.modFabric f).pending = s.pending := rfl
@[simp] theorem State.modFabric_now (s : State) (f : Fabric → Fabric) : (s.modFabric f).now = s.now := rfl
@[simp] theorem State.modFabric_tbOffset (s : State) (f : Fabric → Fabric) : (s.modFabric f).tbOffset = s.tbOffset := rfl
@[simp] theorem State.modFabric_slices (s : State) (f : Fabric → Fabric) : (s.modFabric f).slices = s.slices := rfl
@[simp] theorem State.modFabric_ports (s : State) (f : Fabric → Fabric) : (s.modFabric f).ports = s.ports := rfl
@[simp] theorem State.modFabric_refresh (s : State) (f : Fabric → Fabric) : (s.modFabric f).refresh = s.refresh := rfl
@[simp] theorem State.modFabric_quarters (s : State) (f : Fabric → Fabric) : (s.modFabric f).quarters = s.quarters := rfl
@[simp] theorem State.modFabric_entries (s : State) (f : Fabric → Fabric) : (s.modFabric f).entries = s.entries := rfl
@[simp] theorem State.modFabric_internal (s : State) (f : Fabric → Fabric) : (s.modFabric f).internal = s.internal := rfl
@[simp] theorem State.modFabric_candidates (s : State) (f : Fabric → Fabric) : (s.modFabric f).candidates = s.candidates := rfl
@[simp] theorem State.modFabric_hbm (s : State) (f : Fabric → Fabric) : (s.modFabric f).hbm = s.hbm := rfl
@[simp] theorem State.modFabric_links (s : State) (f : Fabric → Fabric) : (s.modFabric f).links = s.links := rfl
@[simp] theorem State.modFabric_straps (s : State) (f : Fabric → Fabric) : (s.modFabric f).straps = s.straps := rfl
@[simp] theorem State.modFabric_levels (s : State) (f : Fabric → Fabric) : (s.modFabric f).levels = s.levels := rfl
@[simp] theorem State.modFabric_fuses (s : State) (f : Fabric → Fabric) : (s.modFabric f).fuses = s.fuses := rfl
@[simp] theorem State.modFabric_boot (s : State) (f : Fabric → Fabric) : (s.modFabric f).boot = s.boot := rfl
@[simp] theorem State.modFabric_stores (s : State) (f : Fabric → Fabric) : (s.modFabric f).stores = s.stores := rfl
@[simp] theorem State.modFabric_profile (s : State) (f : Fabric → Fabric) : (s.modFabric f).profile = s.profile := rfl
@[simp] theorem State.modFabric_profNum (s : State) (f : Fabric → Fabric) : (s.modFabric f).profNum = s.profNum := rfl
@[simp] theorem State.modFabric_profRom (s : State) (f : Fabric → Fabric) : (s.modFabric f).profRom = s.profRom := rfl
@[simp] theorem State.modFabric_pepoch (s : State) (f : Fabric → Fabric) : (s.modFabric f).pepoch = s.pepoch := rfl
@[simp] theorem State.modFabric_profStore (s : State) (f : Fabric → Fabric) : (s.modFabric f).profStore = s.profStore := rfl
@[simp] theorem State.modFabric_switch (s : State) (f : Fabric → Fabric) : (s.modFabric f).switch = s.switch := rfl
@[simp] theorem State.modFabric_period (s : State) (f : Fabric → Fabric) : (s.modFabric f).period = s.period := rfl
@[simp] theorem State.modFabric_periodAt (s : State) (f : Fabric → Fabric) : (s.modFabric f).periodAt = s.periodAt := rfl
@[simp] theorem State.modFabric_oldHz (s : State) (f : Fabric → Fabric) : (s.modFabric f).oldHz = s.oldHz := rfl
@[simp] theorem State.modFabric_sealKey (s : State) (f : Fabric → Fabric) : (s.modFabric f).sealKey = s.sealKey := rfl
@[simp] theorem State.modFabric_sealUsed (s : State) (f : Fabric → Fabric) : (s.modFabric f).sealUsed = s.sealUsed := rfl
@[simp] theorem State.modFabric_ring (s : State) (f : Fabric → Fabric) : (s.modFabric f).ring = s.ring := rfl
@[simp] theorem State.modFabric_health (s : State) (f : Fabric → Fabric) : (s.modFabric f).health = s.health := rfl
@[simp] theorem State.modFabric_power (s : State) (f : Fabric → Fabric) : (s.modFabric f).power = s.power := rfl
@[simp] theorem State.modFabric_thermal (s : State) (f : Fabric → Fabric) : (s.modFabric f).thermal = s.thermal := rfl
@[simp] theorem State.modFabric_instruments (s : State) (f : Fabric → Fabric) : (s.modFabric f).instruments = s.instruments := rfl
@[simp] theorem State.modFabric_free (s : State) (f : Fabric → Fabric) : (s.modFabric f).free = s.free := rfl

@[simp] theorem State.advanceTo_pending (s : State) (t : Nat) : (s.advanceTo t).pending = s.pending := rfl
@[simp] theorem State.advanceTo_tbOffset (s : State) (t : Nat) : (s.advanceTo t).tbOffset = s.tbOffset := rfl
@[simp] theorem State.advanceTo_slices (s : State) (t : Nat) : (s.advanceTo t).slices = s.slices := rfl
@[simp] theorem State.advanceTo_ports (s : State) (t : Nat) : (s.advanceTo t).ports = s.ports := rfl
@[simp] theorem State.advanceTo_refresh (s : State) (t : Nat) : (s.advanceTo t).refresh = s.refresh := rfl
@[simp] theorem State.advanceTo_quarters (s : State) (t : Nat) : (s.advanceTo t).quarters = s.quarters := rfl
@[simp] theorem State.advanceTo_entries (s : State) (t : Nat) : (s.advanceTo t).entries = s.entries := rfl
@[simp] theorem State.advanceTo_internal (s : State) (t : Nat) : (s.advanceTo t).internal = s.internal := rfl
@[simp] theorem State.advanceTo_candidates (s : State) (t : Nat) : (s.advanceTo t).candidates = s.candidates := rfl
@[simp] theorem State.advanceTo_fabric (s : State) (t : Nat) : (s.advanceTo t).fabric = s.fabric := rfl
@[simp] theorem State.advanceTo_hbm (s : State) (t : Nat) : (s.advanceTo t).hbm = s.hbm := rfl
@[simp] theorem State.advanceTo_links (s : State) (t : Nat) : (s.advanceTo t).links = s.links := rfl
@[simp] theorem State.advanceTo_straps (s : State) (t : Nat) : (s.advanceTo t).straps = s.straps := rfl
@[simp] theorem State.advanceTo_levels (s : State) (t : Nat) : (s.advanceTo t).levels = s.levels := rfl
@[simp] theorem State.advanceTo_fuses (s : State) (t : Nat) : (s.advanceTo t).fuses = s.fuses := rfl
@[simp] theorem State.advanceTo_boot (s : State) (t : Nat) : (s.advanceTo t).boot = s.boot := rfl
@[simp] theorem State.advanceTo_stores (s : State) (t : Nat) : (s.advanceTo t).stores = s.stores := rfl
@[simp] theorem State.advanceTo_profile (s : State) (t : Nat) : (s.advanceTo t).profile = s.profile := rfl
@[simp] theorem State.advanceTo_profNum (s : State) (t : Nat) : (s.advanceTo t).profNum = s.profNum := rfl
@[simp] theorem State.advanceTo_profRom (s : State) (t : Nat) : (s.advanceTo t).profRom = s.profRom := rfl
@[simp] theorem State.advanceTo_pepoch (s : State) (t : Nat) : (s.advanceTo t).pepoch = s.pepoch := rfl
@[simp] theorem State.advanceTo_profStore (s : State) (t : Nat) : (s.advanceTo t).profStore = s.profStore := rfl
@[simp] theorem State.advanceTo_switch (s : State) (t : Nat) : (s.advanceTo t).switch = s.switch := rfl
@[simp] theorem State.advanceTo_period (s : State) (t : Nat) : (s.advanceTo t).period = s.period := rfl
@[simp] theorem State.advanceTo_periodAt (s : State) (t : Nat) : (s.advanceTo t).periodAt = s.periodAt := rfl
@[simp] theorem State.advanceTo_oldHz (s : State) (t : Nat) : (s.advanceTo t).oldHz = s.oldHz := rfl
@[simp] theorem State.advanceTo_sealKey (s : State) (t : Nat) : (s.advanceTo t).sealKey = s.sealKey := rfl
@[simp] theorem State.advanceTo_sealUsed (s : State) (t : Nat) : (s.advanceTo t).sealUsed = s.sealUsed := rfl
@[simp] theorem State.advanceTo_ring (s : State) (t : Nat) : (s.advanceTo t).ring = s.ring := rfl
@[simp] theorem State.advanceTo_health (s : State) (t : Nat) : (s.advanceTo t).health = s.health := rfl
@[simp] theorem State.advanceTo_power (s : State) (t : Nat) : (s.advanceTo t).power = s.power := rfl
@[simp] theorem State.advanceTo_thermal (s : State) (t : Nat) : (s.advanceTo t).thermal = s.thermal := rfl
@[simp] theorem State.advanceTo_instruments (s : State) (t : Nat) : (s.advanceTo t).instruments = s.instruments := rfl
@[simp] theorem State.advanceTo_free (s : State) (t : Nat) : (s.advanceTo t).free = s.free := rfl

@[simp] theorem State.bump_pending (s : State) (p o w n : Nat) : (s.bump p o w n).pending = s.pending := by simp only [State.bump]
@[simp] theorem State.bump_now (s : State) (p o w n : Nat) : (s.bump p o w n).now = s.now := by simp only [State.bump]
@[simp] theorem State.bump_tbOffset (s : State) (p o w n : Nat) : (s.bump p o w n).tbOffset = s.tbOffset := by simp only [State.bump]
@[simp] theorem State.bump_slices (s : State) (p o w n : Nat) : (s.bump p o w n).slices = s.slices := by simp only [State.bump]
@[simp] theorem State.bump_ports (s : State) (p o w n : Nat) : (s.bump p o w n).ports = s.ports := by simp only [State.bump]
@[simp] theorem State.bump_refresh (s : State) (p o w n : Nat) : (s.bump p o w n).refresh = s.refresh := by simp only [State.bump]
@[simp] theorem State.bump_quarters (s : State) (p o w n : Nat) : (s.bump p o w n).quarters = s.quarters := by simp only [State.bump]
@[simp] theorem State.bump_entries (s : State) (p o w n : Nat) : (s.bump p o w n).entries = s.entries := by simp only [State.bump]
@[simp] theorem State.bump_internal (s : State) (p o w n : Nat) : (s.bump p o w n).internal = s.internal := by simp only [State.bump]
@[simp] theorem State.bump_candidates (s : State) (p o w n : Nat) : (s.bump p o w n).candidates = s.candidates := by simp only [State.bump]
@[simp] theorem State.bump_fabric (s : State) (p o w n : Nat) : (s.bump p o w n).fabric = s.fabric := by simp only [State.bump]
@[simp] theorem State.bump_hbm (s : State) (p o w n : Nat) : (s.bump p o w n).hbm = s.hbm := by simp only [State.bump]
@[simp] theorem State.bump_links (s : State) (p o w n : Nat) : (s.bump p o w n).links = s.links := by simp only [State.bump]
@[simp] theorem State.bump_straps (s : State) (p o w n : Nat) : (s.bump p o w n).straps = s.straps := by simp only [State.bump]
@[simp] theorem State.bump_levels (s : State) (p o w n : Nat) : (s.bump p o w n).levels = s.levels := by simp only [State.bump]
@[simp] theorem State.bump_fuses (s : State) (p o w n : Nat) : (s.bump p o w n).fuses = s.fuses := by simp only [State.bump]
@[simp] theorem State.bump_boot (s : State) (p o w n : Nat) : (s.bump p o w n).boot = s.boot := by simp only [State.bump]
@[simp] theorem State.bump_stores (s : State) (p o w n : Nat) : (s.bump p o w n).stores = s.stores := by simp only [State.bump]
@[simp] theorem State.bump_profile (s : State) (p o w n : Nat) : (s.bump p o w n).profile = s.profile := by simp only [State.bump]
@[simp] theorem State.bump_profNum (s : State) (p o w n : Nat) : (s.bump p o w n).profNum = s.profNum := by simp only [State.bump]
@[simp] theorem State.bump_profRom (s : State) (p o w n : Nat) : (s.bump p o w n).profRom = s.profRom := by simp only [State.bump]
@[simp] theorem State.bump_pepoch (s : State) (p o w n : Nat) : (s.bump p o w n).pepoch = s.pepoch := by simp only [State.bump]
@[simp] theorem State.bump_profStore (s : State) (p o w n : Nat) : (s.bump p o w n).profStore = s.profStore := by simp only [State.bump]
@[simp] theorem State.bump_switch (s : State) (p o w n : Nat) : (s.bump p o w n).switch = s.switch := by simp only [State.bump]
@[simp] theorem State.bump_period (s : State) (p o w n : Nat) : (s.bump p o w n).period = s.period := by simp only [State.bump]
@[simp] theorem State.bump_periodAt (s : State) (p o w n : Nat) : (s.bump p o w n).periodAt = s.periodAt := by simp only [State.bump]
@[simp] theorem State.bump_oldHz (s : State) (p o w n : Nat) : (s.bump p o w n).oldHz = s.oldHz := by simp only [State.bump]
@[simp] theorem State.bump_sealKey (s : State) (p o w n : Nat) : (s.bump p o w n).sealKey = s.sealKey := by simp only [State.bump]
@[simp] theorem State.bump_sealUsed (s : State) (p o w n : Nat) : (s.bump p o w n).sealUsed = s.sealUsed := by simp only [State.bump]
@[simp] theorem State.bump_ring (s : State) (p o w n : Nat) : (s.bump p o w n).ring = s.ring := by simp only [State.bump]
@[simp] theorem State.bump_power (s : State) (p o w n : Nat) : (s.bump p o w n).power = s.power := by simp only [State.bump]
@[simp] theorem State.bump_thermal (s : State) (p o w n : Nat) : (s.bump p o w n).thermal = s.thermal := by simp only [State.bump]
@[simp] theorem State.bump_instruments (s : State) (p o w n : Nat) : (s.bump p o w n).instruments = s.instruments := by simp only [State.bump]
@[simp] theorem State.bump_free (s : State) (p o w n : Nat) : (s.bump p o w n).free = s.free := by simp only [State.bump]

theorem State.showStat_eq (s : State) (v : Nat) : s.showStat v = { s with boot := (s.showStat v).boot } := by
  unfold State.showStat
  split
  · rfl
  · first | rfl | (split <;> rfl)

@[simp] theorem State.showStat_pending (s : State) (v : Nat) : (s.showStat v).pending = s.pending := by rw [State.showStat_eq]
@[simp] theorem State.showStat_now (s : State) (v : Nat) : (s.showStat v).now = s.now := by rw [State.showStat_eq]
@[simp] theorem State.showStat_tbOffset (s : State) (v : Nat) : (s.showStat v).tbOffset = s.tbOffset := by rw [State.showStat_eq]
@[simp] theorem State.showStat_slices (s : State) (v : Nat) : (s.showStat v).slices = s.slices := by rw [State.showStat_eq]
@[simp] theorem State.showStat_ports (s : State) (v : Nat) : (s.showStat v).ports = s.ports := by rw [State.showStat_eq]
@[simp] theorem State.showStat_refresh (s : State) (v : Nat) : (s.showStat v).refresh = s.refresh := by rw [State.showStat_eq]
@[simp] theorem State.showStat_quarters (s : State) (v : Nat) : (s.showStat v).quarters = s.quarters := by rw [State.showStat_eq]
@[simp] theorem State.showStat_entries (s : State) (v : Nat) : (s.showStat v).entries = s.entries := by rw [State.showStat_eq]
@[simp] theorem State.showStat_internal (s : State) (v : Nat) : (s.showStat v).internal = s.internal := by rw [State.showStat_eq]
@[simp] theorem State.showStat_candidates (s : State) (v : Nat) : (s.showStat v).candidates = s.candidates := by rw [State.showStat_eq]
@[simp] theorem State.showStat_fabric (s : State) (v : Nat) : (s.showStat v).fabric = s.fabric := by rw [State.showStat_eq]
@[simp] theorem State.showStat_hbm (s : State) (v : Nat) : (s.showStat v).hbm = s.hbm := by rw [State.showStat_eq]
@[simp] theorem State.showStat_links (s : State) (v : Nat) : (s.showStat v).links = s.links := by rw [State.showStat_eq]
@[simp] theorem State.showStat_straps (s : State) (v : Nat) : (s.showStat v).straps = s.straps := by rw [State.showStat_eq]
@[simp] theorem State.showStat_levels (s : State) (v : Nat) : (s.showStat v).levels = s.levels := by rw [State.showStat_eq]
@[simp] theorem State.showStat_fuses (s : State) (v : Nat) : (s.showStat v).fuses = s.fuses := by rw [State.showStat_eq]
@[simp] theorem State.showStat_stores (s : State) (v : Nat) : (s.showStat v).stores = s.stores := by rw [State.showStat_eq]
@[simp] theorem State.showStat_profile (s : State) (v : Nat) : (s.showStat v).profile = s.profile := by rw [State.showStat_eq]
@[simp] theorem State.showStat_profNum (s : State) (v : Nat) : (s.showStat v).profNum = s.profNum := by rw [State.showStat_eq]
@[simp] theorem State.showStat_profRom (s : State) (v : Nat) : (s.showStat v).profRom = s.profRom := by rw [State.showStat_eq]
@[simp] theorem State.showStat_pepoch (s : State) (v : Nat) : (s.showStat v).pepoch = s.pepoch := by rw [State.showStat_eq]
@[simp] theorem State.showStat_profStore (s : State) (v : Nat) : (s.showStat v).profStore = s.profStore := by rw [State.showStat_eq]
@[simp] theorem State.showStat_switch (s : State) (v : Nat) : (s.showStat v).switch = s.switch := by rw [State.showStat_eq]
@[simp] theorem State.showStat_period (s : State) (v : Nat) : (s.showStat v).period = s.period := by rw [State.showStat_eq]
@[simp] theorem State.showStat_periodAt (s : State) (v : Nat) : (s.showStat v).periodAt = s.periodAt := by rw [State.showStat_eq]
@[simp] theorem State.showStat_oldHz (s : State) (v : Nat) : (s.showStat v).oldHz = s.oldHz := by rw [State.showStat_eq]
@[simp] theorem State.showStat_sealKey (s : State) (v : Nat) : (s.showStat v).sealKey = s.sealKey := by rw [State.showStat_eq]
@[simp] theorem State.showStat_sealUsed (s : State) (v : Nat) : (s.showStat v).sealUsed = s.sealUsed := by rw [State.showStat_eq]
@[simp] theorem State.showStat_ring (s : State) (v : Nat) : (s.showStat v).ring = s.ring := by rw [State.showStat_eq]
@[simp] theorem State.showStat_health (s : State) (v : Nat) : (s.showStat v).health = s.health := by rw [State.showStat_eq]
@[simp] theorem State.showStat_power (s : State) (v : Nat) : (s.showStat v).power = s.power := by rw [State.showStat_eq]
@[simp] theorem State.showStat_thermal (s : State) (v : Nat) : (s.showStat v).thermal = s.thermal := by rw [State.showStat_eq]
@[simp] theorem State.showStat_instruments (s : State) (v : Nat) : (s.showStat v).instruments = s.instruments := by rw [State.showStat_eq]
@[simp] theorem State.showStat_free (s : State) (v : Nat) : (s.showStat v).free = s.free := by rw [State.showStat_eq]

@[simp] theorem State.sendVid_pending (s : State) (c : Nat) : (s.sendVid c).pending = s.pending := rfl
@[simp] theorem State.sendVid_now (s : State) (c : Nat) : (s.sendVid c).now = s.now := rfl
@[simp] theorem State.sendVid_tbOffset (s : State) (c : Nat) : (s.sendVid c).tbOffset = s.tbOffset := rfl
@[simp] theorem State.sendVid_slices (s : State) (c : Nat) : (s.sendVid c).slices = s.slices := rfl
@[simp] theorem State.sendVid_ports (s : State) (c : Nat) : (s.sendVid c).ports = s.ports := rfl
@[simp] theorem State.sendVid_refresh (s : State) (c : Nat) : (s.sendVid c).refresh = s.refresh := rfl
@[simp] theorem State.sendVid_quarters (s : State) (c : Nat) : (s.sendVid c).quarters = s.quarters := rfl
@[simp] theorem State.sendVid_entries (s : State) (c : Nat) : (s.sendVid c).entries = s.entries := rfl
@[simp] theorem State.sendVid_internal (s : State) (c : Nat) : (s.sendVid c).internal = s.internal := rfl
@[simp] theorem State.sendVid_candidates (s : State) (c : Nat) : (s.sendVid c).candidates = s.candidates := rfl
@[simp] theorem State.sendVid_fabric (s : State) (c : Nat) : (s.sendVid c).fabric = s.fabric := rfl
@[simp] theorem State.sendVid_hbm (s : State) (c : Nat) : (s.sendVid c).hbm = s.hbm := rfl
@[simp] theorem State.sendVid_links (s : State) (c : Nat) : (s.sendVid c).links = s.links := rfl
@[simp] theorem State.sendVid_straps (s : State) (c : Nat) : (s.sendVid c).straps = s.straps := rfl
@[simp] theorem State.sendVid_levels (s : State) (c : Nat) : (s.sendVid c).levels = s.levels := rfl
@[simp] theorem State.sendVid_fuses (s : State) (c : Nat) : (s.sendVid c).fuses = s.fuses := rfl
@[simp] theorem State.sendVid_boot (s : State) (c : Nat) : (s.sendVid c).boot = s.boot := rfl
@[simp] theorem State.sendVid_stores (s : State) (c : Nat) : (s.sendVid c).stores = s.stores := rfl
@[simp] theorem State.sendVid_profile (s : State) (c : Nat) : (s.sendVid c).profile = s.profile := rfl
@[simp] theorem State.sendVid_profNum (s : State) (c : Nat) : (s.sendVid c).profNum = s.profNum := rfl
@[simp] theorem State.sendVid_profRom (s : State) (c : Nat) : (s.sendVid c).profRom = s.profRom := rfl
@[simp] theorem State.sendVid_pepoch (s : State) (c : Nat) : (s.sendVid c).pepoch = s.pepoch := rfl
@[simp] theorem State.sendVid_profStore (s : State) (c : Nat) : (s.sendVid c).profStore = s.profStore := rfl
@[simp] theorem State.sendVid_switch (s : State) (c : Nat) : (s.sendVid c).switch = s.switch := rfl
@[simp] theorem State.sendVid_period (s : State) (c : Nat) : (s.sendVid c).period = s.period := rfl
@[simp] theorem State.sendVid_periodAt (s : State) (c : Nat) : (s.sendVid c).periodAt = s.periodAt := rfl
@[simp] theorem State.sendVid_oldHz (s : State) (c : Nat) : (s.sendVid c).oldHz = s.oldHz := rfl
@[simp] theorem State.sendVid_sealKey (s : State) (c : Nat) : (s.sendVid c).sealKey = s.sealKey := rfl
@[simp] theorem State.sendVid_sealUsed (s : State) (c : Nat) : (s.sendVid c).sealUsed = s.sealUsed := rfl
@[simp] theorem State.sendVid_ring (s : State) (c : Nat) : (s.sendVid c).ring = s.ring := rfl
@[simp] theorem State.sendVid_health (s : State) (c : Nat) : (s.sendVid c).health = s.health := rfl
@[simp] theorem State.sendVid_thermal (s : State) (c : Nat) : (s.sendVid c).thermal = s.thermal := rfl
@[simp] theorem State.sendVid_instruments (s : State) (c : Nat) : (s.sendVid c).instruments = s.instruments := rfl
@[simp] theorem State.sendVid_free (s : State) (c : Nat) : (s.sendVid c).free = s.free := rfl

@[simp] theorem State.chargeCore_pending (s : State) (n : Nat) : (s.chargeCore n).pending = s.pending := rfl
@[simp] theorem State.chargeCore_now (s : State) (n : Nat) : (s.chargeCore n).now = s.now := rfl
@[simp] theorem State.chargeCore_tbOffset (s : State) (n : Nat) : (s.chargeCore n).tbOffset = s.tbOffset := rfl
@[simp] theorem State.chargeCore_slices (s : State) (n : Nat) : (s.chargeCore n).slices = s.slices := rfl
@[simp] theorem State.chargeCore_ports (s : State) (n : Nat) : (s.chargeCore n).ports = s.ports := rfl
@[simp] theorem State.chargeCore_refresh (s : State) (n : Nat) : (s.chargeCore n).refresh = s.refresh := rfl
@[simp] theorem State.chargeCore_quarters (s : State) (n : Nat) : (s.chargeCore n).quarters = s.quarters := rfl
@[simp] theorem State.chargeCore_entries (s : State) (n : Nat) : (s.chargeCore n).entries = s.entries := rfl
@[simp] theorem State.chargeCore_internal (s : State) (n : Nat) : (s.chargeCore n).internal = s.internal := rfl
@[simp] theorem State.chargeCore_candidates (s : State) (n : Nat) : (s.chargeCore n).candidates = s.candidates := rfl
@[simp] theorem State.chargeCore_fabric (s : State) (n : Nat) : (s.chargeCore n).fabric = s.fabric := rfl
@[simp] theorem State.chargeCore_hbm (s : State) (n : Nat) : (s.chargeCore n).hbm = s.hbm := rfl
@[simp] theorem State.chargeCore_links (s : State) (n : Nat) : (s.chargeCore n).links = s.links := rfl
@[simp] theorem State.chargeCore_straps (s : State) (n : Nat) : (s.chargeCore n).straps = s.straps := rfl
@[simp] theorem State.chargeCore_levels (s : State) (n : Nat) : (s.chargeCore n).levels = s.levels := rfl
@[simp] theorem State.chargeCore_fuses (s : State) (n : Nat) : (s.chargeCore n).fuses = s.fuses := rfl
@[simp] theorem State.chargeCore_boot (s : State) (n : Nat) : (s.chargeCore n).boot = s.boot := rfl
@[simp] theorem State.chargeCore_stores (s : State) (n : Nat) : (s.chargeCore n).stores = s.stores := rfl
@[simp] theorem State.chargeCore_profile (s : State) (n : Nat) : (s.chargeCore n).profile = s.profile := rfl
@[simp] theorem State.chargeCore_profNum (s : State) (n : Nat) : (s.chargeCore n).profNum = s.profNum := rfl
@[simp] theorem State.chargeCore_profRom (s : State) (n : Nat) : (s.chargeCore n).profRom = s.profRom := rfl
@[simp] theorem State.chargeCore_pepoch (s : State) (n : Nat) : (s.chargeCore n).pepoch = s.pepoch := rfl
@[simp] theorem State.chargeCore_profStore (s : State) (n : Nat) : (s.chargeCore n).profStore = s.profStore := rfl
@[simp] theorem State.chargeCore_switch (s : State) (n : Nat) : (s.chargeCore n).switch = s.switch := rfl
@[simp] theorem State.chargeCore_period (s : State) (n : Nat) : (s.chargeCore n).period = s.period := rfl
@[simp] theorem State.chargeCore_periodAt (s : State) (n : Nat) : (s.chargeCore n).periodAt = s.periodAt := rfl
@[simp] theorem State.chargeCore_oldHz (s : State) (n : Nat) : (s.chargeCore n).oldHz = s.oldHz := rfl
@[simp] theorem State.chargeCore_sealKey (s : State) (n : Nat) : (s.chargeCore n).sealKey = s.sealKey := rfl
@[simp] theorem State.chargeCore_sealUsed (s : State) (n : Nat) : (s.chargeCore n).sealUsed = s.sealUsed := rfl
@[simp] theorem State.chargeCore_ring (s : State) (n : Nat) : (s.chargeCore n).ring = s.ring := rfl
@[simp] theorem State.chargeCore_health (s : State) (n : Nat) : (s.chargeCore n).health = s.health := rfl
@[simp] theorem State.chargeCore_thermal (s : State) (n : Nat) : (s.chargeCore n).thermal = s.thermal := rfl
@[simp] theorem State.chargeCore_instruments (s : State) (n : Nat) : (s.chargeCore n).instruments = s.instruments := rfl
@[simp] theorem State.chargeCore_free (s : State) (n : Nat) : (s.chargeCore n).free = s.free := rfl

@[simp] theorem State.chargeFixed_pending (s : State) (n : Nat) : (s.chargeFixed n).pending = s.pending := by unfold State.chargeFixed; rfl
@[simp] theorem State.chargeFixed_now (s : State) (n : Nat) : (s.chargeFixed n).now = s.now := by unfold State.chargeFixed; rfl
@[simp] theorem State.chargeFixed_tbOffset (s : State) (n : Nat) : (s.chargeFixed n).tbOffset = s.tbOffset := by unfold State.chargeFixed; rfl
@[simp] theorem State.chargeFixed_slices (s : State) (n : Nat) : (s.chargeFixed n).slices = s.slices := by unfold State.chargeFixed; rfl
@[simp] theorem State.chargeFixed_ports (s : State) (n : Nat) : (s.chargeFixed n).ports = s.ports := by unfold State.chargeFixed; rfl
@[simp] theorem State.chargeFixed_refresh (s : State) (n : Nat) : (s.chargeFixed n).refresh = s.refresh := by unfold State.chargeFixed; rfl
@[simp] theorem State.chargeFixed_quarters (s : State) (n : Nat) : (s.chargeFixed n).quarters = s.quarters := by unfold State.chargeFixed; rfl
@[simp] theorem State.chargeFixed_entries (s : State) (n : Nat) : (s.chargeFixed n).entries = s.entries := by unfold State.chargeFixed; rfl
@[simp] theorem State.chargeFixed_internal (s : State) (n : Nat) : (s.chargeFixed n).internal = s.internal := by unfold State.chargeFixed; rfl
@[simp] theorem State.chargeFixed_candidates (s : State) (n : Nat) : (s.chargeFixed n).candidates = s.candidates := by unfold State.chargeFixed; rfl
@[simp] theorem State.chargeFixed_fabric (s : State) (n : Nat) : (s.chargeFixed n).fabric = s.fabric := by unfold State.chargeFixed; rfl
@[simp] theorem State.chargeFixed_hbm (s : State) (n : Nat) : (s.chargeFixed n).hbm = s.hbm := by unfold State.chargeFixed; rfl
@[simp] theorem State.chargeFixed_links (s : State) (n : Nat) : (s.chargeFixed n).links = s.links := by unfold State.chargeFixed; rfl
@[simp] theorem State.chargeFixed_straps (s : State) (n : Nat) : (s.chargeFixed n).straps = s.straps := by unfold State.chargeFixed; rfl
@[simp] theorem State.chargeFixed_levels (s : State) (n : Nat) : (s.chargeFixed n).levels = s.levels := by unfold State.chargeFixed; rfl
@[simp] theorem State.chargeFixed_fuses (s : State) (n : Nat) : (s.chargeFixed n).fuses = s.fuses := by unfold State.chargeFixed; rfl
@[simp] theorem State.chargeFixed_boot (s : State) (n : Nat) : (s.chargeFixed n).boot = s.boot := by unfold State.chargeFixed; rfl
@[simp] theorem State.chargeFixed_stores (s : State) (n : Nat) : (s.chargeFixed n).stores = s.stores := by unfold State.chargeFixed; rfl
@[simp] theorem State.chargeFixed_profile (s : State) (n : Nat) : (s.chargeFixed n).profile = s.profile := by unfold State.chargeFixed; rfl
@[simp] theorem State.chargeFixed_profNum (s : State) (n : Nat) : (s.chargeFixed n).profNum = s.profNum := by unfold State.chargeFixed; rfl
@[simp] theorem State.chargeFixed_profRom (s : State) (n : Nat) : (s.chargeFixed n).profRom = s.profRom := by unfold State.chargeFixed; rfl
@[simp] theorem State.chargeFixed_pepoch (s : State) (n : Nat) : (s.chargeFixed n).pepoch = s.pepoch := by unfold State.chargeFixed; rfl
@[simp] theorem State.chargeFixed_profStore (s : State) (n : Nat) : (s.chargeFixed n).profStore = s.profStore := by unfold State.chargeFixed; rfl
@[simp] theorem State.chargeFixed_switch (s : State) (n : Nat) : (s.chargeFixed n).switch = s.switch := by unfold State.chargeFixed; rfl
@[simp] theorem State.chargeFixed_period (s : State) (n : Nat) : (s.chargeFixed n).period = s.period := by unfold State.chargeFixed; rfl
@[simp] theorem State.chargeFixed_periodAt (s : State) (n : Nat) : (s.chargeFixed n).periodAt = s.periodAt := by unfold State.chargeFixed; rfl
@[simp] theorem State.chargeFixed_oldHz (s : State) (n : Nat) : (s.chargeFixed n).oldHz = s.oldHz := by unfold State.chargeFixed; rfl
@[simp] theorem State.chargeFixed_sealKey (s : State) (n : Nat) : (s.chargeFixed n).sealKey = s.sealKey := by unfold State.chargeFixed; rfl
@[simp] theorem State.chargeFixed_sealUsed (s : State) (n : Nat) : (s.chargeFixed n).sealUsed = s.sealUsed := by unfold State.chargeFixed; rfl
@[simp] theorem State.chargeFixed_ring (s : State) (n : Nat) : (s.chargeFixed n).ring = s.ring := by unfold State.chargeFixed; rfl
@[simp] theorem State.chargeFixed_health (s : State) (n : Nat) : (s.chargeFixed n).health = s.health := by unfold State.chargeFixed; rfl
@[simp] theorem State.chargeFixed_thermal (s : State) (n : Nat) : (s.chargeFixed n).thermal = s.thermal := by unfold State.chargeFixed; rfl
@[simp] theorem State.chargeFixed_instruments (s : State) (n : Nat) : (s.chargeFixed n).instruments = s.instruments := by unfold State.chargeFixed; rfl
@[simp] theorem State.chargeFixed_free (s : State) (n : Nat) : (s.chargeFixed n).free = s.free := by unfold State.chargeFixed; rfl

/-- A member read after an update of a list. -/
theorem getD_modAt {α : Type} (d : α) : ∀ (l : List α) (i j : Nat) (f : α → α), i < l.length →
    (modAt l i f).getD j d = if j = i then f (l.getD i d) else l.getD j d
  | [], i, _, _, h => absurd h (Nat.not_lt_zero i)
  | x :: xs, 0, 0, f, _ => by simp [modAt]
  | x :: xs, 0, j + 1, f, _ => by simp [modAt]
  | x :: xs, i + 1, 0, f, _ => by simp [modAt]
  | x :: xs, i + 1, j + 1, f, h => by
    simp only [modAt, List.getD_cons_succ, Nat.add_right_cancel_iff]
    exact getD_modAt d xs i j f (Nat.lt_of_succ_lt_succ h)

theorem State.modQuarter_quarter (s : State) {q : Nat} (j : Nat) (f : Quarter → Quarter) (h : q < s.quarters.length) :
    (s.modQuarter q f).quarter j = if j = q then f (s.quarter q) else s.quarter j := getD_modAt _ _ _ _ _ h

theorem State.modSlice_slice (s : State) {i : Nat} (j : Nat) (f : Slice → Slice) (h : i < s.slices.length) :
    (s.modSlice i f).slice j = if j = i then f (s.slice i) else s.slice j := getD_modAt _ _ _ _ _ h

theorem State.modFport_fport (s : State) {n : Nat} (j : Nat) (f : FabricPort → FabricPort) (h : n < s.links.ports.length) :
    (s.modFport n f).fport j = if j = n then f (s.fport n) else s.fport j := getD_modAt _ _ _ _ _ h

/-- The entry of a key after a keyed list is written. -/
theorem assocGet_put {β : Type} : ∀ (l : List (Nat × β)) (k j : Nat) (v : β),
    assocGet (assocPut l k v) j = if j = k then some v else assocGet l j
  | [], k, j, v => by
    simp only [assocPut, assocGet]
    by_cases h : k = j
    · simp [h]
    · simp [h, Ne.symm h]
  | (k', v') :: rest, k, j, v => by
    unfold assocPut
    by_cases h1 : k < k'
    · simp only [h1, if_true, assocGet]
      by_cases h : k = j
      · simp [h]
      · simp [h, Ne.symm h]
    · by_cases h2 : k = k'
      · subst h2
        simp only [h1, if_false, if_true, assocGet]
        by_cases h : k = j
        · simp [h]
        · simp [h, Ne.symm h]
      · simp only [h1, if_false, h2, assocGet]
        rw [assocGet_put rest k j v]
        by_cases h : k' = j
        · have : ¬ j = k := fun e => h2 (e.symm.trans h.symm)
          simp [h, this]
        · simp [h]

theorem State.putEntry_entry (s : State) (c d : Nat) (e : Entry) : (s.putEntry c e).entry d = if d = c then e else s.entry d := by
  unfold State.putEntry State.entry
  rw [assocGet_put]
  split <;> rfl

end Sys2Proof.Machine
end

