-- ==== Sys2Proof/Tests/Fixtures.lean ====
section
/-! SUPPORT. Tests/Fixtures.lean: the small states that the tests and the witnesses of the statements start from, and a reader of one answer. -/
namespace Sys2Proof.Tests
set_option Elab.async false
open Sys2Proof.Machine

/-- The command answers a next state with a property. -/
def answers (c : Instr) (s : State) (p : State → Bool) : Bool :=
  match exec c s with
  | .next t => p t
  | _ => false

/-- Out of reset, in a phase of bring-up. -/
def booting (phase : Nat) : State := { State.reset with boot := { State.reset.boot with resetN := true, phase := phase } }

/-- A ready device with the ROM profile applied. -/
def up : State :=
  { State.reset with boot := { State.reset.boot with resetN := true, phase := 0xB, latched := true, applied := true, ioLock := true
                                                     coreLock := true, trained := true, initialised := true, stat := 0xB }
                     hbm := { State.reset.hbm with hbmStacks := List.replicate 4 { trained := true } }
                     power := { State.reset.power with cclk := 1600, ptherm := 6400 }
                     levels := { mv := [0, 0, 0, 1600], level := [0, 0, 0, 14], measured := true } }

/-- `n` bytes of zeros but for values written little-endian: offset, width in bytes, value. -/
def bytesWith (n : Nat) (xs : List (Nat × Nat × Nat)) : List Byte :=
  (List.range n).map (fun i => match xs.find? (fun x => decide (x.1 ≤ i) && decide (i < x.1 + x.2.1)) with
    | some x => BitVec.ofNat 8 (x.2.2 / 256 ^ (i - x.1))
    | none => 0)

/-- A record of profile `n` (Table 14.10) with a CCLK and a number of resident contexts, no window, port or route. -/
def profileRecord (n mhz ctxs : Nat) : List Byte :=
  bytesWith 0x80 [(0, 4, 0x31465250), (4, 1, n), (5, 1, 1), (0x40, 2, mhz), (0x42, 2, 320), (0x44, 1, 15), (0x45, 1, 15), (0x46, 1, ctxs),
    (0x47, 1, 32), (0x48, 2, 256), (0x4A, 2, 64), (0x4C, 1, 2), (0x4D, 1, 32), (0x4E, 1, 1), (0x4F, 1, 16), (0x50, 1, 8), (0x52, 1, 30),
    (0x53, 1, 75), (0x55, 1, 40), (0x56, 2, 10), (0x58, 1, 16), (0x5A, 2, 1000), (0x5C, 2, 100), (0x5E, 1, 24), (0x60, 1, 100), (0x61, 1, 2)]

/-- An operation packet: opcode, sequence number, further bytes. -/
def packet (opc seq : Nat) (xs : List (Nat × Nat × Nat)) : List Byte := bytesWith 64 ([(0, 1, opc), (4, 2, seq)] ++ xs)

/-- An attach entry of a resident context of quarter `q` in slot `k`, with 256 tiles and a queue. -/
def resident (q k : Nat) (queue : List Op) : Entry :=
  { state := .runnable, slot := some k, quarter := some q, queue := queue, expSeq := 9
    desc := { cls := 0, qaff := 15, wt := 1, tcnt := 256, troot := 0x10000, ppage := 0x20000, ering := 0x30000, ersz := 6, sarea := 0x40000 } }

/-- A ready device with one context, and one routine on its quarter. -/
def running (c q : Nat) (e : Entry) (j : Job) : State :=
  { up with entries := [(c, e)], quarters := modAt up.quarters q (fun u => { u with jobs := [j] }) }

end Sys2Proof.Tests
end

