-- ==== Sys2Proof/Tests/Slice0.lean ====
section
/-! SUPPORT. Tests/Slice0.lean: commands that the well-formedness check refuses, one for each kind of unit, and the worked cases of
chapters 02 and 11 by the model's functions. -/
namespace Sys2Proof.Tests
set_option Elab.async false
open Sys2Proof.Machine

/-! ### Well-formedness: the first unit that the part does not have, of each kind -/

theorem test_wf_quarter : (Instr.arrayStepStart 4).wf = false ∧ (Instr.arrayStepStart 3).wf = true := by decide
theorem test_wf_track : (Instr.segmentCommit 0 4 0).wf = false ∧ (Instr.segmentCommit 0 3 0).wf = true := by decide
theorem test_wf_slice : (Instr.allocatorRound 4).wf = false ∧ (Instr.allocatorRound 3).wf = true := by decide
theorem test_wf_slicePort : (Instr.portRound 0 4 {}).wf = false ∧ (Instr.portRound 0 3 {}).wf = true := by decide
theorem test_wf_bank : (Instr.bankEvacuate 0 34).wf = false ∧ (Instr.bankEvacuate 0 33).wf = true := by decide
theorem test_wf_line : (Instr.debugTransfer 0 8192).wf = false ∧ (Instr.debugTransfer 0 8191).wf = true := by decide
theorem test_wf_stack : (Instr.hbmScrubRead 4 [] []).wf = false ∧ (Instr.hbmScrubRead 3 [] []).wf = true := by decide
theorem test_wf_pseudoChannel : (Instr.hbmBankRefresh ⟨128, 2, 15⟩).wf = false ∧ (Instr.hbmBankRefresh ⟨127, 2, 15⟩).wf = true := by decide
theorem test_wf_stackId : (Instr.hbmBankRefresh ⟨127, 3, 15⟩).wf = false := by decide
theorem test_wf_dramBank : (Instr.hbmBankRefresh ⟨127, 2, 16⟩).wf = false := by decide
theorem test_wf_target : (Instr.fabricTargetRound 7 [] []).wf = false ∧ (Instr.fabricTargetRound 6 [] []).wf = true := by decide
theorem test_wf_quad : (Instr.sdrefclkLoss 4).wf = false ∧ (Instr.sdrefclkLoss 3).wf = true := by decide
theorem test_wf_link : (Instr.flitTransmit 17).wf = false ∧ (Instr.flitTransmit 16).wf = true := by decide
theorem test_wf_port : (Instr.widthSwitch 16).wf = false ∧ (Instr.widthSwitch 15).wf = true := by decide
theorem test_wf_lane : (Instr.fpLaneFail 0 8).wf = false ∧ (Instr.fpLaneFail 0 7).wf = true := by decide
theorem test_wf_module : (Instr.moduleRetrain 8).wf = false ∧ (Instr.moduleRetrain 7).wf = true := by decide
theorem test_wf_context : (Instr.operationComplete 512).wf = false ∧ (Instr.operationComplete 511).wf = true := by decide
theorem test_wf_device : (Instr.streamEpochResume 128).wf = false ∧ (Instr.streamEpochResume 127).wf = true := by decide
theorem test_wf_roundFind : (Instr.portRound 0 0 ⟨[], [.peg 0 16 true]⟩).wf = false ∧ (Instr.portRound 0 0 ⟨[], [.peg 0 15 true]⟩).wf = true := by decide
theorem test_wf_found : (Instr.storeScrub [.micro 0x20000 1]).wf = false ∧ (Instr.storeScrub [.micro 0x1FFFF 1]).wf = true := by decide

/-- A unit that the part does not have stops by name. -/
theorem test_stop_quarter : exec (.arrayStepStart 4) up = .fault (.noSuchUnit "quarter" 4) := rfl

/-! ### Worked cases of §2.15 -/

/-- A row of 32 elements. -/
def row (scale : Nat) (es : List Nat) : Row :=
  ⟨BitVec.ofNat 8 scale, (List.range 32).map (fun i => BitVec.ofNat 8 (es.getD i 0))⟩

/-- Case 1. -/
theorem test_group_sum : groupSum (row 0x7F [5, 0xFD, 0x7F]) (row 0x7C [0x10, 0x20, 0x81]) = .real ⟨-16145, -3⟩ ∧
    (accumulate Af.zero (.real ⟨-16145, -3⟩)).val = ⟨0x304FC44000000, false⟩ := by decide +kernel

/-- Case 2: the mandated order, and the other. -/
theorem test_order_of_sums :
    (accumulate (accumulate ⟨0x1138000000000, false⟩ (.real ⟨1, 0⟩)).val (.real ⟨2, 0⟩)).val.word = 0x1138000000001 ∧
      (accumulate (accumulate ⟨0x1138000000000, false⟩ (.real ⟨2, 0⟩)).val (.real ⟨1, 0⟩)).val.word = 0x1138000000002 := by decide +kernel

/-- The plane row of case 3. -/
def planeRow : List Val := (List.range 32).map (fun i => (⟨if i = 0 then 0x1047A00000000 else if i = 1 then 0x304FC00000000 else 0, false⟩ : Af).val)

/-- Case 3. -/
theorem test_drain :
    quantRow {} 0 planeRow = row 0x83 [0x3E, 0x82] ∧ quantRow { relu := true } 0 planeRow = row 0x82 [0x7D] ∧ sr16 1 0 = 0x90C0 ∧
      quantRow { seed := some 1 } 0 planeRow = row 0x83 [0x3F, 0x82] := by decide +kernel

/-- Case 4. -/
theorem test_store :
    storeF16 (elemVal 0x83 0x3F) = natLe 2 0x63E0 ∧ storeF16 (elemVal 0x83 0x82) = natLe 2 0xE7E0 ∧ storeF32 (elemVal 0x83 0x3F) = natLe 4 0x447C0000 ∧
      storeF32 (elemVal 0x83 0x82) = natLe 4 0xC4FC0000 ∧ storeF16 (elemVal 0xA0 0x7F) = natLe 2 0x7BFF ∧ storeF32 (elemVal 0xA0 0x7F) = natLe 4 0x537E0000 := by
  decide +kernel

/-- Case 5. -/
theorem test_load_f16 :
    quantRow QMode.load 0 ((List.range 32).map (fun i => ieeeVal 5 10 (([0x3C00, 0xC500, 0x7C00, 0x7E00, 0x8000] : List Nat).getD i 0))) =
      row 0x7B [0x10, 0xB0, 0x7F, 0x80] := by decide +kernel

/-- Case 6. -/
theorem test_regroup :
    ((Tile.regroup ([row 0x7F [0x64], row 0x81 [0x0B], row 0x7C [0xFD]] ++ List.replicate 29 Row.zero)).getD 0 Row.zero) = row 0x7F [0x64, 0x2C] := by
  decide +kernel

/-- Case 7. -/
theorem test_reciprocal :
    (rcpReal ⟨3, -1⟩).val.word = 0xFF2AAAAAAAAB ∧ quantRow {} 0 (List.replicate 32 (rcpReal ⟨3, -1⟩).val.val) = row 0x78 (List.replicate 32 0x55) ∧
      (rcpReal Dy.zero).domain = true := by decide +kernel

/-! ### Other worked cases -/

/-- §11.11, case 1: the pseudo channel and the stack of a byte, and of the 4 KiB block about it. -/
theorem test_locate : pseudoChannel 0x0040012345 = 0x23 ∧ stackOf 0x0040012345 = 1 ∧ pseudoChannel 0x0040012000 = 0x20 ∧
    pseudoChannel 0x0040012F00 = 0x2F := by decide

/-- The check value of the CRC of IEEE 802.3. -/
theorem test_crc32 : Crypto.crc32 [0x31, 0x32, 0x33, 0x34, 0x35, 0x36, 0x37, 0x38, 0x39] = 0xCBF43926 := by decide +kernel

/-- §8.12, case 1: the fields of the descriptor. -/
theorem test_descriptor :
    let d := parseDesc (bytesWith 256 [(0, 1, 1), (2, 1, 2), (3, 1, 4), (4, 2, 256), (6, 2, 0x0A25), (8, 8, 0x500000100000), (16, 8, 0x500000200000),
      (24, 8, 0x20500000201000), (32, 8, 0x500001000000)]) 0x500000000000
    d.cls = 0 ∧ d.qaff = 2 ∧ d.wt = 4 ∧ d.tcnt = 256 ∧ d.shdl = 0x0A25 ∧ d.troot = 0x500000100000 ∧ d.ppage = 0x500000200000 ∧
      d.ering = 0x500000201000 ∧ d.ersz = 2 ∧ d.sarea = 0x500001000000 := by decide +kernel

end Sys2Proof.Tests
end

