-- ==== Sys2Proof/Tests/WitnessBringup.lean ====
section
/-! SUPPORT. Tests/WitnessBringup.lean: concrete states that meet the hypotheses of the statements about the
queue, reset, bring-up, power and temperature, with what the command then answers. -/
namespace Sys2Proof.Tests
set_option Elab.async false
open Sys2Proof.Machine

theorem witness_StepRunsFrontCommand :
    ({ up with pending := [.holdCleared] } : State).pending = .holdCleared :: [] ∧ up.pending = [] := ⟨rfl, rfl⟩

theorem witness_CommandsLeaveQueueFusesAndTime : (match exec .resetAssert up with | .next _ => true | _ => false) = true := by decide +kernel

theorem witness_CommandsStopOnlyForAbsentUnits : (Instr.portRound 3 3 {}).wf = true ∧ (Instr.portRound 4 3 {}).wf = false := by decide

theorem up_inv : up.Inv := ⟨⟨rfl, rfl, rfl, rfl, rfl⟩, rfl, by decide⟩

theorem witness_StepKeepsInvariant : up.Inv ∧ (match step { up with pending := [.resetAssert] } with | .next _ => true | _ => false) = true :=
  ⟨up_inv, by decide +kernel⟩

theorem witness_OnlySetupCommandsChangeConfiguration :
    (match exec .holdCleared up with | .next _ => true | _ => false) = true ∧ Instr.holdCleared ≠ .pwrgoodFall ∧ Instr.holdCleared ≠ .resetAssert ∧
      Instr.holdCleared ≠ .profileApply := by decide +kernel

/-- A device with one byte of memory written and a read posted. -/
def oneByte : State := { up with hbm := { up.hbm with mem := [(5, 7)] }
                                 fabric := { up.fabric with txns := [{ id := 0, master := 0, target := 0, owner := .device, kind := .read
                                                                       spa := 0, len := 8 }] } }

theorem witness_ResetAssertionStopsTheDevice :
    oneByte.boot.pwrgood = true ∧ oneByte.boot.resetN = true ∧ (∀ x ∈ oneByte.fabric.txns, x.isWrite = true → x.state ≠ .posted) ∧ oneByte.bufferedWrites = [] ∧
      answers .pwrgoodFall oneByte (fun t => t.hbm.mem == [] && t.boot.stat == 0 && t.fabric.txns.isEmpty) = true ∧
      answers .resetAssert oneByte (fun t => t.hbm.mem == [(5, 7)] && t.boot.stat == 0) = true ∧ State.reset.boot.resetN = false ∧
      ({ up with boot := { up.boot with pwrgood := false } } : State).boot.pwrgood = false := by decide +kernel

theorem witness_ReleaseOfResetStartsTheTimebase :
    State.reset.boot.resetN = false ∧ State.reset.boot.pwrgood = true ∧
      answers (.resetRelease true) State.reset (fun t => t.boot.resetN && t.boot.needInit && t.timebase == 0) = true ∧
      answers .pwrgoodRise { up with boot := { up.boot with pwrgood := false } } (fun t => t.boot.pwrgood && t.boot.powerOn) = true := by
  decide +kernel

theorem witness_StrapsAreLatchedOnce :
    (booting 0).boot.resetN = true ∧ (booting 0).boot.latched = false ∧ (booting 0).boot.phase = 0 ∧ up.boot.latched = true ∧
      answers (.strapLatch 3 true false false false true true) (booting 0) (fun t => t.boot.holding && t.straps.remapEn && t.now == 30) = true ∧
      answers (.strapLatch 0 true false false false false true) (booting 0) (fun t => t.boot.fatal == some Code.fuseFail) = true ∧
      (booting 1).levels.measured = false ∧
      answers (.levelPinMeasure [[], List.replicate 16 0, [], []]) (booting 1) (fun t => t.boot.phase == 2 && t.levels.measured) = true ∧
      answers (.levelPinMeasure [List.replicate 16 1800]) (booting 1) (fun t => t.boot.fatal == some Code.lvlInvalid) = true ∧
      ({ up with levels := { up.levels with measured := true } } : State).levels.measured = true := by
  decide +kernel

theorem witness_PllsFlashAndHold :
    answers .pllsLocked (booting 2) (fun t => t.boot.phase == 3 && t.power.cclk == 800 && t.power.vCode == 0x78 && t.power.strobes == 1) = true ∧
      answers (.flashSfdpRead ⟨9, [false, true, true, false, true]⟩) (booting 3) (fun t => t.boot.sfdp == some 2 && t.boot.capture == some 1 &&
        t.boot.spiHigh && t.boot.phase == 4) = true ∧
      answers (.flashSfdpRead ⟨9, []⟩) (booting 3) (fun t => t.boot.sfdp == some 0 && t.boot.capture == none) = true ∧
      (booting 3).boot.holding = false ∧ (booting 3).straps.boot ≠ 2 ∧
      answers .holdCleared { booting 3 with now := 5, boot := { (booting 3).boot with holding := true } } (fun t => !t.boot.holding && t.boot.holdEnd == 5) = true ∧
      answers .holdCleared (booting 3) (fun t => t == booting 3) = true ∧
      answers .microRamRemap { booting 6 with straps := { boot := 0, remapEn := true }
                                              boot := { (booting 6).boot with copyUsed := some 0 } }
        (fun t => t.boot.remapped && t.boot.phase == 7) = true := by
  decide +kernel

theorem witness_ImagesAreVerifiedOnce :
    (booting 4).boot.copies.length < 2 ∧ (booting 4).copyOrder false [] = 1 ∧
      answers (.imageCopyVerify false []) (booting 4) (fun t => t.boot.phase == 4 && t.boot.copies == [1]) = true ∧
      answers (.imageCopyVerify false []) { booting 4 with boot := { (booting 4).boot with copies := [6] } }
        (fun t => t.boot.phase == 6 && t.stores.micro == [] && t.boot.copyUsed == none) = true ∧ up.boot.phase ≠ 4 := by
  decide +kernel

theorem witness_BistSetsServiceOfQuarters :
    (booting 7).quarters.length = 4 ∧
      answers (.bist [.unit 0, .column 1 255, .column 2 0, .column 2 1]) (booting 7) (fun t =>
        (List.range 4).map (fun q => (t.quarter q).removed) == [true, false, true, false] && t.boot.phase == 0x10) = true ∧
      answers (.bist [.unit 0, .unit 1, .unit 2, .unit 3]) (booting 7) (fun t => t.boot.fatal == some Code.bistFail) = true ∧
      up.boot.phase ≠ 7 := by
  decide +kernel

/-- At the bring-up apply, with profile 7 debounced and in the store. -/
def atApply (r : List Byte) : State :=
  { booting 0x10 with switch := { (booting 0x10).switch with pselTaken := some 7 }, profStore := [(7, r)] }

theorem witness_BringupApplyTakesOneProfile :
    (atApply (profileRecord 7 1200 8)).checkRecord 7 true = none ∧ (atApply (profileRecord 7 1200 8)).bringUpNumber = 7 ∧
      answers (.bringupApply true false) (atApply (profileRecord 7 1200 8)) (fun t =>
        t.profNum == 7 && t.pepoch == 1 && t.power.cclk == 1200 && t.boot.phase == 8 && !t.profRom && t.profile.residentCtx == 8 &&
        t.boot.applied) = true ∧
      ((atApply []).checkRecord 7 true).isSome = true ∧ (atApply []).checkStaged {} true = none ∧
      answers (.bringupApply true true) (atApply []) (fun t =>
        t.profRom && t.boot.refused == Code.pfFormat && t.profile == {} && t.boot.phase == 8 && t.pepoch == 1 && t.profNum == 0 &&
        t.boot.applied) = true ∧
      answers (.bringupApply false false) (atApply (profileRecord 7 1200 8)) (fun t =>
        t.boot.fatal == some Code.profileNone && t.boot.refused == Code.vidSettle) = true ∧
      answers (.bringupApply true true) (booting 0x10) (fun t => t == booting 0x10) = true := by
  decide +kernel

theorem witness_HbmComesUpInitialised :
    (booting 8).boot.trained = false ∧ (booting 8).hbm.hbmStacks.length = 4 ∧ (booting 8).boot.needInit = true ∧
      answers (.hbmTraining [1, 2, 3, 3] []) (booting 8) (fun t =>
        t.boot.trained && t.boot.phase == 8 && t.hbm.hbmStacks.all (fun x => x.trained && !x.selfRefresh)) = true ∧
      answers (.hbmTraining [1, 2, 3, 3] []) { booting 8 with boot := { (booting 8).boot with needInit := false } } (fun t =>
        t.boot.phase == 9 && t.links.host.st == .train) = true ∧
      answers (.hbmTraining [1, 4] []) (booting 8) (fun t => t.boot.fatal == some Code.hbmTrainFail) = true ∧
      answers .hbmInitialise { booting 8 with boot := { (booting 8).boot with trained := true }, hbm := { (booting 8).hbm with mem := [(9, 1)] } }
        (fun t => t.hbm.mem == [] && t.boot.initialised && t.boot.phase == 9 && t.links.host.st == .train) = true := by
  decide +kernel

theorem witness_ReadinessFollowsFabricTraining :
    answers .fabricTrainingEnd (booting 0xA) (fun t => t.boot.phase == 0x11) = true ∧
      answers .readiness (booting 0x11) (fun t => t.ready && t.health.dueAt == some 1000000000) = true ∧
      answers .statHoldExpiry { up with boot := { up.boot with statNext := some 12 } } (fun t =>
        t.boot.stat == 12 && t.boot.statNext == none && t.now == 1000 && t.boot.statSince == 1000) = true ∧ up.boot.statNext = none := by
  decide +kernel

theorem witness_PhasesThatFailEndBringup :
    [1, 4, 5, 6, 7, 8].all (fun p => answers .bringupPhaseTimeout (booting p) (fun t =>
        t.boot.fatal == some Code.phaseTimeout && t.now == phaseLimit p && t.boot.phase == 0xF)) = true ∧
      answers .bringupPhaseTimeout (booting 3) (fun t => t.boot.fatal == some Code.phaseTimeout) = true ∧
      answers .bringupPhaseTimeout (booting 2) (fun t => t.boot.fatal == some Code.pllLockFail) = true ∧
      answers .bringupPhaseTimeout (booting 0xA) (fun t => t.boot.phase == 0x11 && t.now == 1000000000) = true ∧
      up.boot.phase = 0xB ∧ up.boot.ioLock = true ∧ up.power.relocking = false ∧
      answers (.pllLockLoss true) up (fun t => t.boot.fatal == some Code.pllLockFail && !t.boot.coreLock) = true ∧
      answers (.pllLockLoss false) up (fun t => t.boot.fatal == some Code.pllLockFail && !t.boot.ioLock) = true ∧
      up.links.ports.length = 16 ∧
      answers (.sdrefclkLoss 3) { up with links := { up.links with ports := List.replicate 16 { st := .active } } } (fun t =>
        (List.range 16).map (fun i => (t.fport i).st.isUp) == List.replicate 12 true ++ List.replicate 4 false) = true := by
  decide +kernel

theorem witness_EnergyAccountTakesIncomeAndCost :
    up.boot.applied = true ∧ up.running = true ∧
      answers .energyInterval { up with now := 1700, tbOffset := 300, power := { up.power with eint := 5, account := -7 } } (fun t =>
        t.now == 2700 && t.power.eint == 0 && t.power.intervals == 1 &&
        decide (t.power.account = -7 + Int.ofNat (up.income 1) - 5 - Int.ofNat (40 * 10000 * energyUnit))) = true ∧
      State.reset.boot.applied = false ∧
      answers .staticBandEval { up with thermal := { up.thermal with readings := List.replicate 28 1600, bandAt := 5 } } (fun t => t.now == 1000005 && t.thermal.bandAt == 1000005 &&
        t.power.band == staticBand 1600) = true ∧ State.reset.running = false := by
  decide +kernel

/-- A ready device with one routine of context 3 on quarter 1 whose next step is at the array edge. -/
def stepping (account : Int) : State :=
  { up with quarters := modAt up.quarters 1 (fun u => { u with jobs := [{ ctx := 3, tracks := [0], edge := true }] })
            power := { up.power with account := account } }

theorem witness_StepDecisionsFollowTheAccount :
    (up.quarter 3).stepReady = none ∧ ((stepping 0).quarter 1).stepReady = some { ctx := 3, tracks := [0], edge := true } ∧
      answers (.powerStepDecision 2) (stepping 0) (fun t => !(t.quarter 1).stepPermit && t.power.idleSteps == 1) = true ∧
      answers (.powerStepDecision 2) (stepping (Int.ofNat (up.stepEnergy + up.income 20))) (fun t =>
        (t.quarter 1).stepPermit && t.power.ptr == 2 && decide (t.power.account = Int.ofNat (up.income 20)) &&
        t.power.esteps == up.stepEnergy) = true := by
  decide +kernel

theorem witness_SensorsSetThresholdsAndRefresh :
    answers (.sensorSample (List.replicate 28 (115 * 16)) []) up (fun t => t.boot.phase == 0xE && t.power.taken == 0x50 && t.now == 10000) = true ∧
      answers (.sensorSample (List.replicate 28 (115 * 16 - 1)) []) up (fun t => t.boot.phase == 0xB && t.now == 10000) = true ∧
      answers (.hbmTemperatureRead [85 * 16, 85 * 16 + 1] []) up (fun t =>
        t.hbm.hbmStacks.map (·.refInterval) == [3900, 1950, 3900, 3900]) = true ∧ State.reset.running = false := by
  decide +kernel

theorem witness_VidCodesFollowClockChanges :
    answers .vidLowerCode { up with power := { up.power with lower := some (0x60, 77) } } (fun t =>
        t.now == 77 && t.power.taken == 0x60 && t.power.vCode == 0x60 && t.power.lower == none && t.power.strobes == 1) = true ∧
      up.power.lower = none ∧ up.switch.step = .idle ∧
      answers .vidSettleTimeout { up with power := { up.power with rising := some (0x60, 50) }, switch := { up.switch with step := .ready } }
        (fun t => t.now == 100050 && t.switch.step == .idle && t.power.rising == none) = true := by
  decide +kernel

theorem witness_TripsAndTheThermalCeiling :
    answers (.imonSample 7000) up (fun t => t.now == 500 && t.power.samples == [7000] && !t.power.trip) = true ∧
      up.imonExceeds (7000 :: List.replicate 7 0) = true ∧ up.imonExceeds (List.replicate 8 0) = false ∧
      answers (.imonSample 7000) { up with power := { up.power with samples := List.replicate 7 0 } } (fun t => t.power.trip && t.power.fallAt == none &&
        t.power.trips == 1) = true ∧
      answers (.imonSample 0) { up with power := { up.power with trip := true, samples := List.replicate 7 0 } } (fun t =>
        t.power.trip && t.power.fallAt == some 500) = true ∧
      answers .imonTripHoldExpiry { up with power := { up.power with trip := true, fallAt := some 5 } } (fun t =>
        t.now == 20005 && !t.power.trip) = true ∧
      (∀ x ∈ [((1600 : Int), 6080), (1599, 6400), (1568, 6400)],
        answers .thermalCeilingUpdate { up with thermal := { up.thermal with readings := List.replicate 28 x.1 } } (fun t =>
          t.power.ptherm == x.2) = true) := by
  decide +kernel

end Sys2Proof.Tests
end

