-- ==== Sys2Proof/Tests/WitnessLinks.lean ====
section
/-! SUPPORT. Tests/WitnessLinks.lean: concrete states that meet the hypotheses of the statements about the
host link, the fabric ports, profile switches, rotation and removal. -/
namespace Sys2Proof.Tests
set_option Elab.async false
open Sys2Proof.Machine

/-- A ready device whose host link is ACTIVE on all eight modules. -/
def hostActive (lk : Lykel) : State :=
  up.modHost (fun h => { h with st := .active, active := 255, mset := 255, wasActive := true, lk := lk })

/-- A ready device with fabric port 2 in a state, its class 2 and its lanes trained. -/
def withPort (p : FabricPort) : State :=
  let s := up.modFport 2 (fun _ => p)
  { s with profile := { s.profile with portCfg := setAt s.profile.portCfg 2 { cls := 2, minw := 2 } } }

/-- A lane that both sides have trained. -/
def goodLane : Lane := { rdyOut := true, rdyIn := true, goFrames := 80 }

/-- A port in a state with eight good lanes, all in use. -/
def trained (st : PortState) : FabricPort := { st := st, lanes := List.replicate 8 goodLane, txSet := 255, rxSet := 255 }

/-- A flit with its CRC. -/
def goodFlit (xs : List (Nat × Nat × Nat)) : List Byte :=
  let b := bytesWith 252 xs
  b ++ natLe 4 (Crypto.crc32 b)

/-- A flit sent and not acknowledged, and a packet that waits for credit. -/
def stalled : Lykel := { nextSeq := 8, unacked := [{ fseq := 7, pay := bytesWith 240 [], sentAt := 5 }], dropping := true, expSeq := 3, replays := 8,
                         txq := [[], [], [{ bytes := bytesWith 16 [(0, 1, 0x20)], since := 90 }]] }

theorem witness_LinksSendTheFlitThatIsDue :
    (hostActive stalled).linkActive 0 = true ∧ (hostActive stalled).links.ports.length = 16 ∧ (withPort (trained .active)).linkActive 3 = true ∧
      ((withPort (trained .active)).fport 2).widthOut = none ∧
      answers (.flitTransmit 0) (hostActive stalled) (fun t => (t.lykel 0).wire.map (fun x => x.2.take 2) == [[1, 0]]) = true ∧
      answers (.flitTransmit 3) (withPort (trained .active)) (fun t => (t.lykel 3).wire.map (fun x => x.2.length) == [256]) = true ∧
      answers (.idleFlitSend 0) (hostActive stalled) (fun t => t.now == 20) = true ∧
      answers (.retryReqRepeat 0) (hostActive stalled) (fun t => (t.lykel 0).wire.map (fun x => (natAt x.2 10 2, natAt x.2 12 2)) == [(3, 3)]) = true ∧
      answers (.replayTimeout 0) (hostActive stalled) (fun t => t.now == 4005 && (t.lykel 0).resend == [7]) = true ∧
      answers (.replayLimit 0) (hostActive stalled) (fun t => t.links.host.st == .retrain) = true ∧
      (hostActive {}).links.host.lk.replays < 8 ∧
      answers (.creditStallTimeout 0) (hostActive stalled) (fun t => t.now == 50000090 && t.links.host.st == .retrain) = true ∧
      up.linkActive 0 = false := by
  decide +kernel

theorem witness_LinksTakeTheFlitsThatArrive :
    natAt (bytesWith 256 [(0, 1, 1)]) 252 4 ≠ Crypto.crc32 ((bytesWith 256 [(0, 1, 1)]).take 252) ∧
      answers (.flitReceive 0 (bytesWith 256 [(0, 1, 1)])) (hostActive {}) (fun t => (t.lykel 0).dropping && (t.lykel 0).retryDue) = true ∧
      (goodFlit [(0, 2, 0x30)]).length = 256 ∧ flitReserved 0 (goodFlit [(0, 2, 0x30)]) = false ∧
      natAt (goodFlit [(0, 2, 0x30)]) 252 4 = Crypto.crc32 ((goodFlit [(0, 2, 0x30)]).take 252) ∧
      (match ((hostActive stalled).chargeFlit 0).takeHeader 0 (goodFlit [(0, 2, 0x30)]) with | .inr u => (u.lykel 0).expSeq == 3 | _ => false) = true ∧
      answers (.flitReceive 0 (goodFlit [(0, 2, 0x30)])) (hostActive stalled) (fun t => (t.lykel 0).expSeq == 4 && !(t.lykel 0).dropping) = true ∧
      answers (.retryReqReceive 0 (goodFlit [(0, 2, 1), (10, 2, 3), (12, 2, 7)])) (hostActive stalled) (fun t => (t.lykel 0).resend == [7]) = true ∧
      byteAt (goodFlit [(0, 2, 0x30)]) 0 % 4 = 0 := by
  decide +kernel

/-- The host link in HANDSHAKE with modules 0 and 1 active. -/
def shaking (got : Bool) : State :=
  up.modHost (fun h => { h with st := .handshake, active := 3, gotInit := got })

/-- The host's INIT with module 0 alone. -/
def hostInit : List Byte := goodFlit [(0, 2, 1), (10, 2, 1), (12, 1, 1), (13, 1, 1), (14, 1, 1), (15, 1, 9), (16, 2, 64)]

theorem witness_HandshakesComplete :
    (shaking false).inHandshake 0 = true ∧ flitReserved 0 hostInit = false ∧ byteAt hostInit 0 % 4 = 1 ∧ byteAt hostInit 10 % 16 = 1 ∧
      (shaking false).links.host.gotInit = false ∧
      answers (.initReceive 0 hostInit) (shaking false) (fun t => t.links.host.gotInit && t.links.host.mset == 1) = true ∧
      answers (.initDoneReceive 0 (goodFlit [(0, 2, 1), (10, 2, 2)])) (shaking true) (fun t => t.links.host.st == .active) = true := by
  decide +kernel

theorem witness_HostLinkStatesAndViolations :
    answers .handshakeEntry (up.modHost (fun h => { h with st := .train, active := 3, firstActive := some 7 })) (fun t =>
        t.links.host.st == .handshake && t.now == 1000007) = true ∧
      answers .handshakeEntry (up.modHost (fun h => { h with st := .retrain, active := 3 })) (fun t => t.links.host.shaking &&
        t.links.host.st == .retrain) = true ∧
      answers (.moduleActiveChange 0x17F) (hostActive {}) (fun t => t.links.host.st == .resync && t.links.host.active == 127) = true ∧
      answers .linkStateTimeout (up.modHost (fun h => { h with st := .train, attempts := 1 })) (fun t => t.links.host.st == .train && t.now == 20000000) = true ∧
      answers .linkStateTimeout (up.modHost (fun h => { h with st := .handshake, attempts := 2 })) (fun t => t.links.host.st == .failed) = true ∧
      answers .linkStateTimeout (up.modHost (fun h => { h with st := .retrain, wasActive := true })) (fun t => t.links.host.st == .retrain &&
        t.links.host.attempts == 1 && t.now == 2000000) = true ∧
      answers .linkStateTimeout (up.modHost (fun h => { h with st := .resync })) (fun t => t.links.host.st == .retrain && t.now == 20000) = true ∧
      bitAt ((hostActive {}).modHost (fun h => { h with active := 127 })).links.host.active 7 = false ∧
      answers (.moduleRetrain 7) ((hostActive {}).modHost (fun h => { h with active := 127 })) (fun t =>
        assocGet t.links.host.modRetrain 7 == some 0) = true ∧
      assocGet (up.modHost (fun h => { h with modRetrain := [(7, 0)] })).links.host.modRetrain 7 = some 0 ∧ up.now < 0 + 1000000000 ∧
      answers .linkViolationReport { up with links := { up.links with violations := [{ link := 0, code := 1, count := 1, ptype := 0, tag := 0 }], vioSince := 5 } }
        (fun t => t.links.violations.isEmpty && t.now == 1000005) = true ∧ up.links.violations = [] := by
  decide +kernel

theorem witness_RequestsEnterTheFabric :
    answers (.mrd 0 (requestPacket tMrd 3 0x40 4 none 0 0 [])) up (fun t => t.fabric.txns.map (fun x => (x.spa, x.len)) == [(0x40, 4)]) = true ∧
      (let p := requestPacket tMwr 255 0x43 2 none 0 0 [7, 8]
       p.length = 16 * (1 + pktNsl p) ∧ pktNsl p = nslExpected p ∧ reqReserved 0 p = false ∧ reqSizeOk p = true ∧ up.inSwitchRange (reqSpa p) = false ∧
        up.tagBusy 0 0 (pktTag p) = false ∧ spaDev (reqSpa p) = up.devId ∧ bitAt (reqSpa p) 51 = false ∧ spaOff (reqSpa p) < Config.backedEnd ∧
        answers (.mwr 0 p) up (fun t => t.fabric.txns.map (fun x => (x.spa, x.len, x.data)) == [(0x43, 2, [7, 8])]) = true) ∧
      answers (.mfa 0 (requestPacket tMfa 3 0x48 8 none 0 0 (natLe 8 5))) up (fun t => t.fabric.txns.map (·.kind) == [.fetchAdd 5]) = true ∧
      answers (.mcs 0 (requestPacket tMcs 3 0x48 8 none 0 0 (natLe 8 5 ++ natLe 8 6))) up (fun t => t.fabric.txns.map (·.kind) == [.compareSwap 5 6]) = true ∧
      answers (.rwr 3 (requestPacket tRwr 3000 0x40 8 (some 4) 9 0 (natLe 8 5))) up (fun t => t.fabric.txns.map (·.data) == [natLe 8 5]) = true ∧
      reqSdev (requestPacket tRwr 3000 0x40 8 (some 4) 9 0 (natLe 8 5)) ≠ up.devId ∧
      answers (.rwr 0 (requestPacket tRwr 3 0x40 8 none 0 0 (natLe 8 5))) up (fun t => t.fabric.txns.isEmpty) = true := by
  decide +kernel

/-- A request of 64 bytes outstanding on a link, with its transaction for four of them. -/
def awaiting (link : Nat) (pt : Nat) (kind : TxnKind) : State :=
  { up with links := { up.links with out := [{ tag := 6, link := link, ptype := pt, spa := 0x8000000000000, size := 64, txn := 3, sentAt := 10, onWire := true }] }
            fabric := { up.fabric with txns := [{ id := 3, master := 0, target := 4, owner := .op 5, kind := kind, spa := 0x8000000000008, len := 4
                                                  data := [1, 2, 3, 4], enables := [true, true, true, true], state := .sent }] } }

theorem witness_CompletionsCloseTheirRequests :
    (awaiting 0 tMwr .write).outOf 0 6 ≠ none ∧ cplReserved 0 (cplPacket 6 0 0 0) = false ∧ cplLast (cplPacket 6 0 0 0) = true ∧
      answers (.cplReceive 0 (cplPacket 6 0 0 0)) (awaiting 0 tMwr .write) (fun t => t.links.out.isEmpty && t.fabric.txns.isEmpty) = true ∧
      (let p := cpldPacket 6 0 true 0x8000000000000 0 0 (List.replicate 8 1 ++ [9, 8, 7, 6] ++ List.replicate 52 2)
       p.length = 16 * (1 + pktNsl p) ∧ cplReserved 0 p = false ∧ pktNsl p = nslCpld 0x8000000000000 0 64 ∧ (pktData p (0x8000000000000 % 16) 64).length = 64 ∧
        answers (.cpldReceive 0 p) (awaiting 0 tMrd .read) (fun t => t.fabric.got.map (·.data) == [[9, 8, 7, 6]] && t.links.out.isEmpty) = true) ∧
      answers (.hostCompletionTimeout 6) (awaiting 0 tMrd .read) (fun t => t.now == 50000010 && t.links.tagHold == [(0, 6, 150000010)]) = true ∧
      answers (.fabricCompletionTimeout 3 6) (awaiting 3 tMrd .read) (fun t => t.now == 50000010 && t.links.tagHold == [(3, 6, 150000010)]) = true ∧
      ({ up with links := { up.links with tagHold := [(3, 6, 8)] } } : State).links.tagHold.find? (fun h => h.1 == 3 && h.2.1 == 6) = some (3, 6, 8) ∧
      up.outOf 0 6 = none ∧ up.links.tagHold.find? (fun h => h.1 == 3 && h.2.1 == 6) = none := by
  decide +kernel

/-- A control packet: its type and the bytes after its tag. -/
def control (t : Nat) (xs : List (Nat × Nat × Nat)) : List Byte := bytesWith 16 ([(0, 1, t)] ++ xs)
/-- The SEAL packet of key 7. -/
def sealOf7 : List Byte := bytesWith 48 [(0, 1, 0x30), (1, 1, 2), (47, 1, 7)]
/-- A device that takes its profile from the link, with its TRNG tested. -/
def linked : State := { up with straps := { up.straps with pselLink := true }, boot := { up.boot with trngOk := true } }

theorem witness_ControlPacketsSetTheirState :
    answers (.sealPacket 0 sealOf7) linked (fun t => t.sealKey == some 7 && t.sealUsed) = true ∧
      answers (.sealPacket 0 sealOf7) { linked with sealUsed := true } (fun t => t.sealKey == none) = true ∧
      up.ringOk 0x8000000 (64 * 2 ^ 8) = true ∧
      answers (.ringPacket 0 (control 0x31 [(4, 8, 0x8000000 + 2 * 2 ^ 52)])) linked (fun t => t.ring.valid && t.ring.spa == 0x8000000 && t.ring.rsz == 2) = true ∧
      answers (.profilePacket 0 (control 0x32 [(4, 1, 5)])) linked (fun t => t.switch.queued == some 5) = true ∧
      answers (.timePacket 0 (control 0x33 [(4, 1, 0), (8, 8, 1234)])) linked (fun t => t.timebase == 1234) = true ∧
      answers (.timePacket 0 (control 0x33 [(4, 1, 1), (8, 8, 2 ^ 64 - 1)])) { linked with now := 40 } (fun t => t.timebase == 39) = true ∧
      qmaskOk (control 0x34 [(4, 1, 9)]) = true ∧
      answers (.haltPacket 0 (control 0x34 [(4, 1, 9)])) linked (fun t => t.quarters.map (·.halted) == [true, false, false, true] &&
        t.links.haltAcks == [(0, 9, 0, 0)]) = true ∧
      answers (.resumePacket 0 (control 0x35 [(4, 1, 8)])) { linked with quarters := linked.quarters.map (fun u => { u with halted := true }) }
        (fun t => t.quarters.map (·.halted) == [true, true, true, false]) = true ∧
      answers (.jtagHaltInstrument 4 true) up (fun t => t.quarters.map (·.halted) == [false, false, true, false]) = true ∧
      answers .haltCack { up with links := { up.links with haltAcks := [(7, 9, 0, 1)] } } (fun t => t.links.haltAcks.isEmpty) = true := by
  decide +kernel

theorem witness_PortsTrainAlignAndRetry :
    ((withPort (trained .train)).fport 2).inTrain = true ∧ pickSet ((withPort (trained .train)).minw 2) (trained .train).usable = some 255 ∧
      answers (.fpTrainingFrame 2 [{ received := true, control := 0x1800, status := 0, inverted := true, want := 1, ready := true }]) (withPort (trained .train))
        (fun t => (t.fport 2).lanes.map (fun l => (l.inverted, l.goFrames)) == [(true, 80)] ++ List.replicate 7 (false, 0)) = true ∧
      answers (.fpCodedStreamStart 2) (withPort (trained .train)) (fun t => (t.fport 2).st == .align && (t.fport 2).txSet == 255) = true ∧
      (maskBits 8 255).all (fun i => decide (80 ≤ ((List.replicate 8 { goodLane with goFrames := 79 }).getD i {}).goFrames)) = false ∧
      pickSet 2 ({ st := .train } : FabricPort).usable = none ∧
      (let ms : Nat → List Marker := fun c => (List.range 4).map (fun l => { lane := l, count := c, set := 15, ok := true })
       answers (.fpMarkerLock 2 (ms 1023)) (withPort (trained .align)) (fun t => (t.fport 2).locks == 1 && (t.fport 2).st == .align) = true ∧
        answers (.fpMarkerLock 2 (ms 0)) (withPort { trained .align with locks := 1, lockSet := 15, lockCount := 1023 }) (fun t =>
          (t.fport 2).st == .handshake && (t.fport 2).rxSet == 15) = true) ∧
      answers (.fpStateChange 2) (up.modFport 2 (fun _ => trained .active)) (fun t => (t.fport 2).st == .down) = true ∧
      answers (.fpStateChange 2) (withPort {}) (fun t => (t.fport 2).st == .train) = true ∧
      (withPort (trained .handshake)).portLimit 2 = some 10000000 ∧
      answers (.fpStateTimeout 2) (withPort (trained .handshake)) (fun t => (t.fport 2).st == .train && (t.fport 2).attempts == 1) = true ∧
      answers (.fpStateTimeout 2) (withPort { trained .retrain with phase := .train, attempts := 2 }) (fun t => (t.fport 2).st == .failed) = true ∧
      up.portLimit 2 = none ∧
      answers (.fpFailedRetry 2) (withPort (trained .failed)) (fun t => (t.fport 2).st == .train && t.now == 1000000000) = true := by
  decide +kernel

/-- A WIDTH of the partner: lane 7 has failed there, and it sends on the first four. -/
def widthFlit : List Byte := goodFlit [(0, 2, 1), (10, 2, 4), (12, 1, 0x80), (13, 1, 15)]

/-- Port 2 is up and routes to device 9. -/
def routed : State :=
  let s := withPort ({ trained .active with lk := { credits := List.replicate 8 { adv := 64 } } })
  { s with profile := { s.profile with routes := setAt s.profile.routes 9 { v := true, pri := 2 } } }
/-- A completion for device 9, held since instant 5. -/
def heldCpl (dest : Nat) : Held := { bytes := cplPacket 6 0 0 dest, arrived := 4, vc := 2, dest := dest, since := 5 }

theorem witness_PortsNarrowWidenAndForward :
    (withPort (trained .active)).links.ports.length = 16 ∧ ((withPort (trained .active)).fport 2).lanes.length = 8 ∧
      answers (.fpUeRateRetrain 2 65 []) (withPort (trained .active)) (fun t => (t.fport 2).st == .retrain) = true ∧
      answers (.fpLaneFail 2 7) (withPort (trained .train)) (fun t => ((t.fport 2).lanes.getD 7 {}).failedHere) = true ∧
      answers (.fpLaneFail 2 7) (withPort (trained .active)) (fun t => (t.fport 2).setNext == some 15) = true ∧
      answers (.fpLaneBerRemove 2 7) (withPort (trained .active)) (fun t => (t.fport 2).setNext == some 15 &&
        ((t.fport 2).lanes.getD 7 {}).removedAt == some 0) = true ∧
      (({ goodLane with removedAt := some 0 } : Lane).removedAt = some 0 ∧ up.now < 0 + 10000000000) ∧
      answers (.fpLaneRetrain 2 7 [{ received := true, control := 0x1800, status := 0, inverted := true, want := 1, ready := true }]) (withPort { trained .active with lanes := List.replicate 7 goodLane ++ [{ failedHere := true }] })
        (fun t => (t.fport 2).setNext == some 255) = true ∧
      widthFlit.length = 256 ∧ flitReserved 3 widthFlit = false ∧ byteAt widthFlit 13 ∈ laneGroups ∧
      (match ((withPort (trained .active)).chargeFlit 3).takeHeader 3 widthFlit with | .inr _ => true | .inl _ => false) = true ∧
      answers (.width 2 widthFlit) (withPort (trained .active)) (fun t => (t.fport 2).st == .active && (t.fport 2).setNext == some 15 &&
        (t.fport 2).widthOut.map (·.1) == some true) = true ∧
      answers (.widthSwitch 2) (withPort { trained .active with setNext := some 15 }) (fun t => (t.fport 2).st == .resync) = true ∧
      (let s := { routed with links := { routed.links with held := [heldCpl 8, heldCpl 9] } }
       s.nextForward s.links.held [] = some (heldCpl 8, .drop 1)) ∧
      (let s := { routed with links := { routed.links with held := [heldCpl 9] } }
       s.nextForward s.links.held [] = some (heldCpl 9, .send 2 false false) ∧
        answers .packetForward s (fun t => t.links.held.isEmpty && ((t.lykel 3).txq.map List.length).foldl (· + ·) 0 == 1) = true ∧
        isRequest (heldCpl 9).bytes = false ∧ answers .forwardHoldExpiry s (fun t => t.links.held.isEmpty && t.now == 1000005) = true) ∧
      up.nextForward up.links.held [] = none ∧
      (let p : Pin := { vc := 1, sender := 3, dest := 9, repoch := 0, port := 2, lastLeft := 6 }
       answers (.pinLapse 1) { up with links := { up.links with pins := [{ p with sender := 4 }, p] } } (fun t => t.now == 10000006 &&
        t.links.pins == [{ p with sender := 4 }]) = true) ∧
      answers (.streamEpochResume 127) { up with links := { up.links with streams := [{ dest := 127, holding := true }] } }
        (fun t => !(t.stream 127).holding) = true := by
  decide +kernel

/-- A device with record `n` in its profile store and a switch. -/
def switching (r : List Byte) (w : Switch) : State := { up with profStore := [(3, r)], switch := w, straps := { up.straps with pselLink := false } }

theorem witness_ProfileSwitchesGoThroughTheirSteps :
    up.running = true ∧ up.ready = true ∧ up.straps.pselLink = false ∧
      answers (.pselSample 13) up (fun t => t.now == 10000 && t.switch.pselValue == 5 && t.switch.pselSince == some 10000 && t.switch.pselAt == 10000) = true ∧
      answers (.pselSample 13) (switching [] { pselValue := 5, pselSince := some 4 }) (fun t => t.switch == { pselValue := 5, pselSince := some 4, pselAt := 10000 }) = true ∧
      answers .pselDebounceDone (switching [] { pselValue := 5, pselSince := some 4, pselAt := 990004 }) (fun t =>
        t.switch.pselTaken == some 5 && t.switch.queued == none && t.switch.pselFirst == 1000004) = true ∧
      answers .pselDebounceDone (switching [] { pselValue := 5, pselSince := some 4, pselAt := 990004, pselTaken := some 1 }) (fun t => t.switch.queued == some 5) = true ∧
      ((switching (profileRecord 3 1600 255) { queued := some 3 }).checkRecord 3 false).isSome = true ∧
      answers .profileSwitchStart (switching (profileRecord 3 1600 255) { queued := some 3 }) (fun t => t.switch.step == .idle && t.switch.queued == none) = true ∧
      (switching (profileRecord 3 1600 16) { queued := some 3 }).checkRecord 3 false = none ∧
      answers .profileSwitchStart (switching (profileRecord 3 1600 16) { queued := some 3 }) (fun t => t.switch.number == 3 &&
        t.switch.staged == parseProfile (profileRecord 3 1600 16)) = true ∧
      answers (.rinseStart []) (switching [] { step := .waitRinse, staged := parseProfile (profileRecord 3 1600 16) }) (fun t => t.switch.step == .ready) = true ∧
      (switching [] { step := .rinsing, rinse := true, rinseAt := 7 }).rinsing = true ∧
      answers .rinseTimeout (switching [] { step := .rinsing, rinse := true, rinseAt := 7 }) (fun t => t.switch.step == .idle && t.now == 100000007) = true ∧
      (let s := switching [] { step := .ready, number := 3, staged := parseProfile (profileRecord 3 1600 16) }
       s.windowBusy = false ∧ s.checkStaged s.switch.staged false = none ∧
        answers .profileApply s (fun t => t.profNum == 3 && t.switch.step == .idle && t.profile == parseProfile (profileRecord 3 1600 16)) = true) ∧
      up.switch.step = .idle ∧ up.switch.queued = none ∧ up.rinsing = false := by
  decide +kernel

theorem witness_ColumnsRotateAndQuartersLeave :
    (let s := up.modQuarter 3 (fun u => { u with rotation := { u.rotation with shadow := some (256, 0) }, jobs := [{ ctx := 5, tracks := [], len := 1, started := 1 }] })
     answers (.shadowStep 3) s (fun t => (t.quarter 3).rotation.shadowRan) = true) ∧
      (up.quarter 3).rotation.shadow = none ∧
      (let s := up.modQuarter 3 (fun u => { u with rotation := { u.rotation with shadow := some (256, 0), shadowRan := true } })
       (s.quarter 3).rotation.role 256 = .board ∧
        answers (.shadowCompare 3 true) s (fun t => (t.quarter 3).rotation.role 0 == .board && (t.quarter 3).rotation.role 256 == .work 0) = true) ∧
      up.inService 3 = true ∧ (up.quarter 3).untested = false ∧ (up.quarter 3).rotation.darned = 0 ∧
      answers (.rotationBoundary 3 [true]) up (fun t => (t.quarter 3).rotation.role 257 == .board && t.now == up.ownInstant (up.nextRotation 3)) = true ∧
      (let s := { up with quarters := up.quarters.map (fun u => { u with planeUes := [9, 8, 7, 6] }) }
       (s.quarter 3).mustGo 1 = true ∧ s.quartersUp ≠ [3] ∧ answers (.quarterRemove 3 1) s (fun t => (t.quarter 3).removed) = true ∧
        (let l := { s with quarters := s.quarters.zipIdx.map (fun x => { x.1 with removed := decide (x.2 ≠ 3) }) }
         l.quartersUp = [3] ∧ answers (.quarterRemove 3 1) l (fun t => (t.quarter 3).untested && t.inService 3) = true)) ∧
      (let s := { up with entries := [(5, resident 3 0 [])] }
       0 < (s.residents.filter (fun x => (s.entry x.2).restore.isNone)).length ∧
        answers (.debugBist []) s (fun t => t.instruments.refusedBist == some 0) = true) ∧
      answers (.debugBist []) up (fun t => t.instruments.refusedBist == none && t.now == up.cclkNs 33554432) = true ∧
      (let s := { up with health := { up.health with dueAt := some 50, seq := 2 ^ 32 - 1 }, power := { up.power with trips := 3 } }
       answers .healthRecord s (fun t => t.health.seq == 0 && t.power.trips == 0 && t.health.dueAt == some 1000000050) = true) ∧
      up.health.dueAt = none := by
  decide +kernel

end Sys2Proof.Tests
end

