-- ==== Sys2Proof/Tests/WitnessMachine.lean ====
section
/-! SUPPORT. Tests/WitnessMachine.lean: concrete states that meet the hypotheses of the statements about the
tile register file, the repair of banks, the memory fabric and translation. -/
namespace Sys2Proof.Tests
set_option Elab.async false
open Sys2Proof.Machine

/-- A ready device with a request of lane `l` of quarter `q` for `n` lines at port `p` of slice `i`. -/
def withRequest (q l i p n : Nat) : State :=
  { up with quarters := modAt up.quarters q (fun u => { u with lanes := modAt u.lanes l (fun _ => [{ port := 4 * i + p, left := n, kind := 0
                                                                                                     ctx := 0, by_ := 0 }]) }) }

/-- A ready device whose read lane 4 of quarter 2 has posted a request for `n` lines at port 3 of slice 3. -/
def withPosted (n : Nat) : State :=
  (withRequest 2 4 3 3 n).modQuarter 2 (fun u => { u with lanes := modAt u.lanes 4 (·.map (fun x => { x with cls := some 1 })) })

/-- A ready device with slice `i` changed. -/
def withSlice (i : Nat) (f : Slice → Slice) : State := up.modSlice i f

theorem witness_TrfRefreshReadsOneRow :
    (up.slice 3).inRefresh 31 = true ∧ (up.slice 3).inRefresh 33 = false ∧ 31 < (up.slice 3).banks.length ∧ up.slices.length = 4 ∧
      up.ports.length = 16 ∧ (up.slice 3).handover = none ∧
      up.quarters.all (fun u => u.lanes.all List.isEmpty) = true ∧ (up.port 3 3).pendingRef = [] ∧
      answers (.trfRefresh 3 31 []) up (fun t => ((t.slice 3).banks.getD 31 {}).refRow == 1 && (t.slice 2 == up.slice 2) &&
        (t.port 3 3).pendingRef == [] && t.now == up.slotInstant 3 31 0 && t.power == (up.chargeCore 25).power) = true ∧
      (((withPosted 4).port 3 3).arb.winners 32 (fun _ => 0) ((withPosted 4).portRequests 3 3)).isEmpty = false ∧
      (up.slice 3).portOfBank 31 = 3 ∧
      answers (.trfRefresh 3 31 []) (withPosted 4) (fun t => (t.port 3 3).pendingRef == [31] &&
        ((t.slice 3).banks.getD 31 {}).refRow == 0) = true ∧
      answers (.trfRefreshUrgent 3 31 []) (withPosted 4) (fun t => ((t.slice 3).banks.getD 31 {}).refRow == 1 &&
        (t.port 3 3).arb == (up.port 3 3).arb) = true ∧
      answers (.trfRefreshUrgent 3 33 []) up (fun t => t == up) = true := by
  decide +kernel

theorem witness_PortRoundServesItsWinners :
    (withRequest 2 5 3 3 9).running = true ∧
      answers (.portRound 3 3 {}) (withRequest 2 5 3 3 9) (fun t =>
        t.laneQueue 21 == [{ port := 15, left := 1, kind := 0, ctx := 0, by_ := 0 }] && (t.port 3 3).arb.ptr == 22) = true ∧
      answers (.portRound 3 3 {}) (withRequest 2 5 3 3 8) (fun t => t.laneQueue 21 == []) = true ∧
      answers (.portRound 3 3 ⟨[(21, 5)], []⟩) (withRequest 2 5 3 3 8) (fun t =>
        t.laneQueue 21 == [{ port := 15, left := 3, kind := 0, ctx := 0, by_ := 0 }]) = true ∧
      (withRequest 2 5 3 3 8).portRequests 0 0 = [] ∧
      answers (.portRound 0 0 {}) (withRequest 2 5 3 3 8) (fun t => t.laneQueue 21 == (withRequest 2 5 3 3 8).laneQueue 21) = true ∧
      answers (.portRound 3 3 {}) (up.modPort 3 3 (fun x => { x with pendingRef := [31, 3] })) (fun t => (t.port 3 3).pendingRef == [3] &&
        ((t.slice 3).banks.getD 31 {}).refRow == 1) = true := by
  decide +kernel

/-- A ready device with a bank of slice 2 changed. -/
def withBank (b : Nat) (f : Bank → Bank) : State := withSlice 2 (fun sl => { sl with banks := modAt sl.banks b f })

/-- A ready device with a handover of bank 5 of slice 2 to the spare bank 32, with `n` rows of its verify sweep done. -/
def handing (n : Nat) : State :=
  withSlice 2 (fun sl => { sl with handover := some { bank := 5, source := 5, target := 32, phase := .verify, rows := n } })

theorem witness_BanksRetireThroughASpare :
    ((withBank 5 (fun b => { b with ueTimes := [0, 0] })).slice 2).numberOf 5 = some 5 ∧
      (((withBank 5 (fun b => { b with ueTimes := [0, 0] })).slice 2).banks.getD 5 {}).mustRetire 0 = true ∧
      (((withBank 5 (fun b => { b with ueTimes := [0, 0] })).slice 2).banks.getD 5 {}).status = .serving ∧
      (((withBank 5 (fun b => { b with ueTimes := [0, 0] })).slice 2).handover = none) ∧
      ((withBank 5 (fun b => { b with ueTimes := [0, 0] })).slice 2).freeSpare = some 32 ∧
      answers (.bankRetire 2 5 0) (withBank 5 (fun b => { b with ueTimes := [0, 0] })) (fun t =>
        (t.slice 2).handover == some { bank := 5, source := 5, target := 32 }) = true ∧
      answers (.bankRetire 2 5 0) ((withBank 5 (fun b => { b with ueTimes := [0, 0] })).modSlice 2 (fun sl =>
        { sl with banks := (sl.banks.take 32) ++ [{ status := .serving }, { status := .suspect }] })) (fun t =>
        (t.slice 2).handover == none && ((t.slice 2).banks.getD 5 {}).status == .retiring) = true ∧
      answers (.bankHandoverSwap 2) (handing 256) (fun t => (t.slice 2).handover == none && (t.slice 2).serves.getD 5 5 == 32 &&
        ((t.slice 2).banks.getD 32 {}).status == .serving && ((t.slice 2).banks.getD 5 {}).status == .retired) = true ∧
      answers (.bankHandoverSwap 2) ((handing 256).modSlice 2 (fun sl => { sl with banks := modAt sl.banks 32 (fun b => { b with status := .retired }) }))
        (fun t => ((t.slice 2).banks.getD 5 {}).status == .free && ((t.slice 2).banks.getD 32 {}).status == .serving) = true ∧
      answers (.bankHandoverSwap 2) (handing 255) (fun t => t == handing 255) = true := by
  decide +kernel

/-- A slice-2 bank retired with a number of passes, its number `n` gone or served by bank 33. -/
def retiredBank (passes : Nat) (gone : Bool) : State :=
  { withSlice 2 (fun sl => { sl with banks := modAt sl.banks 5 (fun b => { b with status := .retired, passes := passes, served := some 5 })
                                     gone := if gone then [5] else []
                                     serves := if gone then sl.serves else modAt sl.serves 5 (fun _ => 33) }) with now := 7 }

theorem witness_BanksMarchReturnAndLeave :
    ((retiredBank 15 true).slice 2).handover = none ∧ 5 < ((retiredBank 15 true).slice 2).banks.length ∧
      answers (.bankMarch 2 5 true) (retiredBank 15 true) (fun t => ((t.slice 2).banks.getD 5 {}).passes == 16 &&
        ((t.slice 2).banks.getD 5 {}).status == .retired) = true ∧
      answers (.bankMarch 2 5 false) (retiredBank 15 true) (fun t => ((t.slice 2).banks.getD 5 {}).passes == 0) = true ∧
      answers (.bankMarch 2 33 false) up (fun t => ((t.slice 2).banks.getD 33 {}).status == .suspect) = true ∧
      answers (.bankMarch 2 33 true) (withBank 33 (fun b => { b with status := .suspect, passes := 15 })) (fun t =>
        ((t.slice 2).banks.getD 33 {}).status == .free) = true ∧
      answers (.bankMarch 2 4 true) up (fun t => t.slice 2 == up.slice 2) = true ∧
      (retiredBank 16 true).profile.reinstatePasses = 16 ∧
      answers (.bankReinstate 2 5) (retiredBank 16 true) (fun t => (t.slice 2).gone == [] && (t.slice 2).serves.getD 5 5 == 5 &&
        ((t.slice 2).banks.getD 5 {}).status == .serving && t.now == 40000) = true ∧
      answers (.bankReinstate 2 5) (retiredBank 16 false) (fun t => (t.slice 2).handover == some { bank := 5, source := 33, target := 5 } &&
        t.now == 7) = true ∧
      answers (.bankReinstate 2 5) (withSlice 2 (fun sl => { sl with
        banks := modAt sl.banks 5 (fun b => { b with status := .retired, passes := 16, served := some 5 }) })) (fun t =>
        ((t.slice 2).banks.getD 5 {}).status == .free) = true ∧
      answers (.bankEvacuate 2 5) (withBank 5 (fun b => { b with status := .retiring })) (fun t => (t.slice 2).ceiling.isSome &&
        ((t.slice 2).banks.getD 5 {}).status == .retiring) = true ∧
      answers (.bankEvacuate 2 5) ((withBank 5 (fun b => { b with status := .retiring })).modSlice 2 (fun sl => { sl with sharedFree := 256 }))
        (fun t => (t.slice 2).gone == [5] && ((t.slice 2).banks.getD 5 {}).status == .retired) = true := by
  decide +kernel

theorem witness_TrfScheduleAllocatorAndSteps :
    answers .refIntervalChange up (fun t => t.refresh.period == 40 && t.now == 0) = true ∧
      answers .refIntervalChange { up with now := 1, refresh := { up.refresh with hot := true } } (fun t =>
        t.refresh.period == 20 && t.now == 40000 && t.refresh.origin == 40000) = true ∧
      answers (.debugTransfer 3 8191) { up with instruments := { up.instruments with lineAt := some 100 } } (fun t => t.now == 1420) = true ∧
      answers (.allocatorRound 2) (withSlice 2 (fun sl => { sl with sharedFree := 1
                                                                    waiting := [{ lane := 0, cls := 1, slot := 0, owner := .staged 3 9, port := 0 },
                                                                      { lane := 8, cls := 1, slot := 0, owner := .staged 4 9, port := 1 }] }))
        (fun t => (t.slice 2).waiting.length == 1 && (t.slice 2).sharedFree == 0) = true ∧ (up.slice 2).waiting = [] ∧
      answers (.arrayStepStart 1) { up with quarters := modAt up.quarters 1 (fun u => { u with
        stepPermit := true, jobs := [{ ctx := 3, tracks := [0], edge := true }] }) } (fun t =>
          !(t.quarter 1).stepPermit && (t.quarter 1).jobs.map (fun j => (j.edge, j.started)) == [(false, 1)]) = true := by
  decide +kernel

/-- A ready device with one transaction posted and two bytes of memory written. -/
def oneTxn (t : Txn) : State :=
  { up with hbm := { up.hbm with mem := [(8, 0x11), (10, 0x22)] }, fabric := { up.fabric with txns := [t], nextId := 9 } }

/-- A write of three bytes at offset 9, of which the middle one is not enabled. -/
def aWrite : Txn := { id := 3, master := 7, target := 0, owner := .inbound 0 1 2 0, kind := .write, spa := 9, len := 3, data := [1, 2, 3]
                      enables := [true, false, true] }

/-- A read of four bytes at offset 8 by an operation of context 5. -/
def aRead : Txn := { id := 3, master := 0, target := 0, owner := .op 5, kind := .read, spa := 8, len := 4 }

theorem witness_FabricRoundsWriteOnlyPostedBytes :
    Memory.wf (oneTxn aWrite).hbm.mem = true ∧ (oneTxn aWrite).postedAt 0 = [aWrite] ∧
      ((oneTxn aWrite).postedAt 0).filter (oneTxn aWrite).eligibleAt = [aWrite] ∧
      answers (.fabricTargetRound 0 [] []) (oneTxn aWrite) (fun t => Memory.readN t.hbm.mem 8 4 == [0x11, 1, 0x22, 3] && t.fabric.txns.isEmpty) = true ∧
      ((oneTxn aRead).postedAt 0).filter (oneTxn aRead).eligibleAt = [aRead] ∧
      answers (.fabricTargetRound 0 [] []) (oneTxn aRead) (fun t => t.fabric.txns.map (fun y => (y.state, y.got)) == [(.admitted, [0x11, 0, 0x22, 0])])
        = true ∧
      answers (.fabricTargetRound 4 [] []) (oneTxn aRead) (fun t => t.hbm.mem == (oneTxn aRead).hbm.mem) = true := by
  decide +kernel

theorem witness_HbmUpkeepLeavesMemory :
    (oneTxn { aRead with state := .admitted, got := [7] }).fabric.txns.find? (fun x => x.id == 3 && x.state == .admitted) =
        some { aRead with state := .admitted, got := [7] } ∧
      ((oneTxn { aRead with state := .admitted, got := [7] }).serveTxn
          ((oneTxn { aRead with state := .admitted, got := [7] }).firstOfId { aRead with state := .admitted, got := [7] }).id).nextResponse 0 =
        some { aRead with state := .admitted, got := [7] } ∧
      answers (.hbmReadReturn 3 []) (oneTxn { aRead with state := .admitted, got := [7] }) (fun t => t.fabric.txns.isEmpty &&
        t.fabric.got == [{ owner := .op 5, spa := 8, data := [7], bad := [], st := 0 }]) = true ∧
      up.stackUp 3 = true ∧
      answers (.hbmBankRefresh ⟨127, 2, 15⟩) { up with hbm := { up.hbm with refreshed := [(bankKey 127 47, 100)] } } (fun t =>
        t.now == 4000 && assocGet t.hbm.refreshed (bankKey 127 47) == some 4000) = true ∧
      answers (.hbmBankRefresh ⟨127, 0, 0⟩) { up with hbm := { up.hbm with retraining := some (63, 500) } } (fun t =>
        t.now == 500 && assocGet t.hbm.refreshed (bankKey 127 0) == some 500) = true ∧
      answers .hbmRetrain { up with hbm := { up.hbm with retrainAt := 63, retrainMs := 7 } } (fun t => t.hbm.retrainAt == 0 &&
        t.hbm.retrainMs == 100 && t.now == 63 * 7000000 / 64 && t.hbm.retraining == some (63, t.now + 1200)) = true ∧
      answers (.hbmScrubRead 3 [] [12288, 12295]) { up with hbm := { up.hbm with badWords := [12296] } } (fun t => t.hbm.mem == up.hbm.mem &&
        t.hbm.badWords.contains 12296 && (t.hbm.hbmStacks.getD 3 {}).scrubAt == 1) = true ∧
      answers .trngRefill { up with hbm := { up.hbm with pool := 900, trngAt := 7 } } (fun t => t.hbm.pool == 1024 && t.now == 10007) = true ∧ State.reset.running = false := by
  decide +kernel

/-- Context 5 with an SPL whose routine waits for its salt on quarter 3. -/
def salting (pool : Nat) : State :=
  let s := Tests.running 5 3 (resident 3 0 [{ pkt := packet 3 4 [], issued := true }]) { ctx := 5, tracks := [], awaitsSalt := true }
  { s with hbm := { s.hbm with pool := pool }, sealKey := some 1 }

theorem witness_ScrubbedStoresAndSaltDraws :
    answers (.storeScrub [.element 3 1 65535 false true]) up (fun t => t == { (up.bump 2 24 4 1) with now := 1000000, stores := { up.stores with scrubAt := 1000000 } }) = true ∧
      answers (.storeScrub []) { up with now := 7, stores := { up.stores with scrubAt := 6 } } (fun t => t.now == 1000006 && t.stores.scrubAt == 1000006) = true ∧ State.reset.running = false ∧
      (((withSlice 3 (fun sl => { sl with words := [(8191, { zsrc := false })] })).slice 3).word 8191).zsrc = false ∧
      answers (.storeScrub [.payload 3 8191 false]) (withSlice 3 (fun sl => { sl with words := [(8191, { zsrc := false })] })) (fun t =>
        (t.slice 3).lost == [8191]) = true ∧
      (salting 48).jobOf 5 = some (3, { ctx := 5, tracks := [], awaitsSalt := true }) ∧ (salting 48).tracksOpen 3 [trackData] = true ∧
      ((salting 48).entry 5).salt = none ∧
      answers (.saltDrawResume 5) (salting 48) (fun t => t.hbm.pool == 0 && (t.entry 5).salt.isSome &&
        ((t.job 5).tracks == [trackData]) && !(t.job 5).awaitsSalt) = true ∧
      answers (.saltDrawResume 5) (salting 47) (fun t => t == salting 47) = true := by
  decide +kernel

/-- The walk of virtual page 0 for context 5, with the table entries that have been read. -/
def walking (es : List Nat) : State :=
  let s := Tests.running 5 1 (resident 1 0 [{ pkt := packet 0x10 4 [], issued := true }]) { ctx := 5, tracks := [3] }
  { s with fabric := { s.fabric with
      walks := [{ ctx := 5, quarter := 1, va := 0, write := false }]
      got := es.zipIdx.map (fun x => { owner := .walk 5 0, spa := 0x10000 + 0x1000 * x.2, data := natLe 8 x.1, bad := [] }) } }

theorem witness_WalksReadTheirTables :
    (walking []).walkFrom { ctx := 5, quarter := 1, va := 0, write := false } [4, 3, 2, 1] ((walking []).entry 5).desc.troot [] = .need 4 0x10000 ∧
      (walking []).fabric.txns.any (fun x => x.owner == .walk 5 0) = false ∧
      answers (.translationWalk 5 0) (walking []) (fun t => t.fabric.txns.map (fun x => (x.spa, x.len, x.master)) == [(0x10000, 8, masterPwk)]) = true ∧
      answers (.translationWalk 5 0) (walking [0x11001, 0x12001, 0x13001, 0x5500F]) (fun t => t.fabric.walks.isEmpty &&
        (t.quarter 1).tlb == [{ ctx := 5, va := 0, bits := 12, page := 0x55000, rd := true, wr := true }]) = true ∧
      (walking [0x11000]).walkFrom { ctx := 5, quarter := 1, va := 0, write := false } [4, 3, 2, 1] 0x10000 [] =
        .bad { code := Code.xlatInvalid, lvl := 4, write := false, va := 0 } ∧
      answers (.translationWalk 5 0) (walking [0x11000]) (fun t => (t.entry 5).state == .faulted && (t.entry 5).flt) = true ∧
      up.fabric.walks = [] := by
  decide +kernel

theorem witness_AtomicsActOnOneWord :
    Memory.wf (oneTxn aRead).hbm.mem = true ∧ 8 ∉ (oneTxn aRead).hbm.badWords ∧ leNat (Memory.readN (oneTxn aRead).hbm.mem 8 8) = 0x220011 ∧
      leNat (Memory.readN ((oneTxn aRead).hbm.atomic 8 (.fetchAdd (2 ^ 64 - 0x220011))).1.mem 8 8) = 0 ∧
      leNat (Memory.readN ((oneTxn aRead).hbm.atomic 8 (.compareSwap 0x220011 (2 ^ 64 - 1))).1.mem 8 8) = 2 ^ 64 - 1 ∧
      ((oneTxn aRead).hbm.atomic 8 (.compareSwap 5 9)).1 = (oneTxn aRead).hbm := by
  decide +kernel

end Sys2Proof.Tests
end

