-- ==== Sys2Proof/Tests/WitnessOps.lean ====
section
/-! SUPPORT. Tests/WitnessOps.lean: concrete states that meet the hypotheses of the statements about the
operations, commit points, contexts and routines. -/
namespace Sys2Proof.Tests
set_option Elab.async false
open Sys2Proof.Machine

/-- An OPR packet for context 5 of device 0: its header slot and the operation packet. -/
def oprPacket (opc seq : Nat) : List Byte := bytesWith 16 [(0, 1, 1), (1, 1, 4)] ++ packet opc seq [(2, 2, 5)]

theorem witness_AdmissionFollowsTheChecks :
    pktType (oprPacket 0 9) = tOpr ∧ (oprPacket 0 9).length = 80 ∧ pktNsl (oprPacket 0 9) = 4 ∧ pktTag (oprPacket 0 9) = 0 ∧
      zeroAt (oprPacket 0 9) 4 12 = true ∧ byteAt (oprPacket 0 9) 1 < 64 ∧ byteAt (oprPacket 0 9) 3 < 16 ∧ natAt (oprPacket 0 9) 18 2 / 512 = up.devId ∧
      ctxOf (bytesAt (oprPacket 0 9) 16 64) % 512 = 5 ∧ opcOf (bytesAt (oprPacket 0 9) 16 64) = 0 ∧
      (∀ x ∈ [(9, 10, 1), (8, 9, 0)], answers (.oprReceive 0 (oprPacket 0 x.1)) { up with entries := [(5, resident 1 0 [])] } (fun t =>
        (t.entry 5).expSeq == x.2.1 && (t.entry 5).queue.length == x.2.2) = true) ∧
      answers (.oprReceive 0 (oprPacket 2 9)) { up with entries := [(5, { resident 1 0 [] with state := .faulted })] } (fun t =>
        (t.entry 5).queue.length == 1) = true ∧
      answers (.oprReceive 0 (oprPacket 0 9)) { up with entries := [(5, { resident 1 0 [] with state := .faulted })] } (fun t =>
        (t.entry 5).queue.length == 0 && (t.entry 5).expSeq == 9) = true ∧
      answers (.oprReceive 0 (oprPacket 0 9)) { up with entries := [(5, resident 1 0 (List.replicate 64 { pkt := [] }))] } (fun t =>
        (t.entry 5).queue.length == 64 && (t.entry 5).expSeq == 9) = true ∧
      answers (.oprReceive 0 (oprPacket 1 9)) up (fun t => (t.entry 5).att == some (packet 1 9 [(2, 2, 5)])) = true ∧
      (booting 0x11).ready = false := by
  decide +kernel

/-- A ready device whose context 5 waits on quarter 3 with one operation. -/
def waiting (pkt : List Byte) : State := { up with entries := [(5, resident 3 0 [{ pkt := pkt }])] }

/-- A context that waits could start the operation, whatever it is, where what it needs is free. -/
theorem waiting_couldStart (pkt : List Byte) (h : (waiting pkt).couldRun 5 = some (3, { pkt := pkt }))
    (k : (waiting pkt).tracksOpen 3 (opcTracks (opcOf pkt)) = true) : (waiting pkt).CouldStart 5 3 { pkt := pkt } :=
  ⟨by decide, rfl, rfl, rfl, rfl, by decide, rfl, h, k, rfl⟩

theorem witness_RefusedOperationsHaveNoEffect :
    (waiting (packet 0x13 4 [(49, 1, 1)])).CouldStart 5 3 { pkt := packet 0x13 4 [(49, 1, 1)] } ∧
      opCommandOf (.zrt 5 []) = some (0x13, 5, []) ∧ opcOf (packet 0x13 4 [(49, 1, 1)]) = 0x13 ∧
      (waiting (packet 0x13 4 [(49, 1, 1)])).issueCheck 5 { pkt := packet 0x13 4 [(49, 1, 1)] } = some Code.fieldReserved ∧
      answers (.zrt 5 []) (waiting (packet 0x13 4 [(49, 1, 1)])) (fun t => (t.entry 5).naks == 1 && (t.entry 5).done == 4 &&
        (t.entry 5).queue.isEmpty && (t.jobOf 5).isNone) = true :=
  ⟨waiting_couldStart _ (by decide +kernel) (by decide +kernel), by decide +kernel⟩

theorem witness_PlainOperationsStartAndStage :
    (waiting (packet 0x14 4 [(48, 1, 250), (50, 1, 5)])).CouldStart 5 3 { pkt := packet 0x14 4 [(48, 1, 250), (50, 1, 5)] } ∧
      (waiting (packet 0x14 4 [(48, 1, 250), (50, 1, 5)])).issueCheck 5 { pkt := packet 0x14 4 [(48, 1, 250), (50, 1, 5)] } = none ∧
      (waiting (packet 0x14 4 [(48, 1, 250), (50, 1, 5)])).hasTurn 3 5 { pkt := packet 0x14 4 [(48, 1, 250), (50, 1, 5)] } = true ∧
      (waiting (packet 0x14 4 [(48, 1, 250), (50, 1, 5)])).atDispatch 0x14 [] = [] ∧
      answers (.zrt 5 []) (running 5 3 (resident 3 0 [{ pkt := packet 0x13 4 [(48, 1, 9)], issued := true }]) { ctx := 5, tracks := [3], len := 1 }) (fun t =>
        (t.job 5).stage == .staged && (t.job 5).staged.map (fun x => (x.tile, x.structural, x.release)) == [(9, true, false)]) = true ∧
      answers (.rls 5 []) (waiting (packet 0x14 4 [(48, 1, 250), (50, 1, 5)])) (fun t => (t.job 5).stage == .staged &&
        (t.job 5).staged.map (fun x => (x.tile, x.structural, x.release)) == (List.range 6).map (fun d => (250 + d, true, true)) &&
        (t.entry 5).state == .running) = true ∧
      [(Instr.nop 5 [], 0x00), (.det 5 [], 0x02), (.frm 5 [], 0x05), (.aop 5 [], 0x20)].all (fun x =>
        answers x.1 (waiting (packet x.2 4 [])) (fun t => (t.job 5).stage == .staged && (t.jobOf 5).isSome && (t.job 5).tracks == opcTracks x.2))
        = true ∧
      answers (.acl 5 []) { up with entries := [(5, { resident 3 0 [{ pkt := packet 0x24 4 [] }] with planes := [{ isOpen := true }, {}] })] }
        (fun t => (t.job 5).stage == .staged && (t.jobOf 5).isSome) = true ∧
      answers (.nop 5 []) (waiting (packet 0x14 4 [])) (fun t => t == waiting (packet 0x14 4 [])) = true :=
  ⟨waiting_couldStart _ (by decide +kernel) (by decide +kernel), by decide +kernel⟩

/-- Context 5 runs an operation on quarter 3, with a routine short of its commit point. -/
def atWork (pkt : List Byte) (j : Job) : State := running 5 3 (resident 3 0 [{ pkt := pkt, issued := true }]) j

theorem witness_FencesNotifiesAndEmptySpills :
    (atWork (packet 6 4 []) { ctx := 5, tracks := [3] }).Runs 5 3 { ctx := 5, tracks := [3] } { pkt := packet 6 4 [], issued := true } ∧
      (atWork (packet 6 4 []) { ctx := 5, tracks := [3] }).accessesPending 5 = false ∧
      answers (.fnc 5 []) (atWork (packet 6 4 []) { ctx := 5, tracks := [3] }) (fun t => (t.job 5).stage == .staged) = true ∧
      ({ atWork (packet 6 4 []) { ctx := 5, tracks := [3] } with fabric := { up.fabric with txns := [aRead] } } : State).accessesPending 5 = true ∧
      natAt (packet 7 4 [(8, 6, 0x1008), (16, 8, 77)]) 8 6 % 8 = 0 ∧ up.place 0x55008 = .backed ∧ up.inSwitchRange 0x55008 = false ∧
      answers (.ntf 5 []) (atWork (packet 7 4 [(8, 6, 0x1008), (16, 8, 77)]) { ctx := 5, tracks := [3], pages := [(1, 0x55)] }) (fun t =>
        (t.job 5).stage == .staged && t.fabric.txns.map (fun x => (x.spa, x.len, x.data)) == [(0x55008, 8, natLe 8 77)]) = true ∧
      answers (.spl 5 []) (running 5 3 { resident 3 0 [{ pkt := packet 3 4 [], issued := true }] with restore := some {} }
        { ctx := 5, tracks := [2], len := 1 }) (fun t => (t.job 5).stage == .staged && (t.job 5).len == 0) = true :=
  ⟨⟨by decide, rfl, rfl, by rfl, rfl, rfl, rfl⟩, by decide +kernel⟩

/-- LDT of one I8 tile of one row and two columns at 0x1010, without a map or with one at 0x1000. -/
def ldtPacket (map : Nat) : List Byte :=
  packet 0x10 4 [(8, 6, 0x1010), (16, 6, if map = 0 then 0 else 0x1000), (24, 4, 1), (28, 4, 2), (32, 6, 2), (48, 1, 255), (50, 1, 3 + 16 * map)]

/-- Its routine, all inputs at hand. -/
def ldtJob : Job := { ctx := 5, tracks := [2], len := 1, asked := true, fetched := true, classified := true, pages := [(1, 0x55)] }

/-- That LDT, with the byte of its map read. -/
def ldtOp (map bits : Nat) : Op :=
  { pkt := ldtPacket map, issued := true, mapBits := if map = 0 then none else some [(0x1000, BitVec.ofNat 8 bits)] }

/-- Context 5 with that routine, its staging line 33 in slice 3, and the bytes read. -/
def loading (map bits : Nat) : State :=
  let s := (running 5 3 (resident 3 0 [ldtOp map bits]) ldtJob).modSlice 3 (fun sl =>
    { sl with lines := [(33, { owner := .staged 5 255, charge := .shared })] })
  { s with fabric := { s.fabric with got := [{ owner := .op 5, spa := 0x55010, data := [1, 2], bad := [] }] } }

theorem loading_runs (map bits : Nat) : (loading map bits).Runs 5 3 ldtJob (ldtOp map bits) :=
  ⟨by decide, rfl, rfl, by rfl, rfl, rfl, rfl⟩

theorem witness_LoadsStageTheTilesTheyForm :
    (loading 0 0).Runs 5 3 ldtJob (ldtOp 0 0) ∧ (loading 1 1).Runs 5 3 ldtJob (ldtOp 1 1) ∧
      ldtJob.ordinals.map (fun o => (byteAt (ldtPacket 0) 48 + o, (moveView (ldtPacket 0)).tileAt o)) = [(255, (0, 0))] ∧
      (moveView (ldtPacket 0)).rmen = false ∧ (moveView (ldtPacket 1)).rmen = true ∧
      (moveView (ldtPacket 1)).mapBytes [(0, 0)] = [0x1000] ∧
      (moveView (ldtPacket 0)).tileBytes (fun _ _ => true) 0 0 = [(0x1010, 2)] ∧
      (loading 0 0).gather 5 [(0x1010, 2)] = some [{ va := 0x1010, spa := 0x55010, data := [1, 2], bad := [] }] ∧
      (ldtOp 1 1).residency (moveView (ldtPacket 1)) 0 0 = true ∧ (ldtOp 1 0).residency (moveView (ldtPacket 1)) 0 0 = false ∧
      ldtJob.pages.any (fun p => p.1 == 0x1010 / 4096) = true ∧ (ldtJob.places [(0x1010, 2)]).all (fun p => (up.place p.2.1).plain) = true ∧
      pagesOf [(0x1010, 2)] = [0x1010] ∧ (loading 0 0).stagedLine 5 255 = some 33 ∧ (loading 0 0).lanesDone 3 5 = true ∧
      answers (.ldt 5 []) (loading 0 0) (fun t => (t.job 5).stage == .staged && (t.job 5).staged.map (fun x => (x.tile, x.line, x.structural)) ==
        [(255, some 33, false)]) = true ∧
      answers (.ldt 5 []) (loading 1 1) (fun t => (t.job 5).stage == .staged && (t.job 5).staged.map (fun x => (x.tile, x.line, x.structural)) ==
        [(255, some 33, false)]) = true ∧
      answers (.ldt 5 []) (loading 1 0) (fun t => (t.job 5).staged.map (fun x => (x.tile, x.line, x.structural)) == [(255, none, true)]) = true :=
  ⟨loading_runs 0 0, loading_runs 1 1, by decide +kernel⟩

/-- STT of the same tile. -/
def sttPacket : List Byte := packet 0x11 4 [(8, 6, 0x1010), (24, 4, 1), (28, 4, 2), (32, 6, 2), (48, 1, 255), (50, 1, 3)]

theorem witness_StoresIssueTheirWritesInOrder :
    (atWork sttPacket ldtJob).Runs 5 3 ldtJob { pkt := sttPacket, issued := true } ∧
      (moveView sttPacket).storeRanges 0 0 = [(0x1010, 2)] ∧ (atWork sttPacket ldtJob).place 0x55010 = .backed ∧
      (atWork sttPacket ldtJob).lanesDone 3 5 = true ∧
      answers (.stt 5 []) (atWork sttPacket ldtJob) (fun t => (t.job 5).stage == .staged && (t.job 5).issued &&
        t.fabric.txns.map (fun x => (x.va, x.len, x.spa, x.data)) == [(0x1010, 2, 0x55010, [0, 0])]) = true :=
  ⟨⟨by decide, rfl, rfl, by rfl, rfl, rfl, rfl⟩, by decide +kernel⟩

/-- A row of an even tile: scale 0 and elements. -/
def aTileOf (x : Byte) : Tile := List.replicate 32 ⟨127, x :: List.replicate 31 0⟩

/-- Context 5 at work with tile 7 a value, in window line 1 of slice 3, and a staging line 33 there for tile 255. -/
def copying (pkt : List Byte) (j : Job) : State :=
  (atWork pkt j).modSlice 3 (fun sl => { sl with
    lines := [(1, { owner := .window 0 7, charge := .window }), (33, { owner := .staged 5 255, charge := .shared })]
    payload := [(256, aTileOf 5)], words := [(1, { live := true, zero := false, zsrc := false, tile := 7 })] })

/-- CPT of tile 7 to tile 255; ADR of one sub-block to tile 255. -/
def cptPacket : List Byte := packet 0x12 4 [(48, 1, 7), (49, 1, 255)]
def adrPacket : List Byte := packet 0x23 4 [(48, 1, 255), (50, 1, 63)]

theorem witness_CopiesAndDrainsStageTheirTiles :
    (copying cptPacket ldtJob).Runs 5 3 ldtJob { pkt := cptPacket, issued := true } ∧
      (copying adrPacket ldtJob).Runs 5 3 ldtJob { pkt := adrPacket, issued := true } ∧
      ((copying cptPacket ldtJob).tileFlags 5 7).zsrc = false ∧ (copying cptPacket ldtJob).stagedLine 5 255 = some 33 ∧
      (copying cptPacket ldtJob).lanesDone 3 5 = true ∧ (copying cptPacket ldtJob).readTile 5 7 = aTileOf 5 ∧
      answers (.cpt 5 []) (copying cptPacket ldtJob) (fun t => (t.job 5).staged == [{ tile := 255, line := some 33, rows := aTileOf 5 }]) = true ∧
      answers (.adr 5 []) (copying adrPacket ldtJob) (fun t => (t.job 5).staged == [{ tile := 255, line := some 33, rows := Tile.zero }]) = true :=
  ⟨⟨by decide, rfl, rfl, by rfl, rfl, rfl, rfl⟩, ⟨by decide, rfl, rfl, by rfl, rfl, rfl, rfl⟩, by decide +kernel⟩

/-- A routine of MMA in physical plane 1, at the state of its steps that is given. -/
def mmaJob (started summed : Nat) (edge : Bool) (steps : List Nat) : Job :=
  { ctx := 5, tracks := [0], len := 1, loaded := true, started := started, summed := summed, edge := edge, steps := steps, stepAsked := true
    missed := [7, 15], fetched := true, phys := some 1, lines := [aTileOf 2, aTileOf 3] }

/-- MMA of tile 7 with tile 7 into sub-block 63 of plane 1; ASD of tile 7 into it. -/
def mmaPacket : List Byte := packet 0x21 4 [(48, 1, 7), (51, 1, 7), (54, 1, 64), (55, 1, 63)]
def asdPacket : List Byte := packet 0x25 4 [(48, 1, 7), (49, 1, 64), (50, 1, 63)]

theorem witness_SeedsAndStepsAccumulateInThePlane :
    (copying asdPacket (mmaJob 0 0 false [])).Runs 5 3 (mmaJob 0 0 false []) { pkt := asdPacket, issued := true } ∧
      (copying mmaPacket (mmaJob 1 0 false [0])).Runs 5 3 (mmaJob 1 0 false [0]) { pkt := mmaPacket, issued := true } ∧
      ((copying mmaPacket (mmaJob 0 0 false [0])).stepMisses 3 5 mmaPacket (fun n o => .window (bTile mmaPacket n o)) 0).map (·.1) = [7, 15] ∧
      (copying mmaPacket (mmaJob 0 0 false [0])).lanesDone 3 5 = true ∧
      ((mmaJob 0 0 false []).phys.getD 0) < ((copying asdPacket (mmaJob 0 0 false [])).quarter 3).planes.length ∧
      answers (.asd 5 []) (copying asdPacket (mmaJob 0 0 false [])) (fun t => (t.job 5).stage == .staged &&
        ((t.quarter 3).plane 1).block 63 == Tile.seeds (aTileOf 5)) = true ∧
      answers (.mma 5 []) (copying mmaPacket (mmaJob 1 0 false [0])) (fun t => (t.job 5).stage == .staged && (t.job 5).summed == 1 &&
        ((t.quarter 3).plane 1).block 63 == (accumBlock (aTileOf 2) (aTileOf 3) zeroBlock).1) = true ∧
      answers (.mma 5 []) (copying mmaPacket (mmaJob 0 0 true [0])) (fun t => t == copying mmaPacket (mmaJob 0 0 true [0])) = true ∧
      answers (.mma 5 []) (copying mmaPacket (mmaJob 0 0 false [0])) (fun t => (t.job 5).edge && !(t.job 5).stepAsked &&
        (t.job 5).lines == [aTileOf 5, aTileOf 5]) = true ∧
      answers (.mms 5 []) (copying (packet 0x22 4 [(48, 1, 7)]) (mmaJob 1 0 false [0])) (fun t => (t.job 5).stage == .staged) = true :=
  ⟨⟨by decide, rfl, rfl, by rfl, rfl, rfl, rfl⟩, ⟨by decide, rfl, rfl, by rfl, rfl, rfl, rfl⟩, by decide +kernel⟩

/-- A vector operation with source tile 7 and destination tile 255. -/
def vecPacket (o : Nat) : List Byte := packet o 4 [(48, 1, 7), (50, 1, 255), (49, 1, 7)]

theorem witness_VectorOperationsStageTheirResults :
    (copying (vecPacket 0x30) ldtJob).Runs 5 3 ldtJob { pkt := vecPacket 0x30, issued := true } ∧
      opCommandOf (.vad 5 []) = some (0x30, 5, []) ∧ 0x30 ∈ elementwise ∧ opcOf (vecPacket 0x30) = 0x30 ∧ ldtJob.asked = true ∧
      ((elemOut (vecPacket 0x30) ((copying (vecPacket 0x30) ldtJob).readTile 5) 0).tiles.map (·.1)) = [255] ∧
      (copying (vecPacket 0x30) ldtJob).stagedLine 5 255 = some 33 ∧ (copying (vecPacket 0x30) ldtJob).lanesDone 3 5 = true ∧
      [(Instr.vad 5 [], 0x30), (.vmu 5 [], 0x31), (.vmx 5 [], 0x32), (.vmn 5 [], 0x33), (.vsc 5 [], 0x34), (.vex 5 [], 0x35), (.vrc 5 [], 0x36),
        (.vrs 5 [], 0x37), (.vrr 5 [], 0x38), (.vtr 5 [], 0x39), (.vrq 5 [], 0x3A), (.smx 5 [], 0x40), (.nrm 5 [], 0x41)].all (fun x =>
        answers x.1 (copying (vecPacket x.2) ldtJob) (fun t => (t.job 5).stage == .staged &&
          (t.job 5).staged.map (fun y => (y.tile, y.line)) == [(255, some 33)])) = true :=
  ⟨⟨by decide, rfl, rfl, by rfl, rfl, rfl, rfl⟩, by decide +kernel⟩

/-- Context 5 at its commit point on quarter 3, with tile writes staged and an operation. -/
def committing (pkt : List Byte) (st : List StagedTile) : State :=
  copying pkt { ctx := 5, tracks := [3], len := 1, stage := .staged, staged := st }

/-- The routine that is at its commit point. -/
def commitJob (st : List StagedTile) : Job := { ctx := 5, tracks := [3], len := 1, stage := .staged, staged := st }

/-- A plane of context 5 is open and in physical plane 1 of quarter 3, with a line parked for plane 1. -/
def planeHeld (pkt : List Byte) : State :=
  let s := (committing pkt []).modEntry 5 (fun e => { e with planes := [{}, { isOpen := true, live := 3, loc := .phys 3 1 }] })
  (s.modPlane 3 1 (fun _ => { holder := some (5, 1) })).modSlice 2 (fun sl => { sl with lines := [(64, { owner := .parked 5 1 0 0, charge := .reserve })] })

theorem witness_CommitAdvancesItsOperation :
    ((committing cptPacket []).quarter 3).jobs.find? (fun j => j.tracks.contains 3 && j.stage == .staged) = some (commitJob []) ∧
      ((committing cptPacket []).entry 5).rebindTo = none ∧
      ((committing cptPacket []).entry 5).headOp = some { pkt := cptPacket, issued := true } ∧
      answers (.segmentCommit 3 3 1600) (committing cptPacket []) (fun t => t.now == 1000 && (t.jobOf 5).isNone &&
        (t.entry 5).queue.map (fun o => (o.ord, o.segs, o.count, o.done)) == [(1, 1, 0, true)] && t.hbm.mem == up.hbm.mem) = true ∧
      (up.quarter 3).jobs.find? (fun j => j.tracks.contains 3 && j.stage == .staged) = none ∧
      (up.quarter 3).moves.find? (fun m => m.tracks.contains 3 && m.staged) = none := by
  decide +kernel

theorem witness_AopOpensAnEmptyPlane :
    ((planeHeld (packet 0x20 4 [(48, 1, 1)])).quarter 3).jobs.find? (fun j => j.tracks.contains 3 && j.stage == .staged) = some (commitJob []) ∧
      ((planeHeld (packet 0x20 4 [(48, 1, 1)])).entry 5).headOp = some { pkt := packet 0x20 4 [(48, 1, 1)], issued := true } ∧
      ((planeHeld (packet 0x20 4 [(48, 1, 1)])).entry 5).rebindTo = none ∧ ((planeHeld (packet 0x20 4 [(48, 1, 1)])).entry 5).planes.length = 2 ∧
      answers (.segmentCommit 3 3 0) (planeHeld (packet 0x20 4 [(48, 1, 1)])) (fun t =>
        (t.entry 5).plane 1 == { isOpen := true } && (t.slice 2).lines == []) = true := by
  decide +kernel

/-- Context 5 at the commit point of an RLS of tile 7. -/
def releasing : State := committing (packet 0x14 4 [(48, 1, 7)]) [{ tile := 7, structural := true, release := true }]

theorem releasing_oneOwner : ∀ i, (releasing.slice i).OneOwner := by
  intro i
  match i with
  | 0 => exact ⟨by decide +kernel, by decide +kernel⟩
  | 1 => exact ⟨by decide +kernel, by decide +kernel⟩
  | 2 => exact ⟨by decide +kernel, by decide +kernel⟩
  | 3 => exact ⟨by decide +kernel, by decide +kernel⟩
  | n + 4 => exact ⟨.nil, .nil⟩

theorem witness_ReleasedPlanesAndTilesAreEmpty :
    (∀ i, (releasing.slice i).OneOwner) ∧ answers (.segmentCommit 3 3 0) (planeHeld (packet 0x24 4 [(48, 1, 1)])) (fun t =>
        (t.entry 5).plane 1 == {} && ((t.quarter 3).plane 1).holder == none && (t.slice 2).lines == []) = true ∧
      (releasing.entry 5).headOp =
        some { pkt := packet 0x14 4 [(48, 1, 7)], issued := true } ∧
      answers (.segmentCommit 3 3 0) (releasing.modQuarter 3
          (fun u => u.setPeg 0 { valid := true, slot := 0, tile := 7 }))
        (fun t => t.readTile 5 7 == Tile.zero && !(t.tileFlags 5 7).live && (t.tileFlags 5 7).zsrc && (t.tileFlags 5 7).zero &&
          !((t.quarter 3).peg 0).valid) = true ∧
      answers (.segmentCommit 3 3 0) (committing (packet 0x13 4 [(48, 1, 7)]) [{ tile := 7, structural := true }])
        (fun t => t.readTile 5 7 == Tile.zero && (t.tileFlags 5 7).live && (t.tileFlags 5 7).zsrc) = true :=
  ⟨releasing_oneOwner, by decide +kernel⟩

/-- The staged line of tile 255 filled. -/
def filled : State :=
  (committing cptPacket [{ tile := 255, line := some 33, rows := aTileOf 9 }]).modSlice 3 (fun sl => sl.writePayload 33 (aTileOf 9))

theorem filled_oneOwner : ∀ i, (filled.slice i).OneOwner := by
  intro i
  match i with
  | 0 => exact ⟨by decide +kernel, by decide +kernel⟩
  | 1 => exact ⟨by decide +kernel, by decide +kernel⟩
  | 2 => exact ⟨by decide +kernel, by decide +kernel⟩
  | 3 => exact ⟨by decide +kernel, by decide +kernel⟩
  | n + 4 => exact ⟨.nil, .nil⟩

theorem witness_CommittedTilesReadAsStaged :
    (filled.entry 5).slot = some 0 ∧ filled.slices.length = 4 ∧ (∀ i, (filled.slice i).OneOwner) ∧ filled.stagedLine 5 255 = some 33 ∧
      33 ∉ (filled.slice 3).lost ∧ assocGet (filled.slice 3).payload ((filled.slice 3).payKey 33) = some (aTileOf 9) ∧
      answers (.segmentCommit 3 3 0) filled (fun t => t.readTile 5 255 == aTileOf 9 && (t.tileWord 5 255).ver == 1 && (t.tileWord 5 255).live &&
        !(t.tileWord 5 255).zsrc) = true :=
  ⟨by decide +kernel, by decide +kernel, filled_oneOwner, by decide +kernel⟩

/-- Context 5 whose first operation has committed every segment. -/
def finished (pkt : List Byte) : State := { up with entries := [(5, resident 3 0 [{ pkt := pkt, issued := true, done := true }])], sealKey := some 1 }

theorem witness_CompletedOperationsLeaveTheQueue :
    (finished (packet 0 77 [])).mayComplete 5 { pkt := packet 0 77 [], issued := true, done := true } = true ∧
      (finished (packet 0 77 [])).jobOf 5 = none ∧
      answers (.operationComplete 5) (finished (packet 0 77 [])) (fun t => (t.entry 5).queue.isEmpty && (t.entry 5).done == 77) = true ∧
      answers (.operationComplete 5) (finished (packet 5 77 [(6, 2, 65535)])) (fun t => (t.entry 5).frm == 65535) = true ∧
      answers (.operationComplete 5) (finished (packet 2 77 [])) (fun t => (t.entry 5).state == .detached) = true ∧
      answers (.operationComplete 5) (finished (packet 3 77 [])) (fun t => (t.entry 5).state == .spilled && (t.entry 5).slot == none) = true ∧
      answers (.operationComplete 5) { finished (packet 6 77 []) with fabric := { up.fabric with txns := [aRead] } } (fun t =>
        (t.entry 5).queue.length == 1) = true ∧ ({ pkt := [], done := false } : Op).done = false := by
  decide +kernel

/-- A descriptor of class BE with one tile, and its ATT. -/
def descriptor (wt : Nat) : List Byte :=
  bytesWith 256 [(0, 1, 1), (2, 1, 15), (3, 1, wt), (4, 2, 64), (8, 7, 0x10000), (16, 7, 0x20000), (24, 7, 0x30000), (30, 1, 0x60), (32, 7, 0x40000)]
def attPacket (resv : Nat) : List Byte := packet 1 65535 [(2, 2, 5), (8, 7, 0x50000), (15, 1, resv)]

/-- Context 5 under ATT: its routine on quarter 0, the read posted and perhaps returned. -/
def attaching (pkt : List Byte) (asked : Bool) (got : List Got) (st : Stage) : State :=
  { up with entries := [(5, { att := some pkt })], fabric := { up.fabric with got := got }
            quarters := modAt up.quarters 0 (fun u => { u with jobs := [{ kind := .attach, ctx := 5, tracks := [3], len := 1, asked := asked, stage := st }] }) }

theorem witness_AttachFillsItsEntry :
    (attaching (attPacket 0) false [] .gather).jobOf 5 = some (0, { kind := .attach, ctx := 5, tracks := [3], len := 1 }) ∧
      attReserved (attPacket 0) = false ∧ attReserved (attPacket 1) = true ∧ attDspa (attPacket 0) % 256 = 0 ∧
      (up.place (attDspa (attPacket 0))).plain = true ∧ up.descCheck (parseDesc (descriptor 1) 0x50000) = none ∧
      (up.descCheck (parseDesc (descriptor 0) 0x50000)).isSome = true ∧
      (attaching (attPacket 0) true [{ owner := .record 5, spa := 0x50000, data := descriptor 1, bad := [] }] .gather).descBytes 5 0x50000 =
        some (descriptor 1, false) ∧
      answers (.att 5 []) (attaching (attPacket 1) false [] .gather) (fun t => (t.jobOf 5).isNone && (t.entry 5).att == none) = true ∧
      answers (.att 5 []) (attaching (attPacket 0) false [] .gather) (fun t => (t.job 5).asked &&
        t.fabric.txns.map (fun x => (x.spa, x.len)) == [(0x50000, 256)]) = true ∧
      answers (.att 5 []) (attaching (attPacket 0) true [{ owner := .record 5, spa := 0x50000, data := descriptor 1, bad := [] }] .gather)
        (fun t => (t.job 5).stage == .staged) = true ∧
      answers (.att 5 []) (attaching (attPacket 0) true [{ owner := .record 5, spa := 0x50000, data := descriptor 0, bad := [] }] .gather)
        (fun t => (t.jobOf 5).isNone && (t.entry 5).att == none && (t.entry 5).state == .detached) = true ∧
      answers (.segmentCommit 0 3 0) (attaching (attPacket 0) true [{ owner := .record 5, spa := 0x50000, data := descriptor 1, bad := [] }] .staged)
        (fun t => (t.entry 5).state == .spilled && (t.entry 5).expSeq == 0 && (t.entry 5).done == 65535 && (t.entry 5).desc.wt == 1 &&
          (t.jobOf 5).isNone) = true := by
  decide +kernel

/-- A routine that spills or restores context 5 on quarter 3. -/
def moveJob (k : JobKind) : Job := { kind := k, ctx := 5, tracks := [2], fetched := true, asked := true, classified := true }

/-- Context 5 spilling its tile 7 as an eviction, or as an SPL. -/
def spilling (k : JobKind) : State :=
  let s := (copying (packet 3 4 []) (moveJob k)).modEntry 5 (fun e => { e with salt := some 9 })
  { s with sealKey := some 1, internal := [.evict 5] }

/-- Context 5 restoring: an image without tiles whose header has verified, or no image. -/
def restoring (img : Bool) : State :=
  let s := running 5 3 { resident 3 0 [] with restore := some { header := List.replicate 128 0 } } (moveJob .restore)
  let s1 := s.modEntry 5 (fun e => { e with desc := { e.desc with img := img, sepoch := 1 } })
  { s1 with sealKey := some 1, internal := [.restore 5] }

theorem spilling_runs : (spilling .op).Runs 5 3 (moveJob .op) { pkt := packet 3 4 [], issued := true } :=
  ⟨by decide, rfl, rfl, by rfl, rfl, rfl, rfl⟩

theorem witness_SpillsReachTheirCommit :
    (spilling .op).Runs 5 3 (moveJob .op) { pkt := packet 3 4 [], issued := true } ∧
      (spilling .evict).jobOf 5 = some (3, moveJob .evict) ∧ ((spilling .evict).entry 5).salt.isSome = true ∧
      (spilling .evict).lanesDone 3 5 = true ∧ (spilling .evict).spillSegment 5 0 = [(.tile 7, 0)] ∧ ((spilling .evict).entry 5).restore = none ∧
      answers (.evict 5 []) (spilling .evict) (fun t => (t.job 5).stage == .staged && (t.job 5).len == 1 && (t.job 5).writesDone == 1 &&
        t.fabric.txns.map (fun x => (x.spa, x.kind, x.master)) == [(0x40080, .write, masterSre)]) = true ∧
      answers (.spl 5 []) (spilling .op) (fun t => (t.job 5).stage == .staged && t.fabric.txns.length == 1) = true :=
  ⟨spilling_runs, by decide +kernel⟩

theorem witness_RestoresReachTheirCommit :
    answers (.restore 5 []) (restoring false) (fun t => (t.job 5).stage == .staged) = true ∧
      (restoring true).jobOf 5 = some (3, moveJob .restore) ∧ ((restoring true).entry 5).restore = some { header := List.replicate 128 0 } ∧
      headerRecs (List.replicate 128 0) = [] ∧ (restoring true).lanesDone 3 5 = true ∧
      answers (.restore 5 []) (restoring true) (fun t => (t.job 5).stage == .staged && (t.job 5).len == 0) = true := by
  decide +kernel

/-- Context 5 whose plane 1 is in physical plane 1 of quarter 3, or parked, with an internal routine queued. -/
def planed (loc : PlaneLoc) (i : Internal) : State :=
  let s := { up with entries := [(5, { resident 3 0 [] with planes := [{}, { isOpen := true, live := 2 ^ 63, loc := loc }] })], internal := [i]
                     slices := up.slices.map (fun sl => { sl with reserveFree := 7 }) }
  if loc = .parked then s else s.modPlane 3 1 (fun _ => { holder := some (5, 1) })

/-- The same with that move in progress, its lines moved, at its commit point or short of it; one parked line is in slice 2. -/
def planeMove (k : MoveKind) (staged : Bool) : MoveJob :=
  { kind := k, ctx := 5, pl := 1, phys := 1, subs := [63], tracks := if k == .park then [trackVector, trackData] else [trackMatrix], takenAt := 3
    staged := staged }
def planeMoving (k : MoveKind) (staged : Bool) : State :=
  let s := if k = .park then planed (.phys 3 1) (.park 5 1) else
    (planed .parked (.unpark 5 1 1)).modSlice 2 (fun sl => { sl with lines := [(64, { owner := .parked 5 1 63 0, charge := .reserve })] })
  s.modQuarter 3 (fun u => { u with moves := [planeMove k staged] })

theorem witness_PlanesParkAndReturn :
    (planed (.phys 3 1) (.park 5 1)).internal.findSome? (fun i => match i with | .park d l => if d = 5 then some l else none | _ => none) = some 1 ∧
      ((planed (.phys 3 1) (.park 5 1)).entry 5).planes.length = 2 ∧ (planed (.phys 3 1) (.park 5 1)).internalStarts 3 true true false = true ∧
      (planed (.phys 3 1) (.park 5 1)).tracksOpen 3 [trackVector, trackData] = true ∧ 1 ∉ (planed (.phys 3 1) (.park 5 1)).planesInUse 3 ∧
      maskBits 64 (2 ^ 63) = [63] ∧ (planed (.phys 3 1) (.park 5 1)).reserveEnough 5 [63] = true ∧
      (planed (.phys 3 1) (.park 5 1)).atDispatch dispatchPark [] = [] ∧
      answers (.park 5 []) (planed (.phys 3 1) (.park 5 1)) (fun t =>
        (t.moveOf 3 5 .park 1).map (fun m => (m.tracks, m.phys, m.subs)) == some ([trackVector, trackData], 1, [63]) &&
        ((t.quarter 3).lanes.map (fun l => (l.map (·.left)).sum)).sum == 7 && (t.slice 3).lines.length == 7) = true ∧
      (planeMoving .park false).moveOf 3 5 .park 1 = some (planeMove .park false) ∧
      answers (.park 5 []) (planeMoving .park false) (fun t => t.moveOf 3 5 .park 1 == some (planeMove .park true)) = true ∧
      (planeMoving .park true).quarter 3 = { (planed (.phys 3 1) (.park 5 1)).quarter 3 with moves := [planeMove .park true] } ∧
      answers (.segmentCommit 3 1 1600) (planeMoving .park true) (fun t => ((t.entry 5).plane 1).loc == .parked && t.internal.isEmpty &&
        (t.quarter 3).plane 1 == {} && t.now == 1003) = true := by
  decide +kernel

theorem witness_PlanesUnpark :
    (planed .parked (.unpark 5 1 1)).internalStarts 3 false false false = true ∧ (planed .parked (.unpark 5 1 1)).tracksOpen 3 [trackMatrix] = true ∧
      (((planed .parked (.unpark 5 1 1)).quarter 3).plane 1).holder = none ∧ 1 < ((planed .parked (.unpark 5 1 1)).quarter 3).planes.length ∧
      (planed .parked (.unpark 5 1 1)).atDispatch dispatchUnpark [] = [] ∧
      answers (.unpark 5 []) (planed .parked (.unpark 5 1 1)) (fun t => ((t.quarter 3).plane 1).holder == some (5, 1) &&
        (t.moveOf 3 5 .unpark 1).map (fun m => (m.tracks, m.phys, m.subs)) == some ([trackMatrix], 1, [63])) = true ∧
      answers (.unpark 5 []) (planeMoving .unpark false) (fun t => t.moveOf 3 5 .unpark 1 == some (planeMove .unpark true)) = true ∧
      answers (.segmentCommit 3 0 0) (planeMoving .unpark true) (fun t => ((t.entry 5).plane 1).loc == .phys 3 1 && (t.slice 2).lines == []) = true ∧
      up.internal = [] := by
  decide +kernel

/-- Context 5 SPILLED and a candidate, of class BE or IS. -/
def candidate (cls : Nat) : State :=
  { up with entries := [(5, { resident 3 0 [] with state := .spilled, slot := none, quarter := none, candidate := some 4
                                                   desc := { (resident 3 0 []).desc with cls := cls } })], sealKey := some 1 }

/-- The same with all slots but none free: a ceiling of one slot, which context 6 holds. -/
def crowded : State :=
  { candidate 0 with entries := (candidate 0).entries ++ [(6, { resident 3 0 [] with state := .idle })]
                     slices := (candidate 0).slices.map (fun sl => { sl with ceiling := some 1 }) }

/-- Context 5 of class IS in slot 0 of quarter 2, its window still in slice 1. -/
def moving : State :=
  { up with entries := [(5, { resident 2 0 [] with moving := some 1, desc := { (resident 2 0 []).desc with cls := 2 } })], internal := [.ismove 5]
            slices := up.slices.map (fun sl => { sl with sharedFree := 320 }) }

theorem witness_SlotsBindingsAndWindows :
    (candidate 0).candidateList.filter (candidate 0).slotCures = [5] ∧ (candidate 0).freeSlotNo = some 0 ∧
      (candidate 0).quarterFor 5 = some (0, false) ∧ (candidate 0).rinsing = false ∧
      answers .candidateSlot (candidate 0) (fun t => (t.entry 5).slot == some 0 && (t.entry 5).quarter == some 0 && t.internal == [.restore 5]) = true ∧
      crowded.freeSlotNo = none ∧ crowded.victim = some 6 ∧ crowded.candidateList.filter crowded.slotCures = [5] ∧
      answers .candidateSlot crowded (fun t => t.internal == [.evict 6]) = true ∧
      (candidate 2).candidateList.filter (candidate 2).slotCures = [] ∧
      (let s := { up with entries := [(5, resident 3 0 [])], quarters := modAt up.quarters 3 (fun u => { u with removed := true }) }
       s.mustLeave (s.entry 5) = true ∧ s.quarterFor 5 = some (0, false) ∧ s.jobOf 5 = none ∧ s.movesOf 5 = false ∧ (s.entry 5).rebindTo = none ∧
        answers (.contextRebind 5) s (fun t => (t.entry 5).quarter == some 0 && (t.entry 5).slot == some 0) = true) ∧
      moving.internalStarts 2 false false false = true ∧ moving.atDispatch dispatchIsmove [] = [] ∧ moving.tracksOpen 2 [trackData] = true ∧ moving.jobOf 5 = none ∧
      answers (.ismove 5 []) moving (fun t => (t.moveOf 2 5 .ismove 0).map (·.tracks) == some [trackData] && (t.slice 2).sharedFree == 0) = true ∧
      (let m : MoveJob := { kind := .ismove, ctx := 5, phys := 2, tracks := [trackData], takenAt := 0 }
       answers (.ismove 5 []) (moving.modQuarter 2 (fun u => { u with moves := [m] })) (fun t =>
         t.moveOf 2 5 .ismove 0 == some { m with staged := true }) = true) := by
  decide +kernel

theorem witness_PeriodsAndDeadlinesPass :
    up.oldHz = none ∧ up.periodNow = up.period ∧
      answers .periodStart up (fun t => t.period == 1 && t.now == 33333340) = true ∧
      ({ up with period := 5 } : State).periodNow ≠ 5 ∧ answers .periodStart { up with period := 5 } (fun t => t.period == 0 && t.now == 0) = true ∧
      (let f : Frame := { num := 1, bound := 1, period := 20, deadline := 500 }
       let s := { up with entries := [(5, { resident 3 0 [] with frames := [f], desc := { (resident 3 0 []).desc with cls := 1 } })] }
       (s.entry 5).nextDeadline = some f ∧ s.profile.missDrop = false ∧
        answers (.frameDeadline 5) s (fun t => t.now == 500 && (t.entry 5).frames.map (·.past) == [true]) = true) ∧
      (up.entry 5).nextDeadline = none := by
  decide +kernel

end Sys2Proof.Tests
end

section
/-! SUPPORT. Proofs of the machine's statements: what a command leaves whatever it is, and the obligation on configuration (R26, R27). -/
namespace Sys2Proof.Machine

/-- The commands that keep the set-up and never turn time back: all but the resets, the latching of the straps, the level pins and
the two kinds of profile apply. -/
def keepsSetup : Instr → Bool
  | .pwrgoodFall | .resetAssert | .resetRelease _ | .strapLatch _ _ _ _ _ _ _ | .levelPinMeasure _ | .bringupApply _ _
  | .profileApply => false
  | _ => true

/-- What every command leaves, from what each command leaves (Laws/Exec*.lean). -/
theorem exec_stays {c : Instr} {s t : State} (h : exec c s = .next t) : Stays (keepsSetup c) s t := by
  cases c with
  | pwrgoodFall => exact execPwrgoodFall_stays h
  | resetAssert => exact execResetAssert_stays h
  | resetRelease _ => exact execResetRelease_stays h
  | strapLatch _ _ _ _ _ _ _ => exact execStrapLatch_stays h
  | levelPinMeasure _ => exact execLevelPinMeasure_stays h
  | pllsLocked => exact execPllsLocked_stays h
  | flashSfdpRead _ => exact execFlashSfdpRead_stays h
  | holdCleared => exact execHoldCleared_stays h
  | imageCopyVerify _ _ => exact execImageCopyVerify_stays h
  | microRamRemap => exact execMicroRamRemap_stays h
  | bist _ => exact execBist_stays h
  | bringupApply _ _ => exact execBringupApply_stays h
  | hbmTraining _ _ => exact execHbmTraining_stays h
  | hbmInitialise => exact execHbmInitialise_stays h
  | fabricTrainingEnd => exact execFabricTrainingEnd_stays h
  | readiness => exact execReadiness_stays h
  | bringupPhaseTimeout => exact execBringupPhaseTimeout_stays h
  | statHoldExpiry => exact execStatHoldExpiry_stays h
  | pllLockLoss _ => exact execPllLockLoss_stays h
  | sdrefclkLoss _ => exact execSdrefclkLoss_stays h
  | energyInterval => exact execEnergyInterval_stays h
  | powerStepDecision _ => exact execPowerStepDecision_stays h
  | imonSample _ => exact execImonSample_stays h
  | imonTripHoldExpiry => exact execImonTripHoldExpiry_stays h
  | thermalCeilingUpdate => exact execThermalCeilingUpdate_stays h
  | staticBandEval => exact execStaticBandEval_stays h
  | sensorSample _ _ => exact execSensorSample_stays h
  | hbmTemperatureRead _ _ => exact execHbmTemperatureRead_stays h
  | vidSettleTimeout => exact execVidSettleTimeout_stays h
  | vidLowerCode => exact execVidLowerCode_stays h
  | trfRefresh _ _ _ => exact execTrfRefresh_stays h
  | trfRefreshUrgent _ _ _ => exact execTrfRefreshUrgent_stays h
  | refIntervalChange => exact execRefIntervalChange_stays h
  | bankRetire _ _ _ => exact execBankRetire_stays h
  | bankHandoverSwap _ => exact execBankHandoverSwap_stays h
  | bankEvacuate _ _ => exact execBankEvacuate_stays h
  | bankMarch _ _ _ => exact execBankMarch_stays h
  | bankReinstate _ _ => exact execBankReinstate_stays h
  | portRound _ _ _ => exact execPortRound_stays h
  | debugTransfer _ _ => exact execDebugTransfer_stays h
  | allocatorRound _ => exact execAllocatorRound_stays h
  | arrayStepStart _ => exact execArrayStepStart_stays h
  | fabricTargetRound _ _ _ => exact execFabricTargetRound_stays h
  | hbmReadReturn _ _ => exact execHbmReadReturn_stays h
  | hbmBankRefresh _ => exact execHbmBankRefresh_stays h
  | hbmRetrain => exact execHbmRetrain_stays h
  | hbmScrubRead _ _ _ => exact execHbmScrubRead_stays h
  | storeScrub _ => exact execStoreScrub_stays h
  | trngRefill => exact execTrngRefill_stays h
  | saltDrawResume _ => exact execSaltDrawResume_stays h
  | oprReceive _ _ => exact execOprReceive_stays h
  | nop _ _ => exact execNop_stays h
  | att _ _ => exact execAtt_stays h
  | det _ _ => exact execDet_stays h
  | spl _ _ => exact execSpl_stays h
  | frm _ _ => exact execFrm_stays h
  | fnc _ _ => exact execFnc_stays h
  | ntf _ _ => exact execNtf_stays h
  | ldt _ _ => exact execLdt_stays h
  | stt _ _ => exact execStt_stays h
  | cpt _ _ => exact execCpt_stays h
  | zrt _ _ => exact execZrt_stays h
  | rls _ _ => exact execRls_stays h
  | aop _ _ => exact execAop_stays h
  | acl _ _ => exact execAcl_stays h
  | mma _ _ => exact execMma_stays h
  | mms _ _ => exact execMms_stays h
  | asd _ _ => exact execAsd_stays h
  | adr _ _ => exact execAdr_stays h
  | vad _ _ => exact execVad_stays h
  | vmu _ _ => exact execVmu_stays h
  | vmx _ _ => exact execVmx_stays h
  | vmn _ _ => exact execVmn_stays h
  | vsc _ _ => exact execVsc_stays h
  | vex _ _ => exact execVex_stays h
  | vrc _ _ => exact execVrc_stays h
  | vrs _ _ => exact execVrs_stays h
  | vrr _ _ => exact execVrr_stays h
  | vtr _ _ => exact execVtr_stays h
  | vrq _ _ => exact execVrq_stays h
  | smx _ _ => exact execSmx_stays h
  | nrm _ _ => exact execNrm_stays h
  | translationWalk _ _ => exact execTranslationWalk_stays h
  | segmentCommit _ _ _ => exact execSegmentCommit_stays h
  | operationComplete _ => exact execOperationComplete_stays h
  | park _ _ => exact execPark_stays h
  | unpark _ _ => exact execUnpark_stays h
  | evict _ _ => exact execEvict_stays h
  | restore _ _ => exact execRestore_stays h
  | ismove _ _ => exact execIsmove_stays h
  | candidateSlot => exact execCandidateSlot_stays h
  | contextRebind _ => exact execContextRebind_stays h
  | periodStart => exact execPeriodStart_stays h
  | frameDeadline _ => exact execFrameDeadline_stays h
  | flitTransmit _ => exact execFlitTransmit_stays h
  | flitReceive _ _ => exact execFlitReceive_stays h
  | retryReqReceive _ _ => exact execRetryReqReceive_stays h
  | retryReqRepeat _ => exact execRetryReqRepeat_stays h
  | idleFlitSend _ => exact execIdleFlitSend_stays h
  | replayTimeout _ => exact execReplayTimeout_stays h
  | replayLimit _ => exact execReplayLimit_stays h
  | creditStallTimeout _ => exact execCreditStallTimeout_stays h
  | linkStateTimeout => exact execLinkStateTimeout_stays h
  | moduleActiveChange _ => exact execModuleActiveChange_stays h
  | moduleRetrain _ => exact execModuleRetrain_stays h
  | initReceive _ _ => exact execInitReceive_stays h
  | initDoneReceive _ _ => exact execInitDoneReceive_stays h
  | mrd _ _ => exact execMrd_stays h
  | mwr _ _ => exact execMwr_stays h
  | mfa _ _ => exact execMfa_stays h
  | mcs _ _ => exact execMcs_stays h
  | rwr _ _ => exact execRwr_stays h
  | cpldReceive _ _ => exact execCpldReceive_stays h
  | cplReceive _ _ => exact execCplReceive_stays h
  | hostCompletionTimeout _ => exact execHostCompletionTimeout_stays h
  | fabricCompletionTimeout _ _ => exact execFabricCompletionTimeout_stays h
  | tagHoldExpiry _ _ => exact execTagHoldExpiry_stays h
  | sealPacket _ _ => exact execSealPacket_stays h
  | ringPacket _ _ => exact execRingPacket_stays h
  | profilePacket _ _ => exact execProfilePacket_stays h
  | timePacket _ _ => exact execTimePacket_stays h
  | haltPacket _ _ => exact execHaltPacket_stays h
  | haltCack => exact execHaltCack_stays h
  | resumePacket _ _ => exact execResumePacket_stays h
  | linkViolationReport => exact execLinkViolationReport_stays h
  | fpTrainingFrame _ _ => exact execFpTrainingFrame_stays h
  | fpCodedStreamStart _ => exact execFpCodedStreamStart_stays h
  | fpMarkerLock _ _ => exact execFpMarkerLock_stays h
  | fpStateChange _ => exact execFpStateChange_stays h
  | fpStateTimeout _ => exact execFpStateTimeout_stays h
  | fpFailedRetry _ => exact execFpFailedRetry_stays h
  | fpUeRateRetrain _ _ _ => exact execFpUeRateRetrain_stays h
  | fpLaneFail _ _ => exact execFpLaneFail_stays h
  | width _ _ => exact execWidth_stays h
  | widthSwitch _ => exact execWidthSwitch_stays h
  | fpLaneRetrain _ _ _ => exact execFpLaneRetrain_stays h
  | fpLaneBerRemove _ _ => exact execFpLaneBerRemove_stays h
  | packetForward => exact execPacketForward_stays h
  | forwardHoldExpiry => exact execForwardHoldExpiry_stays h
  | pinLapse _ => exact execPinLapse_stays h
  | streamEpochResume _ => exact execStreamEpochResume_stays h
  | pselSample _ => exact execPselSample_stays h
  | pselDebounceDone => exact execPselDebounceDone_stays h
  | profileSwitchStart => exact execProfileSwitchStart_stays h
  | rinseStart _ => exact execRinseStart_stays h
  | rinseTimeout => exact execRinseTimeout_stays h
  | profileApply => exact execProfileApply_stays h
  | rotationBoundary _ _ => exact execRotationBoundary_stays h
  | shadowStep _ => exact execShadowStep_stays h
  | shadowCompare _ _ => exact execShadowCompare_stays h
  | quarterRemove _ _ => exact execQuarterRemove_stays h
  | debugBist _ => exact execDebugBist_stays h
  | healthRecord => exact execHealthRecord_stays h
  | pwrgoodRise => exact execPwrgoodRise_stays h
  | handshakeEntry => exact execHandshakeEntry_stays h
  | jtagHaltInstrument _ _ => exact execJtagHaltInstrument_stays h

/-- R816: the release of reset starts the timebase, and leaves the set-up. -/
theorem execResetRelease_setup {b : Bool} {s t : State} (h : execResetRelease b s = .next t) : t.setup = s.setup := by
  unfold execResetRelease at h
  cases h
  split <;> rfl

/-- A command that changes the set-up is one of the six that may. -/
theorem exec_setup {c : Instr} {s t : State} (h : exec c s = .next t) (hfall : c ≠ .pwrgoodFall) (hreset : c ≠ .resetAssert)
    (hprofile : c ≠ .profileApply) (hlevel : ∀ mv, c ≠ .levelPinMeasure mv) (happly : ∀ a b, c ≠ .bringupApply a b)
    (hstrap : ∀ b r l p m f g, c ≠ .strapLatch b r l p m f g) : t.setup = s.setup := by
  cases hk : keepsSetup c with
  | true => exact (exec_stays h).setup hk
  | false =>
    unfold keepsSetup at hk
    split at hk
    · exact absurd rfl hfall
    · exact absurd rfl hreset
    · exact execResetRelease_setup h
    · exact absurd rfl (hstrap _ _ _ _ _ _ _)
    · exact absurd rfl (hlevel _)
    · exact absurd rfl (happly _ _)
    · exact absurd rfl hprofile
    · cases hk

/-- Settles O6: every command but the six leaves the set-up, and the set-up is these six fields. -/
theorem onlySetupCommandsChangeConfiguration : Obligations.OnlySetupCommandsChangeConfiguration := by
  unfold Obligations.OnlySetupCommandsChangeConfiguration
  intro c s t h hfall hreset hprofile hlevel happly hstrap
  simpa only [State.setup, Prod.mk.injEq] using exec_setup h hfall hreset hprofile hlevel happly hstrap

end Sys2Proof.Machine
end

section
/-! SUPPORT. Proofs of the commit point: what the effects at one edge leave of memory, time, routines and the operation that commits
(R324), and the obligation on the advance of an operation. -/
namespace Sys2Proof.Machine

/-! ### Routines of the quarters, and the first operation of an entry, after an update -/

theorem map_jobs {f : Quarter → Quarter} (hf : ∀ u, (f u).jobs = u.jobs) (l : List Quarter) :
    (l.map f).map (·.jobs) = l.map (·.jobs) := by
  simp [hf]

theorem zipIdx_map_jobs {f : Quarter × Nat → Quarter} (hf : ∀ p, (f p).jobs = p.1.jobs) (l : List Quarter) :
    (l.zipIdx.map f).map (·.jobs) = l.map (·.jobs) := by
  have hfst : (fun u : Quarter => u.jobs) ∘ f = (fun u : Quarter => u.jobs) ∘ Prod.fst := funext hf
  rw [List.map_map, hfst, ← List.map_map, List.zipIdx_map_fst]

theorem modAt_jobs {f : Quarter → Quarter} (hf : ∀ u, (f u).jobs = u.jobs) :
    ∀ (l : List Quarter) (q : Nat), (modAt l q f).map (·.jobs) = l.map (·.jobs)
  | [], _ => by simp [modAt]
  | _ :: _, 0 => by simp [modAt, hf]
  | _ :: us, q + 1 => by simp [modAt, modAt_jobs hf us q]

/-- The routines of a quarter are those of its place in the list; a quarter that is not there has none. -/
theorem State.quarter_jobs (s : State) (q : Nat) : (s.quarter q).jobs = (s.quarters.map (·.jobs)).getD q [] := by
  rw [State.quarter, List.getD_eq_getElem?_getD, List.getD_eq_getElem?_getD, List.getElem?_map]
  cases s.quarters[q]? with
  | none => rfl
  | some u => rfl

/-- An update of an entry changes no other entry, and none of a context that is not attached. -/
theorem State.modEntry_entry (s : State) (c d : Nat) (f : Entry → Entry) :
    (s.modEntry d f).entry c = s.entry c ∨ (s.modEntry d f).entry c = f (s.entry c) := by
  unfold State.modEntry
  split
  · next e he =>
    rw [State.putEntry_entry]
    split
    · next hcd => subst hcd; simp [State.entry, he]
    · exact .inl rfl
  · exact .inl rfl

/-- A reading of an entry that an update of an entry leaves is left in every entry. -/
theorem State.modEntry_leaves {α : Type} (s : State) (g : Entry → α) (c d : Nat) {f : Entry → Entry} (hf : ∀ e, g (f e) = g e) :
    g ((s.modEntry d f).entry c) = g (s.entry c) := by
  obtain he | he := s.modEntry_entry c d f
  · rw [he]
  · rw [he, hf]

/-- A context with an operation is attached, so that an update of its first operation takes place. -/
theorem State.modHeadOp_headOp {s : State} {c : Nat} {op : Op} (f : Op → Op) (h : (s.entry c).headOp = some op) :
    ((s.modHeadOp c f).entry c).headOp = some (f op) := by
  unfold State.modHeadOp State.modEntry
  split
  · next e he =>
    have hs : s.entry c = e := by simp [State.entry, he]
    rw [hs] at h
    rw [State.putEntry_entry, if_pos rfl]
    cases hq : e.queue with
    | nil => simp [Entry.headOp, hq] at h
    | cons x xs =>
      simp only [Entry.headOp, hq, List.head?_cons, Option.some.injEq] at h ⊢
      rw [h]
  · next he => simp [State.entry, he, Entry.headOp] at h

/-- R268: the routine of a context that leaves its tracks is on its quarter no more. -/
theorem State.dropJob_jobs {s : State} {q c : Nat} : ∀ k ∈ ((s.dropJob q c).quarter q).jobs, k.ctx ≠ c := by
  intro k hk
  by_cases hq : q < s.quarters.length
  · rw [State.dropJob, State.modQuarter_quarter s q _ hq, if_pos rfl] at hk
    simpa using (List.mem_filter.mp hk).2
  · have hnone : ((s.dropJob q c).quarter q).jobs = [] := by
      have hlen : (s.dropJob q c).quarters.length ≤ q := Nat.le_trans (Nat.le_of_eq (modAt_length _ _ _)) (Nat.not_lt.mp hq)
      rw [State.quarter, List.getD_eq_getElem?_getD, List.getElem?_eq_none hlen]
      rfl
    simp [hnone] at hk

/-! ### What an effect leaves of the operation of a context that commits -/

/-- How far an operation has come: its packet, next ordinal, segments, count, and whether its segments are done. -/
def Op.tally (op : Op) : List Byte × Nat × Nat × Nat × Bool := (op.pkt, op.ord, op.segs, op.count, op.done)

/-- What a commit point asks of an entry: the rebind that waits, and how far its first operation has come. -/
def Entry.standing (e : Entry) : Option Nat × Option (List Byte × Nat × Nat × Nat × Bool) := (e.rebindTo, e.headOp.map Op.tally)

/-- What every other effect at a commit point of context `c` leaves: the local HBM, time, the routines of every quarter, and the
standing of the context. -/
structure KeepsRun (c : Nat) (s t : State) : Prop where
  hbm : t.hbm = s.hbm
  now : t.now = s.now
  jobs : t.quarters.map (·.jobs) = s.quarters.map (·.jobs)
  standing : (t.entry c).standing = (s.entry c).standing

namespace KeepsRun

variable {c : Nat} {s0 s t : State}

theorem refl (c : Nat) (s : State) : KeepsRun c s s := ⟨rfl, rfl, rfl, rfl⟩

theorem trans {u : State} (h : KeepsRun c s t) (k : KeepsRun c t u) : KeepsRun c s u :=
  ⟨k.hbm.trans h.hbm, k.now.trans h.now, k.jobs.trans h.jobs, k.standing.trans h.standing⟩

theorem quarter_jobs (h : KeepsRun c s t) (q : Nat) : (t.quarter q).jobs = (s.quarter q).jobs := by
  rw [State.quarter_jobs, State.quarter_jobs, h.jobs]

theorem rebindTo (h : KeepsRun c s t) : (t.entry c).rebindTo = (s.entry c).rebindTo := congrArg Prod.fst h.standing

theorem tally (h : KeepsRun c s t) : (t.entry c).headOp.map Op.tally = (s.entry c).headOp.map Op.tally := congrArg Prod.snd h.standing

/-- An update of other parts of the state. -/
theorem update (h : KeepsRun c s0 s) (hhbm : t.hbm = s.hbm) (hnow : t.now = s.now)
    (hjobs : t.quarters.map (·.jobs) = s.quarters.map (·.jobs)) (hentries : t.entries = s.entries) : KeepsRun c s0 t :=
  h.trans ⟨hhbm, hnow, hjobs, by rw [State.entry, State.entry, hentries]⟩

theorem ite {p : Prop} {_ : Decidable p} (h : KeepsRun c s0 s) (k : KeepsRun c s0 t) : KeepsRun c s0 (if p then s else t) := by
  split
  · exact h
  · exact k

theorem iteFst {α : Type} {p : Prop} {_ : Decidable p} {x y : State × α} (h : KeepsRun c s0 x.1) (k : KeepsRun c s0 y.1) :
    KeepsRun c s0 (if p then x else y).1 := by
  split
  · exact h
  · exact k

theorem foldl {α : Type} {f : State → α → State} (hf : ∀ s a, KeepsRun c s0 s → KeepsRun c s0 (f s a)) :
    ∀ (l : List α) {s : State}, KeepsRun c s0 s → KeepsRun c s0 (l.foldl f s)
  | [], _, h => h
  | a :: l, s, h => foldl hf l (hf s a h)

theorem modEntry (h : KeepsRun c s0 s) (d : Nat) {f : Entry → Entry} (hf : ∀ e, (f e).standing = e.standing := by intro _; rfl) :
    KeepsRun c s0 (s.modEntry d f) :=
  h.trans ⟨s.modEntry_hbm d f, s.modEntry_now d f, by rw [State.modEntry_quarters], s.modEntry_leaves Entry.standing c d hf⟩

theorem modHeadOp (h : KeepsRun c s0 s) (d : Nat) {f : Op → Op} (hf : ∀ op, (f op).tally = op.tally := by intro _; rfl) :
    KeepsRun c s0 (s.modHeadOp d f) := by
  refine h.modEntry d (fun e => ?_)
  cases hq : e.queue with
  | nil => rfl
  | cons op rest => simp [Entry.standing, Entry.headOp, hq, hf]

theorem modQuarter (h : KeepsRun c s0 s) (q : Nat) {f : Quarter → Quarter} (hf : ∀ u, (f u).jobs = u.jobs := by intro _; rfl) :
    KeepsRun c s0 (s.modQuarter q f) :=
  h.update rfl rfl (modAt_jobs hf _ _) rfl

theorem modSlice (h : KeepsRun c s0 s) (i : Nat) (f : Slice → Slice) : KeepsRun c s0 (s.modSlice i f) := h.update rfl rfl rfl rfl

theorem modFabric (h : KeepsRun c s0 s) (f : Fabric → Fabric) : KeepsRun c s0 (s.modFabric f) := h.update rfl rfl rfl rfl

/-! ### Records and events -/

theorem recordLost (h : KeepsRun c s0 s) (n : Nat) : KeepsRun c s0 (s.recordLost n) := h.update rfl rfl rfl rfl

theorem post (h : KeepsRun c s0 s) (x : Txn) : KeepsRun c s0 (s.post x) := h.modFabric _

theorem writeRecord (h : KeepsRun c s0 s) (master : Nat) (owner : TxnOwner) (spa : Nat) (bytes : List Byte) (after : List Nat) :
    KeepsRun c s0 (s.writeRecord master owner spa bytes after) := (h.post _).ite (h.recordLost 1)

theorem contextEvent (h : KeepsRun c s0 s) (d code : Nat) (payload : List Byte) : KeepsRun c s0 (s.contextEvent d code payload) :=
  ((h.writeRecord _ _ _ _ _).modEntry d).ite (h.recordLost 1)

/-! ### Charges, claims and binds -/

theorem chargeDl (h : KeepsRun c s0 s) (d period n : Nat) (frame : Option Int) : KeepsRun c s0 (s.chargeDl d period n frame) :=
  h.modEntry d (fun e => by split <;> rfl)

theorem chargeSegment (h : KeepsRun c s0 s) (d : Nat) (j : Job) (n : Nat) : KeepsRun c s0 (s.chargeSegment d j n) := by
  unfold State.chargeSegment
  dsimp only
  split
  · exact (h.chargeDl _ _ _ _).ite h
  · exact (h.chargeDl _ _ _ _).ite h
  · exact h

theorem noteOverrun (h : KeepsRun c s0 s) (d p : Nat) : KeepsRun c s0 (s.noteOverrun d p) := by
  unfold State.noteOverrun
  dsimp only
  refine KeepsRun.ite ?_ h
  split
  · exact (h.modEntry d).contextEvent _ _ _
  · exact h

theorem settle (h : KeepsRun c s0 s) (d : Nat) : KeepsRun c s0 (s.settle d) := h.modEntry d (fun e => by split <;> rfl)

theorem queueInternal (h : KeepsRun c s0 s) (i : Internal) : KeepsRun c s0 (s.queueInternal i) := h.ite (h.update rfl rfl rfl rfl)

theorem bindPlane (h : KeepsRun c s0 s) (q d pl : Nat) : KeepsRun c s0 (s.bindPlane q d pl) := by
  unfold State.bindPlane
  refine h.ite ?_
  dsimp only
  split
  · exact h
  · split
    · exact h.ite (h.queueInternal _)
    · refine h.ite ?_
      split
      · exact (h.modQuarter q).queueInternal _
      · exact h.modQuarter q

theorem retryBinds (h : KeepsRun c s0 s) (q : Nat) : KeepsRun c s0 (s.retryBinds q) := foldl (fun _ _ k => k.bindPlane q _ _) _ h

theorem endLatency (h : KeepsRun c s0 s) (q least : Nat) : KeepsRun c s0 (s.endLatency q least) := by
  unfold State.endLatency
  split
  · exact h
  · exact foldl (fun _ _ k => (k.chargeDl _ _ _ _).noteOverrun _ _) _ (h.modQuarter q)

theorem noteLatency (h : KeepsRun c s0 s) (q least : Nat) : KeepsRun c s0 (s.noteLatency q least) := (h.endLatency q least).ite h

theorem endClaims (h : KeepsRun c s0 s) : KeepsRun c s0 s.endClaims :=
  h.update rfl rfl (zipIdx_map_jobs (fun p => by split <;> rfl) _) rfl

theorem beginRelock (h : KeepsRun c s0 s) : KeepsRun c s0 s.beginRelock := by
  unfold State.beginRelock
  refine h.ite ?_
  exact KeepsRun.ite (h.update rfl rfl rfl rfl) (h.update rfl rfl rfl rfl)

theorem rinseProgress (h : KeepsRun c s0 s) : KeepsRun c s0 s.rinseProgress := by
  have hready : KeepsRun c s0 { s with switch := { s.switch with step := .ready } } := h.update rfl rfl rfl rfl
  exact hready.beginRelock.ite h

theorem afterCommit (h : KeepsRun c s0 s) (q : Nat) : KeepsRun c s0 (s.afterCommit q) :=
  ((h.retryBinds q).noteLatency q 0).endClaims.rinseProgress

/-! ### Tiles and planes -/

theorem dropTilePegs (h : KeepsRun c s0 s) (k n : Nat) : KeepsRun c s0 (s.dropTilePegs k n) :=
  h.update rfl rfl (map_jobs (fun _ => by rfl) _) rfl

theorem commitTile (h : KeepsRun c s0 s) (d : Nat) (x : StagedTile) : KeepsRun c s0 (s.commitTile d x) := by
  unfold State.commitTile
  dsimp only
  refine KeepsRun.dropTilePegs ?_ _ _
  split
  · exact h.modSlice _ _
  · split
    · exact h.modSlice _ _
    · exact h

theorem postHeads (h : KeepsRun c s0 s) : KeepsRun c s0 s.postHeads := h.update rfl rfl (map_jobs (fun _ => by rfl) _) rfl

theorem dropRequests (h : KeepsRun c s0 s) (p : LaneReq → Bool) : KeepsRun c s0 (s.dropRequests p) :=
  KeepsRun.postHeads (h.update rfl rfl (map_jobs (fun _ => by rfl) _) rfl)

theorem dropMoves (h : KeepsRun c s0 s) (p : MoveJob → Bool) : KeepsRun c s0 (s.dropMoves p) := by
  refine KeepsRun.dropRequests ?_ _
  exact h.update rfl rfl (map_jobs (fun _ => by rfl) _) rfl

theorem dropInternal (h : KeepsRun c s0 s) (p : Internal → Bool) : KeepsRun c s0 (s.dropInternal p) := h.update rfl rfl rfl rfl

theorem resetPlane (h : KeepsRun c s0 s) (d pl : Nat) (isOpen : Bool) : KeepsRun c s0 (s.resetPlane d pl isOpen) := by
  refine KeepsRun.modEntry (KeepsRun.dropInternal ?_ _) d
  exact (h.dropMoves _).update rfl rfl (map_jobs (fun _ => by rfl) _) rfl

theorem setLive (h : KeepsRun c s0 s) (d : Nat) (j : Job) (op : Op) : KeepsRun c s0 (s.setLive d j op) := h.modEntry d

theorem releaseCommitted (h : KeepsRun c s0 s) (d upTo : Nat) : KeepsRun c s0 (s.releaseCommitted d upTo) := h.update rfl rfl rfl rfl

theorem notePlaneWriter (h : KeepsRun c s0 s) (q d : Nat) : KeepsRun c s0 (s.notePlaneWriter q d) := h.modQuarter q

/-! ### The parts of a commit by an operation -/

theorem dropGot (h : KeepsRun c s0 s) (d : Nat) : KeepsRun c s0 (s.dropGot d) := h.modFabric _

/-- An event told once for an operation, which notes that it was told. -/
theorem eventOnce (h : KeepsRun c s0 s) (b : Bool) (d code : Nat) (payload : List Byte) {f : Op → Op}
    (hf : ∀ op, (f op).tally = op.tally := by intro _; rfl) :
    KeepsRun c s0 (if b then (s.contextEvent d code payload).modHeadOp d f else s) :=
  ((h.contextEvent d code payload).modHeadOp d hf).ite h

theorem rangeEvents (h : KeepsRun c s0 s) (d : Nat) (j : Job) (op : Op) : KeepsRun c s0 (s.rangeEvents d j op) :=
  (h.eventOnce _ d _ _).eventOnce _ d _ _

theorem poisonEvent (h : KeepsRun c s0 s) (d : Nat) (j : Job) (op : Op) : KeepsRun c s0 (s.poisonEvent d j op) :=
  h.eventOnce _ d _ _

theorem postSpill (h : KeepsRun c s0 s) (d opc spa : Nat) (bs : List Byte) : KeepsRun c s0 (s.postSpill d opc spa bs) :=
  foldl (fun _ _ k => k.post _) _ h

theorem commitSpill (h : KeepsRun c s0 s) (d dispatch : Nat) (j : Job) : KeepsRun c s0 (s.commitSpill d dispatch j).1 := by
  have hspilled := h.modEntry d (f := fun e => { e with spillAt := j.base + j.len }) (fun _ => rfl)
  unfold State.commitSpill
  dsimp only
  split
  · exact ((hspilled.postSpill d _ _ _).writeRecord _ _ _ _ _).modEntry d
  · exact hspilled

end KeepsRun

/-! ### SEGMENT_COMMIT -/

/-- R324, R326: an operation after a segment of `len` ordinals that adds `n` to its count, and whether its segments are done. -/
def Op.advance (op : Op) (len n : Nat) (done : Bool) : Op :=
  { op with ord := op.ord + len, segs := op.segs + 1, count := op.count + n, done := done }

theorem Op.advance_tally {x op : Op} (h : x.tally = op.tally) (len n : Nat) (done : Bool) :
    (x.advance len n done).tally = (op.advance len n done).tally := by
  simp only [Op.tally, Prod.mk.injEq] at h
  obtain ⟨hpkt, hord, hsegs, hcount, -⟩ := h
  simp only [Op.tally, Op.advance, hpkt, hord, hsegs, hcount]

/-- R324: the commit of an operation's segment is the advance of the operation, after effects that leave its standing; SPL apart it is
done when its ordinals are. -/
theorem State.commitOp_eq_advance (s : State) (c : Nat) (j : Job) (op : Op) : ∃ (u : State) (done : Bool), KeepsRun c s u ∧
    (opcOf op.pkt ≠ 0x03 → done = decide (opOrdinals op.pkt ≤ op.ord + j.len)) ∧
    s.commitOp c j op = (u.modHeadOp c (fun x => x.advance j.len (segmentCount j (opcOf op.pkt)) done)).modEntry c
      (fun e => { e with committedSince := true }) := by
  have htiles : KeepsRun c s (j.staged.foldl (fun s t => s.commitTile c t) s) :=
    KeepsRun.foldl (fun _ _ k => k.commitTile c _) _ (.refl c s)
  refine ⟨_, _, KeepsRun.poisonEvent (KeepsRun.rangeEvents ?_ c j op) c j op, ?_, rfl⟩
  · refine KeepsRun.iteFst (KeepsRun.commitSpill ?got c 0x03 j) ?got
    refine KeepsRun.ite (KeepsRun.releaseCommitted ?planes c _) (KeepsRun.dropGot (KeepsRun.releaseCommitted ?planes c _) c)
    exact KeepsRun.ite (htiles.resetPlane c _ _) (KeepsRun.ite (htiles.setLive c j op) htiles)
  · intro ho
    simp [ho]

theorem State.modHeadOp_rebindTo (s : State) (c d : Nat) (f : Op → Op) :
    ((s.modHeadOp d f).entry c).rebindTo = (s.entry c).rebindTo :=
  s.modEntry_leaves Entry.rebindTo c d (fun e => by split <;> rfl)

/-- What the commit of a segment of operation `op` by its routine `j` on quarter `q` comes to: the local HBM, time and a rebind that
waits are as before, the routine is gone, and the operation has advanced by the segment. -/
structure State.Advanced (s t : State) (q : Nat) (j : Job) (op : Op) : Prop where
  hbm : t.hbm = s.hbm
  now : t.now = s.now
  rebindTo : (t.entry j.ctx).rebindTo = (s.entry j.ctx).rebindTo
  gone : ∀ k ∈ (t.quarter q).jobs, k.ctx ≠ j.ctx
  head : ∃ done : Bool, (opcOf op.pkt ≠ 0x03 → done = decide (opOrdinals op.pkt ≤ op.ord + j.len)) ∧
    (t.entry j.ctx).headOp.map Op.tally = some (op.advance j.len (segmentCount j (opcOf op.pkt)) done).tally

theorem State.Advanced.after {s t u : State} {q : Nat} {j : Job} {op : Op} (h : s.Advanced t q j op) (k : KeepsRun j.ctx t u) :
    s.Advanced u q j op where
  hbm := k.hbm.trans h.hbm
  now := k.now.trans h.now
  rebindTo := k.rebindTo.trans h.rebindTo
  gone := by rw [k.quarter_jobs]; exact h.gone
  head := by rw [k.tally]; exact h.head

/-- It asks of the operation before the commit how far it has come, and nothing else. -/
theorem State.Advanced.of_tally {s t : State} {q : Nat} {j : Job} {x op : Op} (hx : x.tally = op.tally) (h : s.Advanced t q j x) :
    s.Advanced t q j op := by
  have hpkt : x.pkt = op.pkt := congrArg Prod.fst hx
  have hord : x.ord = op.ord := congrArg (fun y => y.2.1) hx
  obtain ⟨done, hdone, hhead⟩ := h.head
  rw [hpkt, hord] at hdone
  rw [Op.advance_tally hx, hpkt] at hhead
  exact { h with head := ⟨done, hdone, hhead⟩ }

theorem State.Advanced.before {r s t : State} {q : Nat} {j : Job} {op : Op} (k : KeepsRun j.ctx r s) (h : s.Advanced t q j op) :
    r.Advanced t q j op :=
  { h with hbm := h.hbm.trans k.hbm, now := h.now.trans k.now, rebindTo := h.rebindTo.trans k.rebindTo }

/-- R324: the commit of an operation's segment. -/
theorem State.commitOp_advanced {s : State} {q : Nat} {j : Job} {op : Op} (hop : (s.entry j.ctx).headOp.map Op.tally = some op.tally) :
    s.Advanced ((s.commitOp j.ctx j op).dropJob q j.ctx) q j op := by
  obtain ⟨u, done, hu, hdone, heq⟩ := s.commitOp_eq_advance j.ctx j op
  obtain ⟨x, hx, hxop⟩ := Option.map_eq_some_iff.mp (hu.tally.trans hop)
  have hkeep := (KeepsRun.refl j.ctx (u.modHeadOp j.ctx (fun x => x.advance j.len (segmentCount j (opcOf op.pkt)) done))).modEntry
    j.ctx (f := fun e => { e with committedSince := true })
  rw [heq]
  refine ⟨?_, ?_, ?_, State.dropJob_jobs, done, hdone, ?_⟩
  · exact hkeep.hbm.trans ((State.modEntry_hbm _ _ _).trans hu.hbm)
  · exact hkeep.now.trans ((State.modEntry_now _ _ _).trans hu.now)
  · exact hkeep.rebindTo.trans ((u.modHeadOp_rebindTo _ _ _).trans hu.rebindTo)
  · refine hkeep.tally.trans ?_
    rw [State.modHeadOp_headOp _ hx, Option.map_some, Op.advance_tally hxop]

/-- The commit of a routine of an operation is that of the operation. -/
theorem State.commitJob_advanced {s : State} {q : Nat} {j : Job} {op : Op} (hkind : j.kind = .op)
    (hop : (s.entry j.ctx).headOp = some op) : s.Advanced (s.commitJob q j.ctx j) q j op := by
  have hnote : KeepsRun j.ctx s (if j.saved then s.notePlaneWriter q j.ctx else s) :=
    ((KeepsRun.refl j.ctx s).notePlaneWriter q j.ctx).ite (.refl j.ctx s)
  simp only [State.commitJob, hkind, hop]
  exact .before hnote (State.commitOp_advanced (by rw [hnote.tally, hop, Option.map_some]))

theorem State.takeRebind_of_none {s : State} {c : Nat} (h : (s.entry c).rebindTo = none) : s.takeRebind c = s := by
  simp only [State.takeRebind, h]

theorem State.yielded_of_not_yielding (s : State) (c : Nat) {j : Job} (h : j.yielding = false) : s.yielded c j = s := by
  simp [State.yielded, h]

/-- R22, R324, R326: the commit point of a routine of an operation that neither yields nor waits to be bound elsewhere. -/
theorem State.commitSegment_advanced {s : State} {q held : Nat} {j : Job} {op : Op} (hkind : j.kind = .op) (hyield : j.yielding = false)
    (hrebind : (s.entry j.ctx).rebindTo = none) (hop : (s.entry j.ctx).headOp = some op) :
    (s.advanceTo (j.takenAt + s.cclkNs held)).Advanced (s.commitSegment q held j) q j op := by
  have hcharge := (KeepsRun.refl j.ctx (s.advanceTo (j.takenAt + s.cclkNs held))).chargeSegment j.ctx j (j.heldBefore + held)
  have hopAt : ((s.advanceTo (j.takenAt + s.cclkNs held)).entry j.ctx).headOp = some op := hop
  obtain ⟨x, hx, hxop⟩ := Option.map_eq_some_iff.mp (hcharge.tally.trans (congrArg (Option.map Op.tally) hopAt))
  have hjob := (State.Advanced.before hcharge (State.commitJob_advanced (q := q) hkind hx)).of_tally hxop
  have hsettled := fun n => hjob.after ((((KeepsRun.refl j.ctx _).noteOverrun j.ctx j.period).modEntry j.ctx
    (f := fun e => { e with lastTrack := n })).settle j.ctx)
  unfold State.commitSegment
  dsimp only
  rw [State.yielded_of_not_yielding _ _ hyield, if_neg (by simp [hyield]), State.takeRebind_of_none ((hsettled _).rebindTo.trans hrebind)]
  exact (hsettled _).after ((KeepsRun.refl j.ctx _).afterCommit q)

theorem exec_segmentCommit_of_job {s : State} {q tr held : Nat} {j : Job} (hq : q < 4) (htr : tr < 4)
    (hfind : (s.quarter q).jobs.find? (fun j => j.tracks.contains tr && j.stage == .staged) = some j) :
    exec (.segmentCommit q tr held) s = .next (s.commitSegment q held j) := by
  change execSegmentCommit q tr held s = _
  rw [execSegmentCommit, if_neg (Nat.not_le.mpr hq), if_neg (Nat.not_le.mpr htr), hfind]

theorem exec_segmentCommit_of_none {s : State} {q tr held : Nat} (hq : q < 4) (htr : tr < 4)
    (hjobs : (s.quarter q).jobs.find? (fun j => j.tracks.contains tr && j.stage == .staged) = none)
    (hmoves : (s.quarter q).moves.find? (fun m => m.tracks.contains tr && m.staged) = none) :
    exec (.segmentCommit q tr held) s = .next s := by
  change execSegmentCommit q tr held s = _
  rw [execSegmentCommit, if_neg (Nat.not_le.mpr hq), if_neg (Nat.not_le.mpr htr), hjobs, hmoves]

/-- Settles O41: the commit point advances the operation, and everything else at its edge leaves that standing. -/
theorem commitAdvancesItsOperation : Obligations.CommitAdvancesItsOperation := by
  unfold Obligations.CommitAdvancesItsOperation
  intro s q tr held j op
  refine ⟨fun hq htr hfind hkind hyield hrebind hop => ?_, exec_segmentCommit_of_none⟩
  have h := State.commitSegment_advanced (q := q) (held := held) hkind hyield hrebind hop
  obtain ⟨done, hdone, hhead⟩ := h.head
  obtain ⟨op', hop', htally⟩ := Option.map_eq_some_iff.mp hhead
  refine ⟨_, exec_segmentCommit_of_job hq htr hfind, congrArg Hbm.mem h.hbm, h.now, h.gone, fun hspl => ⟨op', hop', ?_⟩⟩
  simpa only [Op.tally, Op.advance, Prod.mk.injEq, hdone hspl] using htally

end Sys2Proof.Machine
end

section
/-! SUPPORT. Proofs about a routine that runs: its command comes down to the body of its operation, the routine reads as its updates leave
it, lines that are staged are not taken again, and staging tiles notes each with its line. -/
namespace Sys2Proof.Machine

/-! ### A reading of a part after an update of one part -/

/-- A reading on which an update acts as `h` is changed by `h` at the place of the update and nowhere else. -/
theorem getD_modAt_reading {α β : Type} (g : α → β) {f : α → α} {h : β → β} (hf : ∀ x, g (f x) = h (g x)) {d : α} (hd : h (g d) = g d) :
    ∀ (l : List α) (i j : Nat), g ((modAt l i f).getD j d) = if j = i then h (g (l.getD j d)) else g (l.getD j d)
  | [], i, j => by simp [modAt, hd]
  | x :: xs, 0, 0 => by simp [modAt, hf]
  | x :: xs, 0, j + 1 => by simp [modAt]
  | x :: xs, i + 1, 0 => by simp [modAt]
  | x :: xs, i + 1, j + 1 => by
    simp only [modAt, List.getD_cons_succ, Nat.add_right_cancel_iff]
    exact getD_modAt_reading g hf hd xs i j

/-- A reading of a quarter that an update of a quarter leaves is left in every quarter. -/
theorem State.modQuarter_leaves {α : Type} (s : State) (g : Quarter → α) (q p : Nat) {f : Quarter → Quarter} (hf : ∀ u, g (f u) = g u) :
    g ((s.modQuarter q f).quarter p) = g (s.quarter p) :=
  (getD_modAt_reading g (h := id) hf rfl s.quarters q p).trans (ite_self _)

/-! ### The routine of a context -/

/-- The routine of a context is found among the routines of the quarters, so it is what these are. -/
theorem State.jobOf_congr {s t : State} (c : Nat) (h : ∀ p, (t.quarter p).jobs = (s.quarter p).jobs) : t.jobOf c = s.jobOf c := by
  simp only [State.jobOf, h]

theorem State.modQuarter_jobOf (s : State) (q c : Nat) {f : Quarter → Quarter} (hf : ∀ u, (f u).jobs = u.jobs) :
    (s.modQuarter q f).jobOf c = s.jobOf c :=
  State.jobOf_congr c (fun p => s.modQuarter_leaves (·.jobs) q p hf)

theorem State.modJob_jobs (s : State) (q c p : Nat) (f : Job → Job) : ((s.modJob q c f).quarter p).jobs =
    if p = q then (s.quarter p).jobs.map (fun j => if j.ctx = c then f j else j) else (s.quarter p).jobs :=
  getD_modAt_reading (·.jobs) (h := fun l => l.map (fun j => if j.ctx = c then f j else j)) (fun _ => rfl) rfl s.quarters q p

/-- An update of the routine of a context is found in the first routine of the context, in which its place is. -/
theorem State.modJob_find (s : State) (q c p : Nat) {f : Job → Job} (hf : ∀ j, (f j).ctx = j.ctx) :
    ((s.modJob q c f).quarter p).jobs.find? (fun j => j.ctx == c) =
      ((s.quarter p).jobs.find? (fun j => j.ctx == c)).map (fun j => if p = q then f j else j) := by
  rw [State.modJob_jobs]
  split
  · have hp : (fun j : Job => j.ctx == c) ∘ (fun j => if j.ctx = c then f j else j) = (fun j => j.ctx == c) := by
      funext j
      by_cases hj : j.ctx = c
      · simp [hj, hf]
      · simp [hj]
    rw [List.find?_map, hp]
    refine Option.map_congr (fun j hj => if_pos ?_)
    simpa using List.find?_some hj
  · exact Option.map_id'.symm

theorem State.modJob_jobOf (s : State) (q c : Nat) {f : Job → Job} (hf : ∀ j, (f j).ctx = j.ctx) :
    (s.modJob q c f).jobOf c = (s.jobOf c).map (fun x => (x.1, if x.1 = q then f x.2 else x.2)) := by
  unfold State.jobOf
  rw [List.map_findSome?]
  congr 1
  funext p
  simp only [State.modJob_find s q c p hf, Function.comp_apply, Option.map_map]
  rfl

theorem State.modJob_jobOf_of {s : State} {q c : Nat} {j : Job} {f : Job → Job} (h : s.jobOf c = some (q, j))
    (hf : ∀ k, (f k).ctx = k.ctx := by intro _; rfl) : (s.modJob q c f).jobOf c = some (q, f j) := by
  simp [State.modJob_jobOf s q c hf, h]

theorem State.job_of_jobOf {s : State} {c q : Nat} {j : Job} (h : s.jobOf c = some (q, j)) : s.job c = j := by
  simp [State.job, h]

/-- A quarter on which a routine runs is there. -/
theorem State.quarter_lt_of_jobOf {s : State} {c q : Nat} {j : Job} (h : s.jobOf c = some (q, j)) : q < s.quarters.length := by
  obtain ⟨p, -, hp⟩ := List.exists_of_findSome?_eq_some h
  obtain ⟨k, hk, hkj⟩ := Option.map_eq_some_iff.mp hp
  cases hkj
  refine Nat.lt_of_not_le (fun hq => ?_)
  have hnone : s.quarter q = {} := by
    rw [State.quarter, List.getD_eq_getElem?_getD, List.getElem?_eq_none hq]
    rfl
  simp [hnone] at hk

/-! ### The run of an operation -/

@[simp] theorem Prog.go_andThen (s : State) (f : State → Prog) : (Prog.go s).andThen f = f s := rfl

@[simp] theorem Prog.until_true (s : State) : Prog.until true s = .go s := rfl

theorem Prog.until_of {b : Bool} (h : b = true) (s : State) : Prog.until b s = .go s := if_pos h

/-- An operation command that meets no error is the run of its routine. -/
theorem opCommand_nil {c : Nat} (hc : c < 512) (s : State) : opCommand c [] s = .next s := if_neg (Nat.not_le.mpr hc)

/-- R202, R209: the routine of an operation that runs, and meets no error, goes on with the body of its operation. -/
theorem State.Runs.runOp {s : State} {c q : Nat} {j : Job} {op : Op} (h : s.Runs c q j op) {opc : Nat} (hopc : opcOf op.pkt = opc)
    (body : State → Nat → Job → Op → Prog) : s.runOp opc c [] body = (body s q j op).state := by
  obtain ⟨-, hhead, hleft, hjob, hkind, hgather, hsalt⟩ := h
  simp [State.runOp, State.runOpWith, State.applyAll, hhead, hleft, hjob, hkind, hgather, hsalt, hopc]

theorem State.Runs.job_eq {s : State} {c q : Nat} {j : Job} {op : Op} (h : s.Runs c q j op) : s.job c = j := State.job_of_jobOf h.job

/-- The transfers of a segment that have been posted are not posted again. -/
theorem State.postOnce_of_fetched {s : State} {c : Nat} (h : (s.job c).fetched = true) (q : Nat) (post : State → State) :
    s.postOnce q c post = s := if_pos h

/-- Without an error of a lane a tile is received as it is read (R91). -/
@[simp] theorem State.readFor_nil (s : State) (q c n : Nat) : s.readFor q c [] n = s.readTile c n := by
  simp [State.readFor, laneBad]

/-! ### Staging -/

theorem State.takeLine_of_lineOf {s : State} {i : Nat} {o : LineOwner} (h : ((s.slice i).lineOf o).isSome = true) (c port lane cls : Nat) :
    s.takeLine c i port lane cls o = s := by
  simp [State.takeLine, h]

/-- R125, R183: tiles whose staging lines are there wait for none, and no line is taken. -/
theorem State.stageLines_of_staged {s : State} {c : Nat} {tiles : List Nat} (h : ∀ n ∈ tiles, (s.stagedLine c n).isSome = true)
    (q lane kind : Nat) : s.stageLines q c lane kind tiles = .go s := by
  have htake : tiles.foldl (fun t n => t.takeLine c ((s.entry c).sliceOf n) ((s.entry c).portOf n) (8 * q + lane) (t.prioOf kind c)
      (.staged c n)) s = s := by
    induction tiles with
    | nil => rfl
    | cons n rest ih =>
      rw [List.foldl_cons, State.takeLine_of_lineOf (h n List.mem_cons_self)]
      exact ih (fun m hm => h m (List.mem_cons_of_mem n hm))
  unfold State.stageLines
  dsimp only
  rw [htake]
  exact Prog.until_of (List.all_eq_true.mpr h) s

/-- A reading of a slice that an update of a slice leaves is left in every slice. -/
theorem State.modSlice_leaves {α : Type} (s : State) (g : Slice → α) (i k : Nat) {f : Slice → Slice} (hf : ∀ sl, g (f sl) = g sl) :
    g ((s.modSlice i f).slice k) = g (s.slice k) :=
  (getD_modAt_reading g (h := id) hf rfl s.slices i k).trans (ite_self _)

/-- A staged line is written in its slice, and nothing else changes. -/
theorem State.fillStaged_frame (s : State) (c n : Nat) (rows : Tile) :
    s.fillStaged c n rows = { s with slices := (s.fillStaged c n rows).slices } := by
  unfold State.fillStaged
  split <;> rfl

theorem State.fillStaged_lines (s : State) (c n : Nat) (rows : Tile) (k : Nat) :
    ((s.fillStaged c n rows).slice k).lines = (s.slice k).lines := by
  unfold State.fillStaged
  split
  · exact s.modSlice_leaves (·.lines) _ k (fun _ => rfl)
  · rfl

/-- A list of staged lines is written: in the slices, which keep their line maps. -/
theorem State.foldl_fillStaged (c : Nat) : ∀ (values : List (Nat × Tile)) (s : State),
    (values.foldl (fun s x => s.fillStaged c x.1 x.2) s =
      { s with slices := (values.foldl (fun s x => s.fillStaged c x.1 x.2) s).slices }) ∧
    ∀ k, ((values.foldl (fun s x => s.fillStaged c x.1 x.2) s).slice k).lines = (s.slice k).lines
  | [], _ => ⟨rfl, fun _ => rfl⟩
  | x :: rest, s => by
    obtain ⟨hframe, hlines⟩ := State.foldl_fillStaged c rest (s.fillStaged c x.1 x.2)
    refine ⟨?_, fun k => (hlines k).trans (s.fillStaged_lines c x.1 x.2 k)⟩
    rw [List.foldl_cons, hframe, s.fillStaged_frame c x.1 x.2]

/-- R325: what staging comes to.  The lines of the value writes are filled and the routine is at its commit point, with the value writes
noted, each with its line, and after them the others; nothing else changes. -/
structure State.Staged (s t : State) (c q : Nat) (j : Job) (values : List (Nat × Tile)) (others : List StagedTile) : Prop where
  frame : t = { s with quarters := t.quarters, slices := t.slices }
  job : t.jobOf c = some (q, { j with
    stage := .staged, staged := values.map (fun x => { tile := x.1, line := s.stagedLine c x.1, rows := x.2 }) ++ others })

theorem State.stageTiles_staged {s : State} {c q : Nat} {j : Job} (h : s.jobOf c = some (q, j)) (values : List (Nat × Tile))
    (others : List StagedTile) : s.Staged (s.stageTiles q c values others) c q j values others := by
  obtain ⟨hframe, hlines⟩ := State.foldl_fillStaged c values s
  unfold State.stageTiles
  generalize values.foldl (fun s x => s.fillStaged c x.1 x.2) s = t at hframe hlines ⊢
  have hquarters : t.quarters = s.quarters := by rw [hframe]
  have hentries : t.entries = s.entries := by rw [hframe]
  have hline : ∀ n, t.stagedLine c n = s.stagedLine c n := fun n => by
    simp only [State.stagedLine, Slice.lineOf, hlines, State.entry, hentries]
  have hjob : t.jobOf c = some (q, j) := by
    rw [← h]
    exact State.jobOf_congr c (fun p => by simp only [State.quarter, hquarters])
  refine ⟨?_, ?_⟩
  · unfold State.toCommit State.modJob State.modQuarter
    rw [hframe]
  · rw [State.toCommit, State.modJob_jobOf_of hjob]
    simp only [State.stagedTile, hline]

/-- Staged value writes alone are a list of values at the commit point. -/
theorem State.Staged.atCommit {s t : State} {c q : Nat} {j : Job} {values : List (Nat × Tile)} (h : s.Staged t c q j values []) :
    s.AtCommit t c q values := ⟨_, h.job, rfl, List.append_nil _⟩

end Sys2Proof.Machine
end

section
/-! SUPPORT. Proofs of the obligation on the staging of CPT and ADR. -/
namespace Sys2Proof.Machine

/-- R249: the value writes of a CPT segment: each destination with the rows that a read of its source delivers. -/
def State.copiedValues (s : State) (c : Nat) (j : Job) (p : List Byte) : List (Nat × Tile) :=
  (j.ordinals.filter (fun o => !(s.tileFlags c (byteAt p 48 + o)).zsrc)).map (fun o => (byteAt p 49 + o, s.readTile c (byteAt p 48 + o)))

/-- R251: its structural writes. -/
def State.copiedZeros (s : State) (c : Nat) (j : Job) (p : List Byte) : List StagedTile :=
  (j.ordinals.filter (fun o => (s.tileFlags c (byteAt p 48 + o)).zsrc)).map (fun o => { tile := byteAt p 49 + o, structural := true })

/-- R290 to R292: the value writes of an ADR segment: each destination with the tile that its sub-block drains into. -/
def State.drainedValues (s : State) (q c : Nat) (j : Job) (p : List Byte) : List (Nat × Tile) :=
  j.ordinals.map (fun o => (byteAt p 48 + o, drainTile (qmodeAt p 51) ((geomOf p).sub (o / (geomOf p).nt) (o % (geomOf p).nt))
    (s.drainBlock q c (geomOf p).pl j.phys ((geomOf p).sub (o / (geomOf p).nt) (o % (geomOf p).nt)))))

/-- R249 to R252: a CPT whose lines and transfers are there stages its copies. -/
theorem exec_cpt_of_ready {s : State} {c q : Nat} {j : Job} {op : Op} (hrun : s.Runs c q j op) (hopc : opcOf op.pkt = 0x12)
    (hready : s.LinesReady c q ((j.ordinals.filter (fun o => !(s.tileFlags c (byteAt op.pkt 48 + o)).zsrc)).map (byteAt op.pkt 49 + ·))) :
    exec (.cpt c []) s = .next (s.stageTiles q c (s.copiedValues c j op.pkt) (s.copiedZeros c j op.pkt)) := by
  obtain ⟨hlines, hfetched, hlanes⟩ := hready
  change execCpt c [] s = _
  rw [execCpt, opCommand_nil hrun.ctx, hrun.runOp hopc]
  simp only [State.stageLines_of_staged hlines, Prog.go_andThen, State.postOnce_of_fetched hfetched, hlanes, Prog.until_true,
    State.readFor_nil, Prog.state, State.copiedValues, State.copiedZeros]

/-- R290 to R292: an ADR whose lines and transfers are there stages its drained blocks, and charges for their lines (R1034). -/
theorem exec_adr_of_ready {s : State} {c q : Nat} {j : Job} {op : Op} (hrun : s.Runs c q j op) (hopc : opcOf op.pkt = 0x23)
    (hready : s.LinesReady c q (j.ordinals.map (byteAt op.pkt 48 + ·))) :
    exec (.adr c []) s = .next ((s.stageTiles q c (s.drainedValues q c j op.pkt) []).chargeCore (31 * 55 * j.ordinals.length)) := by
  obtain ⟨hlines, hfetched, hlanes⟩ := hready
  change execAdr c [] s = _
  rw [execAdr, opCommand_nil hrun.ctx, hrun.runOp hopc]
  simp only [State.stageLines_of_staged hlines, Prog.go_andThen, State.postOnce_of_fetched hfetched, hlanes, Prog.until_true, Prog.state,
    State.drainedValues]

/-- Settles O38: both commands come to the staging of their tiles, an ADR with its charge of energy beside it. -/
theorem copiesAndDrainsStageTheirTiles : Obligations.CopiesAndDrainsStageTheirTiles := by
  unfold Obligations.CopiesAndDrainsStageTheirTiles
  intro s c q j op hrun
  refine ⟨fun hopc hready => ?_, fun hopc hready => ?_⟩
  · have hstaged := State.stageTiles_staged hrun.job (s.copiedValues c j op.pkt) (s.copiedZeros c j op.pkt)
    refine ⟨_, exec_cpt_of_ready hrun hopc hready, hstaged.frame, _, hstaged.job, rfl, ?_⟩
    simp only [State.copiedValues, State.copiedZeros, List.map_map, Function.comp_def]
  · have hstaged := State.stageTiles_staged hrun.job (s.drainedValues q c j op.pkt) []
    refine ⟨_, exec_adr_of_ready hrun hopc hready, ?_, hstaged.atCommit⟩
    generalize s.stageTiles q c (s.drainedValues q c j op.pkt) [] = t at hstaged
    rw [hstaged.frame]
    rfl

end Sys2Proof.Machine
end

section
/-! SUPPORT. Proofs about the steps of a segment: what an update of a plane leaves, and what the steps of MMA and MMS do from a state whose
steps are chosen. -/
namespace Sys2Proof.Machine

/-! ### Updates at one place -/

theorem modAt_id {α : Type} : ∀ (l : List α) (i : Nat), modAt l i (fun x => x) = l
  | [], _ => by simp [modAt]
  | _ :: _, 0 => by simp [modAt]
  | x :: xs, i + 1 => by simp [modAt, modAt_id xs i]

theorem modAt_of_length_le {α : Type} (f : α → α) : ∀ {l : List α} {i : Nat}, l.length ≤ i → modAt l i f = l
  | [], _, _ => by simp [modAt]
  | _ :: _, 0, h => absurd h (Nat.not_le_of_gt (Nat.zero_lt_succ _))
  | x :: xs, i + 1, h => by rw [modAt, modAt_of_length_le f (Nat.le_of_succ_le_succ h)]

theorem modAt_modAt {α : Type} (f g : α → α) : ∀ (l : List α) (i : Nat), modAt (modAt l i f) i g = modAt l i (fun x => g (f x))
  | [], _ => by simp [modAt]
  | _ :: _, 0 => by simp [modAt]
  | x :: xs, i + 1 => by simp [modAt, modAt_modAt f g xs i]

theorem State.modPlane_id (s : State) (q p : Nat) : s.modPlane q p (fun x => x) = s := by
  simp only [State.modPlane, State.modQuarter, modAt_id]

theorem State.modPlane_modPlane (s : State) (q p : Nat) (f g : PhysPlane → PhysPlane) :
    (s.modPlane q p f).modPlane q p g = s.modPlane q p (fun x => g (f x)) := by
  simp only [State.modPlane, State.modQuarter, modAt_modAt]

/-- Planes of a quarter that is there, changed at one place. -/
theorem State.modPlane_plane {s : State} {q p : Nat} (hq : q < s.quarters.length) (hp : p < (s.quarter q).planes.length)
    (f : PhysPlane → PhysPlane) : ((s.modPlane q p f).quarter q).plane p = f ((s.quarter q).plane p) := by
  rw [State.modPlane, State.modQuarter_quarter s q _ hq, if_pos rfl]
  exact (getD_modAt _ _ _ _ _ hp).trans (if_pos rfl)

theorem State.modPlane_jobOf (s : State) (q p c : Nat) (f : PhysPlane → PhysPlane) : (s.modPlane q p f).jobOf c = s.jobOf c :=
  s.modQuarter_jobOf q c (fun _ => rfl)

theorem State.modJob_planes (s : State) (q c p : Nat) (f : Job → Job) : ((s.modJob q c f).quarter p).planes = (s.quarter p).planes :=
  s.modQuarter_leaves (·.planes) q p (fun _ => rfl)

theorem State.modJob_plane (s : State) (q c k p : Nat) (f : Job → Job) :
    ((s.modJob q c f).quarter k).plane p = (s.quarter k).plane p :=
  congrArg (·.getD p {}) (s.modJob_planes q c k f)

/-! ### Lane requests -/

theorem postHead_any (cls : LaneReq → Nat) (p : LaneReq → Bool) (hp : ∀ r n, p { r with cls := n } = p r) (l : List LaneReq) :
    (postHead cls l).any p = l.any p := by
  cases l with
  | nil => rfl
  | cons r rest => simp [postHead, hp]

/-- A quarter after the first request of each of its read lanes is posted (R158, R182). -/
def Quarter.postHeads (u : Quarter) (cls : LaneReq → Nat) : Quarter :=
  { u with lanes := u.lanes.zipIdx.map (fun l => if isWriteLane l.2 then l.1 else postHead cls l.1) }

theorem State.postHeads_quarter (s : State) (q : Nat) : s.postHeads.quarter q = (s.quarter q).postHeads s.classOf := by
  change (s.quarters.map (·.postHeads s.classOf)).getD q {} = (s.quarters.getD q {}).postHeads s.classOf
  rw [List.getD_eq_getElem?_getD, List.getD_eq_getElem?_getD, List.getElem?_map]
  cases s.quarters[q]? with
  | none => rfl
  | some u => rfl

theorem State.postHeads_jobOf (s : State) (c : Nat) : s.postHeads.jobOf c = s.jobOf c :=
  State.jobOf_congr c (fun p => (congrArg Quarter.jobs (s.postHeads_quarter p)).trans rfl)

/-- Posting a request gives it its class, and makes no transfer. -/
theorem State.postHeads_lanesDoneFor (s : State) (q c : Nat) (use : LaneFor) :
    s.postHeads.lanesDoneFor q c use = s.lanesDoneFor q c use := by
  have hlane : (fun l : List LaneReq => l.any (fun r => r.ctx == c && r.use == use)) ∘
      (fun l : List LaneReq × Nat => if isWriteLane l.2 then l.1 else postHead s.classOf l.1) =
      (fun l => l.any (fun r => r.ctx == c && r.use == use)) ∘ Prod.fst := by
    funext l
    simp only [Function.comp_apply]
    split
    · rfl
    · exact postHead_any _ _ (fun _ _ => rfl) _
  unfold State.lanesDoneFor
  rw [State.postHeads_quarter, Quarter.postHeads, List.any_map, hlane, ← List.any_map, List.zipIdx_map_fst]

/-- A lane of a quarter has a line still to move for a use of a context. -/
def Quarter.waits (u : Quarter) (c : Nat) (use : LaneFor) : Bool := u.lanes.any (fun l => l.any (fun r => r.ctx == c && r.use == use))

theorem State.lanesDoneFor_congr {s t : State} {q c : Nat} {use : LaneFor} (h : (t.quarter q).waits c use = (s.quarter q).waits c use) :
    t.lanesDoneFor q c use = s.lanesDoneFor q c use :=
  congrArg not h

theorem State.modJob_lanesDone (s : State) (q c k d : Nat) (f : Job → Job) : (s.modJob q c f).lanesDone k d = s.lanesDone k d :=
  State.lanesDoneFor_congr (s.modQuarter_leaves (·.waits d .routine) q k (fun _ => rfl))

/-- No transfers to make for a lane are no requests. -/
theorem State.postLines_nil (s : State) (q lane kind c : Nat) : s.postLines q lane kind c [] = s.postHeads := by
  simp only [State.postLines, State.postFor, groupPorts, List.append_nil, modAt_id, State.modQuarter]

/-! ### What the fetches of a step leave -/

/-- What posting and fetching the lines of a step leaves: all but the quarters, the elements of the planes, and the quarter on which the
routine of the context runs. -/
structure KeepsPlanes (c : Nat) (s t : State) : Prop where
  frame : t = { s with quarters := t.quarters }
  planes : ∀ p, (t.quarter p).planes = (s.quarter p).planes
  place : (t.jobOf c).map Prod.fst = (s.jobOf c).map Prod.fst

namespace KeepsPlanes

variable {c : Nat} {s t u : State}

theorem refl (c : Nat) (s : State) : KeepsPlanes c s s := ⟨rfl, fun _ => rfl, rfl⟩

theorem trans (h : KeepsPlanes c s t) (k : KeepsPlanes c t u) : KeepsPlanes c s u :=
  ⟨by rw [k.frame, h.frame], fun p => (k.planes p).trans (h.planes p), k.place.trans h.place⟩

theorem modQuarter (h : KeepsPlanes c s t) (q : Nat) {f : Quarter → Quarter} (hplanes : ∀ x, (f x).planes = x.planes)
    (hjobs : ∀ x, (f x).jobs = x.jobs) : KeepsPlanes c s (t.modQuarter q f) :=
  h.trans ⟨rfl, fun p => t.modQuarter_leaves (·.planes) q p hplanes, by rw [t.modQuarter_jobOf q c hjobs]⟩

theorem postHeads (h : KeepsPlanes c s t) : KeepsPlanes c s t.postHeads :=
  h.trans ⟨rfl, fun p => (congrArg Quarter.planes (t.postHeads_quarter p)).trans rfl, by rw [t.postHeads_jobOf]⟩

theorem modJob (h : KeepsPlanes c s t) (q : Nat) {f : Job → Job} (hf : ∀ j, (f j).ctx = j.ctx := by intro _; rfl) :
    KeepsPlanes c s (t.modJob q c f) :=
  h.trans ⟨rfl, fun p => t.modJob_planes q c p f, by rw [t.modJob_jobOf q c hf, Option.map_map]; rfl⟩

theorem setPeg (h : KeepsPlanes c s t) (q i : Nat) (g : Quarter → Peg) : KeepsPlanes c s (t.modQuarter q (fun u => u.setPeg i (g u))) :=
  h.modQuarter q (fun x => by unfold Quarter.setPeg; split <;> rfl) (fun x => by unfold Quarter.setPeg; split <;> rfl)

theorem pegFetch (h : KeepsPlanes c s t) (q d : Nat) (found : List Found) (i n : Nat) : KeepsPlanes c s (t.pegFetch q d found i n).1 := by
  unfold State.pegFetch
  dsimp only
  split
  · exact h
  · split
    · exact h
    · exact h.setPeg q i _

theorem bFetch (h : KeepsPlanes c s t) (q d : Nat) (found : List Found) (n : Nat) (b : BSource) :
    KeepsPlanes c s (t.bFetch q d found n b).1 := by
  cases b with
  | window tile => exact h.pegFetch q d found _ tile
  | streamed slice line => exact h.setPeg q _ _
  | none => exact h

theorem jobOf {q : Nat} {j : Job} (h : KeepsPlanes c s t) (hj : s.jobOf c = some (q, j)) : ∃ k, t.jobOf c = some (q, k) := by
  have hplace := h.place
  rw [hj, Option.map_some] at hplace
  obtain ⟨⟨p, k⟩, hk, rfl⟩ := Option.map_eq_some_iff.mp hplace
  exact ⟨k, hk⟩

/-- A run of fetches gives one line for each. -/
theorem foldl_fetch {α : Type} {f : State → α → State × Tile} (hf : ∀ t x, KeepsPlanes c s t → KeepsPlanes c s (f t x).1) :
    ∀ (l : List α) (acc : State × List Tile), KeepsPlanes c s acc.1 →
      KeepsPlanes c s (l.foldl (fun acc x => ((f acc.1 x).1, acc.2 ++ [(f acc.1 x).2])) acc).1 ∧
        (l.foldl (fun acc x => ((f acc.1 x).1, acc.2 ++ [(f acc.1 x).2])) acc).2.length = acc.2.length + l.length
  | [], _, h => ⟨h, rfl⟩
  | x :: l, acc, h => by
    obtain ⟨hkeep, hlen⟩ := foldl_fetch hf l ((f acc.1 x).1, acc.2 ++ [(f acc.1 x).2]) (hf acc.1 x h)
    refine ⟨hkeep, hlen.trans ?_⟩
    simp only [List.length_append, List.length_cons, List.length_nil]
    omega

/-- R189: one line for each block row and column comes to the array edge. -/
theorem fetchStep (h : KeepsPlanes c s t) (q d : Nat) (found : List Found) (pkt : List Byte) (b : Nat → Nat → BSource) (o : Nat) :
    KeepsPlanes c s (t.fetchStep q d found pkt b o).1 ∧
      (t.fetchStep q d found pkt b o).2.length = (geomOf pkt).mt + (geomOf pkt).nt := by
  have hA := foldl_fetch (f := fun t m => t.pegFetch q d found ((geomOf pkt).prow + m) (aTile pkt m o))
    (fun t m k => k.pegFetch q d found _ _) (List.range (geomOf pkt).mt) (t, []) h
  have hB := foldl_fetch (f := fun t n => t.bFetch q d found ((geomOf pkt).pcol + n) (b n o))
    (fun t n k => k.bFetch q d found _ _) (List.range (geomOf pkt).nt) _ hA.1
  refine ⟨hB.1, hB.2.trans ?_⟩
  rw [hA.2, List.length_range, List.length_range, List.length_nil, Nat.zero_add]

end KeepsPlanes

/-! ### The steps of a segment -/

variable {s : State} {c q : Nat} {j : Job} {pkt : List Byte} {b : Nat → Nat → BSource} {o : Nat}

theorem State.sumStep_of_summed (hjob : s.jobOf c = some (q, j)) (h : j.started ≤ j.summed) (g : Geom) : s.sumStep q c g = s := by
  rw [State.sumStep, State.job_of_jobOf hjob]
  exact if_pos h

/-- R53, R54: a step that has started adds its group sums to the plane. -/
theorem State.sumStep_of_started (hjob : s.jobOf c = some (q, j)) (h : j.summed < j.started) (g : Geom) : s.sumStep q c g =
    (s.modPlane q (j.phys.getD 0) (fun _ => (((s.quarter q).plane (j.phys.getD 0)).step g j.lines).1)).modJob q c (fun k => { k with
      summed := k.started, accRange := k.accRange || (((s.quarter q).plane (j.phys.getD 0)).step g j.lines).2 }) := by
  rw [State.sumStep, State.job_of_jobOf hjob]
  dsimp only
  exact if_neg (Nat.not_le.mpr h)

theorem State.sumStep_jobOf (hjob : s.jobOf c = some (q, j)) (h : j.summed < j.started) (g : Geom) : (s.sumStep q c g).jobOf c =
    some (q, { j with summed := j.started, accRange := j.accRange || (((s.quarter q).plane (j.phys.getD 0)).step g j.lines).2 }) := by
  rw [State.sumStep_of_started hjob h, State.modJob_jobOf_of ((s.modPlane_jobOf q _ c _).trans hjob)]

/-- R189: once the last step has started and is summed, the segment is at its commit point. -/
theorem State.runSteps_of_last (hjob : s.jobOf c = some (q, j)) (h : j.summed < j.started) (hend : j.steps[j.started]? = none) :
    (s.runSteps q c [] pkt b).state = (s.sumStep q c (geomOf pkt)).toCommit q c id := by
  unfold State.runSteps
  dsimp only
  rw [State.job_of_jobOf (State.sumStep_jobOf hjob h _), hend]
  rfl

/-- R189, R274, R275: what the end of the last step comes to: its group sums are in the plane, and the segment is at its commit point. -/
theorem State.runSteps_summed (hjob : s.jobOf c = some (q, j)) (hplane : j.phys.getD 0 < (s.quarter q).planes.length)
    (h : j.summed < j.started) (hend : j.steps[j.started]? = none) : ∃ t, (s.runSteps q c [] pkt b).state = t ∧
      t = { s with quarters := t.quarters } ∧
      (t.quarter q).plane (j.phys.getD 0) = (((s.quarter q).plane (j.phys.getD 0)).step (geomOf pkt) j.lines).1 ∧
      t.jobOf c = some (q, { j with
        stage := .staged, summed := j.started
        accRange := j.accRange || (((s.quarter q).plane (j.phys.getD 0)).step (geomOf pkt) j.lines).2 }) := by
  refine ⟨_, State.runSteps_of_last hjob h hend, ?_, ?_, State.modJob_jobOf_of (State.sumStep_jobOf hjob h _)⟩
  · rw [State.sumStep_of_started hjob h]
    rfl
  · rw [State.toCommit, State.modJob_plane, State.sumStep_of_started hjob h, State.modJob_plane,
      State.modPlane_plane (State.quarter_lt_of_jobOf hjob) hplane]

/-- R189: a step whose lines are at the array edge waits there. -/
theorem State.runSteps_of_edge (hjob : s.jobOf c = some (q, j)) (h : j.started ≤ j.summed) (hstep : (j.steps[j.summed]?).isSome = true)
    (hedge : j.edge = true) : (s.runSteps q c [] pkt b).state = s := by
  obtain ⟨o, ho⟩ := Option.isSome_iff_exists.mp hstep
  simp [State.runSteps, State.sumStep_of_summed hjob h, State.job_of_jobOf hjob, ho, hedge, Prog.state]

/-- R116: a step all of whose misses have been asked of their ports posts no transfer. -/
theorem State.postStep_of_asked (h : ∀ x ∈ s.stepMisses q c pkt b o, x.1 ∈ (s.job c).missed) :
    s.postStep q c pkt b o = s.postHeads.postHeads.modJob q c (fun k => { k with stepAsked := true, missed := k.missed ++ [] }) := by
  have hnone : (s.stepMisses q c pkt b o).filter (fun x => !((s.job c).missed.contains x.1)) = [] := by
    refine List.filter_eq_nil_iff.mpr (fun x hx => ?_)
    simpa using h x hx
  simp only [State.postStep, hnone, List.filter_nil, List.map_nil, State.postLines_nil]

/-- R189: the lines of a step whose transfers are made come to the array edge. -/
theorem State.runSteps_fetched (hjob : s.jobOf c = some (q, j)) (h : j.started ≤ j.summed) (hstep : j.steps[j.summed]? = some o)
    (hedge : j.edge = false) (hlanes : s.lanesDone q c = true) (hasked : ∀ x ∈ s.stepMisses q c pkt b o, x.1 ∈ j.missed) :
    ∃ t, (s.runSteps q c [] pkt b).state = t ∧ KeepsPlanes c s t ∧
      ∃ k, t.jobOf c = some (q, k) ∧ k.edge = true ∧ k.stepAsked = false ∧ k.lines.length = (geomOf pkt).mt + (geomOf pkt).nt := by
  have hj := State.job_of_jobOf hjob
  have hpost := State.postStep_of_asked (hj.symm ▸ hasked)
  have hkeep : KeepsPlanes c s (s.postStep q c pkt b o) := hpost ▸ (KeepsPlanes.refl c s).postHeads.postHeads.modJob q
  have hdone : (s.postStep q c pkt b o).lanesDone q c = true := by
    rw [hpost, State.modJob_lanesDone, State.lanesDone, State.postHeads_lanesDoneFor, State.postHeads_lanesDoneFor]
    exact hlanes
  obtain ⟨hfetch, hlen⟩ := hkeep.fetchStep q c [] pkt b o
  obtain ⟨k, hk⟩ := hfetch.jobOf hjob
  have hrun : (s.runSteps q c [] pkt b).state = ((s.postStep q c pkt b o).fetchStep q c [] pkt b o).1.modJob q c (fun k => { k with
      lines := ((s.postStep q c pkt b o).fetchStep q c [] pkt b o).2, edge := true, stepAsked := false, missed := [] }) := by
    simp [State.runSteps, State.sumStep_of_summed hjob h, hj, hstep, hedge, Prog.until_of hdone, Prog.state]
  exact ⟨_, hrun, hfetch.modJob q, _, State.modJob_jobOf_of hk, rfl, rfl, hlen⟩

end Sys2Proof.Machine
end

section
/-! SUPPORT. Proofs about the staging ahead of MMS (R284): it leaves all that the step in progress reads. -/
namespace Sys2Proof.Machine

/-! ### Window lines -/

/-- A list with an entry under a new key is searched as before for what the new entry is not. -/
theorem find?_assocPut {β : Type} {p : Nat × β → Bool} {k : Nat} {v : β} (hv : p (k, v) = false) :
    ∀ l : List (Nat × β), assocGet l k = none → (assocPut l k v).find? p = l.find? p
  | [], _ => by simp [assocPut, hv]
  | (k', v') :: rest, h => by
    rw [assocGet] at h
    split at h
    · cases h
    · next hne =>
      unfold assocPut
      split
      · rw [List.find?_cons, hv]
      · rw [if_neg (Ne.symm hne), List.find?_cons, List.find?_cons, find?_assocPut hv rest h]

theorem assocGet_ne_none_of_mem {β : Type} {k : Nat} {v : β} : ∀ {l : List (Nat × β)}, (k, v) ∈ l → assocGet l k ≠ none
  | (k', v') :: rest, h => by
    rw [assocGet]
    split
    · exact Option.some_ne_none _
    · next hne =>
      obtain heq | hmem := List.mem_cons.mp h
      · exact absurd (congrArg Prod.fst heq).symm hne
      · exact assocGet_ne_none_of_mem hmem

/-- A line that serves an owner is in use. -/
theorem Slice.lineOf_ne_of_free {sl : Slice} {l k : Nat} {o : LineOwner} (hfree : assocGet sl.lines l = none) (h : sl.lineOf o = some k) :
    k ≠ l := by
  obtain ⟨x, hx, rfl⟩ := Option.map_eq_some_iff.mp h
  rintro rfl
  exact assocGet_ne_none_of_mem (List.mem_of_find?_eq_some hx) hfree

/-- What a slice tells of the window lines: where they are, and their flags. -/
structure Slice.KeepsWindow (sl sl' : Slice) : Prop where
  line : ∀ k n, sl'.lineOf (.window k n) = sl.lineOf (.window k n)
  flags : ∀ k n l, sl.lineOf (.window k n) = some l → sl'.flags l = sl.flags l

theorem Slice.KeepsWindow.refl (sl : Slice) : sl.KeepsWindow sl := ⟨fun _ _ => rfl, fun _ _ _ _ => rfl⟩

theorem Slice.KeepsWindow.trans {a b d : Slice} (h : a.KeepsWindow b) (k : b.KeepsWindow d) : a.KeepsWindow d :=
  ⟨fun x n => (k.line x n).trans (h.line x n),
    fun x n l hl => (k.flags x n l ((h.line x n).trans hl)).trans (h.flags x n l hl)⟩

/-- A free line put to a use that is no window line leaves the window lines. -/
theorem Slice.use_keepsWindow {sl : Slice} {l : Nat} {o : LineOwner} (hfree : assocGet sl.lines l = none) (ho : ∀ k n, o ≠ .window k n)
    (ch : Charge) : sl.KeepsWindow (sl.use l o ch) where
  line k n := by
    refine congrArg (Option.map Prod.fst) (find?_assocPut ?_ sl.lines hfree)
    simpa using ho k n
  flags k n l' hl := by
    have hword : (sl.use l o ch).word l' = sl.word l' := by
      simp only [Slice.use, Slice.setTile, Slice.word, assocGet_put, if_neg (Slice.lineOf_ne_of_free hfree hl)]
    simp only [Slice.flags, hword]
    rfl

/-- R98, R99: the line that is picked is free. -/
theorem Slice.pick_free {sl : Slice} {port l : Nat} (h : sl.pick port = some l) : assocGet sl.lines l = none := by
  have hfree : sl.isFree l = true := by
    unfold Slice.pick at h
    generalize List.range Config.sliceLines = ls at h
    split at h
    · next k hk =>
      cases h
      have hboth := List.find?_some hk
      exact (Bool.and_eq_true_iff.mp hboth).2
    · exact List.find?_some h
  exact Option.isNone_iff_eq_none.mp (Bool.and_eq_true_iff.mp hfree).2

/-- R125: a floor line taken for a use that is no window line leaves the window lines. -/
theorem Slice.takeFloor_keepsWindow {sl sl' : Slice} {k port : Nat} {o : LineOwner} (ho : ∀ k n, o ≠ .window k n)
    (h : sl.takeFloor k port o = some sl') : sl.KeepsWindow sl' := by
  unfold Slice.takeFloor at h
  split at h
  · next n l hfloor hpick =>
    cases h
    have hfree := Slice.pick_free hpick
    have hsame : sl.KeepsWindow { sl with floorFree := assocPut sl.floorFree k n } := ⟨fun _ _ => rfl, fun _ _ _ _ => rfl⟩
    exact hsame.trans (Slice.use_keepsWindow (sl := { sl with floorFree := assocPut sl.floorFree k n }) hfree ho _)
  · cases h

/-- A slice that takes the place of slice `i`. -/
theorem State.modSlice_keepsWindow {s : State} {i : Nat} {f : Slice → Slice} (h : (s.slice i).KeepsWindow (f (s.slice i))) (k : Nat) :
    (s.slice k).KeepsWindow ((s.modSlice i f).slice k) := by
  by_cases hi : i < s.slices.length
  · rw [State.modSlice_slice s k f hi]
    split
    · next hk => exact hk ▸ h
    · exact .refl _
  · rw [State.slice, State.slice, State.modSlice, modAt_of_length_le f (Nat.not_lt.mp hi)]
    exact .refl _

/-- R125, R183: a use that is no window line, whether it takes a line or waits for one, leaves the window lines. -/
theorem State.takeLine_keepsWindow {s : State} {o : LineOwner} (ho : ∀ k n, o ≠ .window k n) (c i port lane cls k : Nat) :
    (s.slice k).KeepsWindow ((s.takeLine c i port lane cls o).slice k) := by
  unfold State.takeLine
  dsimp only
  split
  · exact .refl _
  · split
    · next sl hsl => exact State.modSlice_keepsWindow (Slice.takeFloor_keepsWindow ho hsl) k
    · exact State.modSlice_keepsWindow ⟨fun _ _ => rfl, fun _ _ _ _ => rfl⟩ k

theorem State.takeLine_frame (s : State) (c i port lane cls : Nat) (o : LineOwner) :
    s.takeLine c i port lane cls o = { s with slices := (s.takeLine c i port lane cls o).slices } := by
  unfold State.takeLine
  dsimp only
  split
  · rfl
  · split <;> rfl

/-! ### Transfers for another use -/

theorem groupPorts_use (r : LaneReq) : ∀ (ports : List Nat), ∀ x ∈ groupPorts r ports, x.use = r.use
  | [], _, h => nomatch h
  | p :: ps, x, h => by
    rw [groupPorts] at h
    split at h
    · next y rest hrest =>
      have ih : ∀ x ∈ y :: rest, x.use = r.use := hrest ▸ groupPorts_use r ps
      split at h
      · obtain rfl | hmem := List.mem_cons.mp h
        · exact ih y List.mem_cons_self
        · exact ih x (List.mem_cons_of_mem y hmem)
      · obtain rfl | hmem := List.mem_cons.mp h
        · rfl
        · exact ih x hmem
    · rw [List.mem_singleton.mp h]

/-- No request of a list of transfers is for another use. -/
theorem groupPorts_any {r : LaneReq} {use : LaneFor} (hr : r.use ≠ use) (c : Nat) (ports : List Nat) :
    (groupPorts r ports).any (fun x => x.ctx == c && x.use == use) = false := by
  rw [List.any_eq_false]
  intro x hx
  simp [groupPorts_use r ports x hx, hr]

/-- What an update of a member does not decide is decided as before. -/
theorem modAt_any {α : Type} {p : α → Bool} {f : α → α} (hf : ∀ x, p (f x) = p x) : ∀ (l : List α) (i : Nat), (modAt l i f).any p = l.any p
  | [], _ => by simp [modAt]
  | _ :: _, 0 => by simp [modAt, hf]
  | x :: xs, i + 1 => by simp [modAt, modAt_any hf xs i]

/-! ### What the staging ahead leaves -/

/-- A routine but for its translations, which the staging ahead of the next segment adds to. -/
def Job.unplaced (j : Job) : Job := { j with pages := [] }

/-- An entry but for what its MMS has staged ahead. -/
def Entry.unstaged (e : Entry) : Entry := { e with ahead := none }

/-- What a step of context `c` on quarter `q` reads of the quarter: planes and pegs. -/
def Quarter.datapath (u : Quarter) : List PhysPlane × List Peg × List Peg := (u.planes, u.pegsA, u.pegsB)

/-- What the staging ahead of an MMS of context `c` on quarter `q` leaves: memory and time, the routine but for its translations, planes and
pegs, the routine's transfers that are still to be made, the entry but for what is staged ahead, and the window lines. -/
structure KeepsStep (c q : Nat) (s t : State) : Prop where
  hbm : t.hbm = s.hbm
  now : t.now = s.now
  job : (t.jobOf c).map (fun x => (x.1, x.2.unplaced)) = (s.jobOf c).map (fun x => (x.1, x.2.unplaced))
  datapath : (t.quarter q).datapath = (s.quarter q).datapath
  lanes : t.lanesDone q c = s.lanesDone q c
  entry : (t.entry c).unstaged = (s.entry c).unstaged
  slices : ∀ i, (s.slice i).KeepsWindow (t.slice i)

namespace KeepsStep

variable {c q : Nat} {s t u : State}

theorem refl (c q : Nat) (s : State) : KeepsStep c q s s := ⟨rfl, rfl, rfl, rfl, rfl, rfl, fun _ => .refl _⟩

theorem trans (h : KeepsStep c q s t) (k : KeepsStep c q t u) : KeepsStep c q s u :=
  ⟨k.hbm.trans h.hbm, k.now.trans h.now, k.job.trans h.job, k.datapath.trans h.datapath, k.lanes.trans h.lanes, k.entry.trans h.entry,
    fun i => (h.slices i).trans (k.slices i)⟩

/-- An update of other parts of the state. -/
theorem update (h : KeepsStep c q s t) (hhbm : u.hbm = t.hbm) (hnow : u.now = t.now) (hquarters : u.quarters = t.quarters)
    (hentries : u.entries = t.entries) (hslices : ∀ i, (t.slice i).KeepsWindow (u.slice i)) : KeepsStep c q s u := by
  have hq : ∀ p, u.quarter p = t.quarter p := fun p => by rw [State.quarter, hquarters]; rfl
  refine h.trans ⟨hhbm, hnow, ?_, ?_, ?_, ?_, hslices⟩
  · rw [State.jobOf_congr c (fun p => congrArg _ (hq p))]
  · rw [hq]
  · exact State.lanesDoneFor_congr (congrArg (·.waits c .routine) (hq q))
  · simp only [State.entry, hentries]

theorem takeLine (h : KeepsStep c q s t) {o : LineOwner} (ho : ∀ k n, o ≠ .window k n) (d i port lane cls : Nat) :
    KeepsStep c q s (t.takeLine d i port lane cls o) := by
  have hframe := t.takeLine_frame d i port lane cls o
  exact h.update (by rw [hframe]) (by rw [hframe]) (by rw [hframe]) (by rw [hframe]) (State.takeLine_keepsWindow ho d i port lane cls)

theorem foldl {α : Type} {f : State → α → State} (hf : ∀ t x, KeepsStep c q s t → KeepsStep c q s (f t x)) :
    ∀ (l : List α) {t : State}, KeepsStep c q s t → KeepsStep c q s (l.foldl f t)
  | [], _, h => h
  | x :: l, t, h => foldl hf l (hf t x h)

theorem modFabric (h : KeepsStep c q s t) (f : Fabric → Fabric) : KeepsStep c q s (t.modFabric f) :=
  h.update rfl rfl rfl rfl (fun _ => .refl _)

theorem postRacing (h : KeepsStep c q s t) (x : Txn) : KeepsStep c q s (t.postRacing x) := by
  unfold State.postRacing
  dsimp only
  split
  · split
    · exact h.update rfl rfl rfl rfl (fun _ => .refl _)
    · exact h.update rfl rfl rfl rfl (fun _ => .refl _)
  · exact h.modFabric _

theorem postReads (h : KeepsStep c q s t) (p d : Nat) (ranges : List (Nat × Nat)) : KeepsStep c q s (t.postReads p d ranges) :=
  foldl (fun _ _ k => k.postRacing _) _ h

theorem modJob (h : KeepsStep c q s t) {f : Job → Job} (hctx : ∀ j, (f j).ctx = j.ctx) (hf : ∀ j, (f j).unplaced = j.unplaced) :
    KeepsStep c q s (t.modJob q c f) := by
  refine h.trans ⟨rfl, rfl, ?_, t.modQuarter_leaves Quarter.datapath q q (fun _ => rfl), t.modJob_lanesDone q c q c f, rfl,
    fun _ => .refl _⟩
  rw [t.modJob_jobOf q c hctx, Option.map_map]
  refine Option.map_congr (fun x _ => Prod.ext rfl ?_)
  dsimp only [Function.comp_apply]
  split
  · exact hf x.2
  · rfl

theorem noteAhead (h : KeepsStep c q s t) (d : Nat) (a : Option Ahead) :
    KeepsStep c q s (t.modEntry d (fun e => { e with ahead := a })) := by
  have hslice : ∀ i, (t.modEntry d (fun e => { e with ahead := a })).slice i = t.slice i := fun i => by simp [State.slice]
  have hquarter : ∀ p, (t.modEntry d (fun e => { e with ahead := a })).quarter p = t.quarter p := fun p => by simp [State.quarter]
  refine h.trans ⟨t.modEntry_hbm d _, t.modEntry_now d _, ?_, ?_, ?_, t.modEntry_leaves Entry.unstaged c d (fun _ => rfl), ?_⟩
  · rw [State.jobOf_congr c (fun p => congrArg _ (hquarter p))]
  · rw [hquarter]
  · exact State.lanesDoneFor_congr (congrArg (·.waits c .routine) (hquarter q))
  · exact fun i => (hslice i).symm ▸ .refl _

/-! ### Transfers ahead -/

theorem postHeads (h : KeepsStep c q s t) : KeepsStep c q s t.postHeads := by
  have hpath : (t.postHeads.quarter q).datapath = (t.quarter q).datapath :=
    (congrArg Quarter.datapath (t.postHeads_quarter q)).trans rfl
  exact h.trans ⟨rfl, rfl, by rw [t.postHeads_jobOf], hpath, t.postHeads_lanesDoneFor q c .routine, rfl, fun _ => .refl _⟩

theorem modQuarter (h : KeepsStep c q s t) (p : Nat) {f : Quarter → Quarter} (hjobs : ∀ u, (f u).jobs = u.jobs)
    (hpath : ∀ u, (f u).datapath = u.datapath) (hwaits : ∀ u, (f u).waits c .routine = u.waits c .routine) :
    KeepsStep c q s (t.modQuarter p f) :=
  h.trans ⟨rfl, rfl, by rw [t.modQuarter_jobOf p c hjobs], t.modQuarter_leaves Quarter.datapath p q hpath,
    State.lanesDoneFor_congr (t.modQuarter_leaves (·.waits c .routine) p q hwaits), rfl, fun _ => .refl _⟩

/-- Transfers that are not for the routine add nothing to those that it waits for. -/
theorem postFor (h : KeepsStep c q s t) (p lane : Nat) {r : LaneReq} (hr : r.use ≠ .routine) (ports : List Nat) :
    KeepsStep c q s (t.postFor p lane r ports) := by
  refine KeepsStep.postHeads (h.modQuarter p (fun _ => rfl) (fun _ => rfl) (fun u => modAt_any (fun l => ?_) u.lanes lane))
  rw [List.any_append, groupPorts_any hr, Bool.or_false]

/-! ### The staging ahead -/

theorem progUntil (h : KeepsStep c q s t) (b : Bool) : KeepsStep c q s (Prog.until b t).state := by
  unfold Prog.until
  split <;> exact h

theorem andThen {p : Prog} {f : State → Prog} (h : KeepsStep c q s p.state) (hf : ∀ t, KeepsStep c q s t → KeepsStep c q s (f t).state) :
    KeepsStep c q s (p.andThen f).state := by
  cases p with
  | go t => exact hf t h
  | stop t => exact h

theorem stageStreams (h : KeepsStep c q s t) (p d pcol : Nat) (tiles : List (Nat × Nat)) :
    KeepsStep c q s (t.stageStreams p d pcol tiles).state := by
  have hlines := foldl (f := fun u x => u.takeLine d ((t.entry d).streamSlice (pcol + x.1)) ((pcol + x.1) % 4) (8 * p + laneLsWrite)
    (u.prioOf kindLdw d) (.streamed d x.2 x.1)) (fun u x k => k.takeLine (fun _ _ => LineOwner.noConfusion) d _ _ _ _) tiles h
  exact hlines.progUntil _

/-- R284: the lines of the next segment are staged beside the step in progress, which reads none of them. -/
theorem stageAhead (h : KeepsStep c q s t) (op : Op) : KeepsStep c q s (t.stageAhead q c op) := by
  unfold State.stageAhead
  dsimp only
  split
  · split
    · split
      · refine KeepsStep.noteAhead (KeepsStep.postReads (h.modJob ?_ ?_) q c _) c _
        · exact fun _ => rfl
        · exact fun _ => rfl
      · exact h
    · exact h
  · split
    · exact h
    · refine (h.stageStreams q c _ _).andThen (fun u hu => ?_)
      split
      · exact hu
      · exact KeepsStep.noteAhead (hu.postFor q laneLsWrite LaneFor.noConfusion _) c _

end KeepsStep

/-! ### What a step reads -/

namespace KeepsStep

variable {c q : Nat} {s t : State}

/-- A reading of the entry that does not ask what is staged ahead. -/
theorem entry_eq {α : Type} (h : KeepsStep c q s t) (g : Entry → α) (hg : ∀ e, g e.unstaged = g e := by intro _; rfl) :
    g (t.entry c) = g (s.entry c) := by
  rw [← hg, ← hg (s.entry c), h.entry]

theorem peg (h : KeepsStep c q s t) (i : Nat) : (t.quarter q).peg i = (s.quarter q).peg i := by
  obtain ⟨-, hA, hB⟩ : _ ∧ _ ∧ _ := by simpa only [Quarter.datapath, Prod.mk.injEq] using h.datapath
  simp only [Quarter.peg, hA, hB]

theorem planes (h : KeepsStep c q s t) : (t.quarter q).planes = (s.quarter q).planes := congrArg Prod.fst h.datapath

theorem tileLine (h : KeepsStep c q s t) (n : Nat) : t.tileLine c n = s.tileLine c n := by
  simp only [State.tileLine, h.entry_eq Entry.slot, h.entry_eq (fun e => e.sliceOf n), (h.slices _).line]

/-- The flags of a tile's window line are as before. -/
theorem lineFlags (h : KeepsStep c q s t) {n i l : Nat} (hl : s.tileLine c n = some (i, l)) :
    (t.slice i).flags l = (s.slice i).flags l := by
  unfold State.tileLine at hl
  dsimp only at hl
  split at hl
  · cases hl
  · obtain ⟨l', hline, heq⟩ := Option.map_eq_some_iff.mp hl
    cases heq
    exact (h.slices _).flags _ n l hline

theorem tileFlags (h : KeepsStep c q s t) (n : Nat) : t.tileFlags c n = s.tileFlags c n := by
  simp only [State.tileFlags, h.tileLine]
  split
  · next hl => exact h.lineFlags hl
  · rfl

theorem readPort (h : KeepsStep c q s t) (n : Nat) : t.readPort c n = s.readPort c n := by
  simp only [State.readPort, h.tileLine]
  split
  · next hl => rw [h.lineFlags hl]
  · rfl

theorem pegPort (h : KeepsStep c q s t) (i n : Nat) : t.pegPort q c i n = s.pegPort q c i n := by
  simp only [State.pegPort, h.tileFlags, h.peg, h.entry_eq Entry.slot, h.readPort]

theorem bPort (h : KeepsStep c q s t) (n : Nat) (b : BSource) : t.bPort q c n b = s.bPort q c n b := by
  cases b with
  | window tile => exact h.pegPort _ tile
  | streamed slice line => rfl
  | none => rfl

/-- The transfers that the fetches of a step need are as before. -/
theorem stepMisses (h : KeepsStep c q s t) (pkt : List Byte) (b : Nat → Nat → BSource) (o : Nat) :
    t.stepMisses q c pkt b o = s.stepMisses q c pkt b o := by
  simp only [State.stepMisses, h.pegPort, h.bPort]

/-- The routine is as before but for its translations. -/
theorem jobOf (h : KeepsStep c q s t) {j : Job} (hj : s.jobOf c = some (q, j)) :
    ∃ pages, t.jobOf c = some (q, { j with pages := pages }) := by
  have hmap := h.job
  rw [hj, Option.map_some] at hmap
  obtain ⟨⟨p, k⟩, hk, heq⟩ := Option.map_eq_some_iff.mp hmap
  obtain ⟨rfl, hkj⟩ := Prod.mk.inj heq
  have hpages : k = { j with pages := k.pages } := congrArg (fun x : Job => { x with pages := k.pages }) hkj
  exact ⟨k.pages, hpages ▸ hk⟩

end KeepsStep

end Sys2Proof.Machine
end

section
/-! SUPPORT. Proofs of the obligation on ASD, MMA and MMS. -/
namespace Sys2Proof.Machine

/-! ### ASD -/

/-- Sub-blocks written one after another, from what no plane changes, are one change of the plane. -/
theorem State.foldl_setBlock (q p : Nat) (sub : Nat → Nat) {r : State → Nat → List Af} (hr : ∀ s f o, r (s.modPlane q p f) o = r s o) :
    ∀ (l : List Nat) (s : State), l.foldl (fun t o => t.modPlane q p (fun x => x.setBlock (sub o) (r t o))) s =
      s.modPlane q p (fun x => l.foldl (fun x o => x.setBlock (sub o) (r s o)) x)
  | [], s => (s.modPlane_id q p).symm
  | o :: l, s => by
    rw [List.foldl_cons, State.foldl_setBlock q p sub hr l, State.modPlane_modPlane]
    simp only [hr, List.foldl_cons]

/-- R52, R289: a plane with the sub-blocks of an ASD segment set to the elements of their source tiles. -/
def State.seededPlane (s : State) (c : Nat) (j : Job) (p : List Byte) (x : PhysPlane) : PhysPlane :=
  j.ordinals.foldl (fun x o =>
    x.setBlock ((geomOf p).sub (o / (geomOf p).nt) (o % (geomOf p).nt)) (Tile.seeds (s.readTile c (byteAt p 48 + o)))) x

/-- R288, R289: an ASD whose transfers are made seeds its plane and is at its commit point. -/
theorem exec_asd_of_ready {s : State} {c q : Nat} {j : Job} {op : Op} (hrun : s.Runs c q j op) (hopc : opcOf op.pkt = 0x25)
    (hfetched : j.fetched = true) (hlanes : s.lanesDone q c = true) :
    exec (.asd c []) s = .next ((s.modPlane q (j.phys.getD 0) (s.seededPlane c j op.pkt)).toCommit q c id) := by
  change execAsd c [] s = _
  rw [execAsd, opCommand_nil hrun.ctx, hrun.runOp hopc]
  have hfold := State.foldl_setBlock q (j.phys.getD 0) (fun o => (geomOf op.pkt).sub (o / (geomOf op.pkt).nt) (o % (geomOf op.pkt).nt))
    (r := fun t o => Tile.seeds (t.readTile c (byteAt op.pkt 48 + o))) (fun _ _ _ => rfl) j.ordinals s
  simp only [State.postOnce_of_fetched (hrun.job_eq.symm ▸ hfetched), hlanes, Prog.until_true, Prog.go_andThen, State.readFor_nil,
    Prog.state, hfold]
  rfl

/-! ### The steps of MMA and MMS -/

/-- Which command takes the steps of an operation, and where its B tiles come from. -/
def StepCommand (s : State) (c : Nat) (p : List Byte) (i : Instr) (b : Nat → Nat → BSource) : Prop :=
  (opcOf p = 0x21 ∧ i = .mma c [] ∧ b = fun n o => BSource.window (bTile p n o)) ∨
    (opcOf p = 0x22 ∧ i = .mms c [] ∧ b = fun n o => s.streamed c (geomOf p).pcol n o)

theorem State.chooseSteps_of_loaded {s : State} {c : Nat} (h : (s.job c).loaded = true) (q : Nat) (j : Job) (p : List Byte)
    (b : Nat → Nat → BSource) : s.chooseSteps q c j p b = s := if_pos h

theorem State.loadStreams_of_loaded {s : State} {c : Nat} (h : (s.job c).loaded = true) (q : Nat) (j : Job) (p : List Byte)
    (k : State → Prog) : s.loadStreams q c j p k = k s := if_pos h

/-- R189, R284: with its steps chosen, either command takes them from a state in which all that a step reads is as before; for MMA it is
the very state. -/
theorem exec_steps {s : State} {c q : Nat} {j : Job} {op : Op} {i : Instr} {b : Nat → Nat → BSource} (hrun : s.Runs c q j op)
    (hib : StepCommand s c op.pkt i b) (hloaded : j.loaded = true) :
    ∃ u, KeepsStep c q s u ∧ (opcOf op.pkt = 0x21 → u = s) ∧ exec i s = .next (u.runSteps q c [] op.pkt b).state := by
  have hload : (s.job c).loaded = true := hrun.job_eq.symm ▸ hloaded
  obtain ⟨hopc, rfl, rfl⟩ | ⟨hopc, rfl, rfl⟩ := hib
  · refine ⟨s, .refl c q s, fun _ => rfl, ?_⟩
    change execMma c [] s = _
    rw [execMma, opCommand_nil hrun.ctx, hrun.runOp hopc]
    dsimp only
    rw [State.chooseSteps_of_loaded hload]
  · refine ⟨s.stageAhead q c op, (KeepsStep.refl c q s).stageAhead op, fun hmma => absurd (hmma.symm.trans hopc) (by decide), ?_⟩
    change execMms c [] s = _
    rw [execMms, opCommand_nil hrun.ctx, hrun.runOp hopc, State.loadStreams_of_loaded hload]
    dsimp only
    rw [State.chooseSteps_of_loaded hload, hrun.head]

/-- Settles O39: an ASD seeds its plane at once; the steps of MMA and MMS are summed, wait or are fetched from a state that reads as the
one before. -/
theorem seedsAndStepsAccumulateInThePlane : Obligations.SeedsAndStepsAccumulateInThePlane := by
  unfold Obligations.SeedsAndStepsAccumulateInThePlane
  intro s c q j op hrun hplane
  refine ⟨fun hopc hfetched hlanes => ?_, fun i b hib hloaded => ?_⟩
  · have hq := State.quarter_lt_of_jobOf hrun.job
    refine ⟨_, exec_asd_of_ready hrun hopc hfetched hlanes, rfl, ?_, ?_⟩
    · exact State.modJob_jobOf_of ((s.modPlane_jobOf q _ c _).trans hrun.job)
    · rw [State.toCommit, State.modJob_plane, State.modPlane_plane hq hplane]
      rfl
  · obtain ⟨u, hkeep, hmma, hexec⟩ := exec_steps hrun hib hloaded
    obtain ⟨pages, hjob⟩ := hkeep.jobOf hrun.job
    have hplaneEq : (u.quarter q).plane (j.phys.getD 0) = (s.quarter q).plane (j.phys.getD 0) :=
      congrArg (fun l : List PhysPlane => l.getD (j.phys.getD 0) {}) hkeep.planes
    refine ⟨fun hstart hend => ?_, fun hopc hle hstep hedge => ?_, fun o hle hstep hedge hlanes hasked => ?_⟩
    · obtain ⟨t, ht, hframe, hsum, hk⟩ := State.runSteps_summed (pkt := op.pkt) (b := b) hjob (hkeep.planes ▸ hplane) hstart hend
      refine ⟨t, ht ▸ hexec, ?_, ?_, hplaneEq ▸ hsum, fun hopc => hmma hopc ▸ hframe, _, hk, rfl, rfl, ?_⟩
      · rw [hframe, hkeep.hbm]
      · rw [hframe, hkeep.now]
      · rw [hplaneEq]
    · rw [hexec, State.runSteps_of_edge hjob hle hstep hedge, hmma hopc]
    · obtain ⟨t, ht, hfetch, hk⟩ := State.runSteps_fetched hjob hle hstep hedge (hkeep.lanes.trans hlanes)
        ((hkeep.stepMisses op.pkt b o).symm ▸ hasked)
      refine ⟨t, ht ▸ hexec, ?_, ?_, (hfetch.planes q).trans hkeep.planes, fun hopc => hmma hopc ▸ hfetch.frame, hk⟩
      · rw [hfetch.frame, hkeep.hbm]
      · rw [hfetch.frame, hkeep.now]

end Sys2Proof.Machine
end

section
/-! SUPPORT. Proofs about a port round (R158, R163, R166 to R170): the lanes that it serves, each once, what a grant takes of a lane, and the
obligation on PORT_ROUND. -/
namespace Sys2Proof.Machine

/-! ### Members of an updated list -/

theorem modAt_congr {α : Type} (d : α) {f g : α → α} : ∀ {l : List α} {i : Nat}, f (l.getD i d) = g (l.getD i d) → modAt l i f = modAt l i g
  | [], _, _ => by simp [modAt]
  | x :: xs, 0, h => congrArg (· :: xs) h
  | x :: xs, _ + 1, h => congrArg (x :: ·) (modAt_congr d (l := xs) h)

theorem getElem?_modAt_of_ne {α : Type} (f : α → α) : ∀ (l : List α) {i j : Nat}, j ≠ i → (modAt l i f)[j]? = l[j]?
  | [], _, _, _ => by simp [modAt]
  | _ :: _, 0, 0, h => absurd rfl h
  | _ :: _, 0, _ + 1, _ => by simp [modAt]
  | _ :: _, _ + 1, 0, _ => by simp [modAt]
  | _ :: xs, i + 1, j + 1, h => by
    simpa [modAt] using getElem?_modAt_of_ne f xs (i := i) (j := j) (fun e => h (congrArg (· + 1) e))

theorem State.modPort_port {s : State} {i p : Nat} (f : Port → Port) (h : 4 * i + p < s.ports.length) :
    (s.modPort i p f).port i p = f (s.port i p) :=
  (getD_modAt _ _ _ _ _ h).trans (if_pos rfl)

/-! ### The winners of a round -/

/-- A rotation order names an index once, wherever it starts. -/
theorem rotationFrom_nodup (ptr : Nat) (xs : List Nat) : (rotationFrom ptr xs).Nodup := by
  refine List.Pairwise.filter _ (List.pairwise_map.mpr (List.nodup_range.imp_of_mem (fun {a b} ha hb hne h => hne ?_)))
  have ha := List.mem_range.mp ha
  have hb := List.mem_range.mp hb
  omega

/-- A round serves a lane once. -/
theorem Arb.winners_nodup (a : Arb) (limit : Nat) (cls : Nat → Nat) (reqs : List Nat) : (a.winners limit cls reqs).Nodup := by
  unfold Arb.winners
  split
  · cases pickWinner a.ptr cls (a.eligible limit reqs) with
    | none => exact List.nodup_nil
    | some r => exact List.pairwise_singleton _ r
  · exact rotationFrom_nodup _ _

/-! ### The requests of a lane -/

/-- A request but for its class, which it has once it is posted. -/
def LaneReq.unposted (x : LaneReq) : LaneReq := { x with cls := none }

theorem postHead_unposted (cls : LaneReq → Nat) (l : List LaneReq) : (postHead cls l).map LaneReq.unposted = l.map LaneReq.unposted := by
  cases l <;> rfl

theorem State.laneQueue_congr {s t : State} (h : t.quarters = s.quarters) (k : Nat) : t.laneQueue k = s.laneQueue k := by
  rw [State.laneQueue, State.quarter, h]
  rfl

/-- The requests of a lane of a quarter, whichever of them are posted. -/
def Quarter.queue (u : Quarter) (lane : Nat) : List LaneReq := (u.lanes.getD lane []).map LaneReq.unposted

theorem State.laneQueue_eq (s : State) (k : Nat) : s.laneQueue k = (s.quarter (k / 8)).queue (k % 8) := rfl

theorem Quarter.queue_default (lane : Nat) : ({} : Quarter).queue lane = [] := by
  have hnil : ({} : Quarter).lanes.getD lane [] = [] := by
    rw [List.getD_eq_getElem?_getD, List.getElem?_replicate]
    split <;> rfl
  rw [Quarter.queue, hnil, List.map_nil]

/-- The requests of every lane after an update of lane `r`. -/
theorem State.modLane_laneQueue (s : State) (r k : Nat) {f h : List LaneReq → List LaneReq}
    (hf : ∀ l, (f l).map LaneReq.unposted = h (l.map LaneReq.unposted)) (hnil : h [] = []) :
    (s.modQuarter (r / 8) (fun u => { u with lanes := modAt u.lanes (r % 8) f })).laneQueue k =
      if k = r then h (s.laneQueue k) else s.laneQueue k := by
  have hquarter := getD_modAt_reading (Quarter.queue · (k % 8)) (f := fun u => { u with lanes := modAt u.lanes (r % 8) f })
    (h := fun l => if k % 8 = r % 8 then h l else l)
    (fun u => getD_modAt_reading (List.map LaneReq.unposted) (d := []) hf hnil u.lanes (r % 8) (k % 8))
    (d := {}) (by rw [Quarter.queue_default, hnil, ite_self]) s.quarters (r / 8) (k / 8)
  rw [State.laneQueue_eq, State.modQuarter, State.quarter, hquarter]
  by_cases hk : k = r
  · rw [if_pos hk, hk, if_pos rfl, if_pos rfl]
    rfl
  · rw [if_neg hk]
    split
    · rw [if_neg (by omega)]
      rfl
    · rfl

theorem State.postHeads_laneQueue (s : State) (k : Nat) : s.postHeads.laneQueue k = s.laneQueue k := by
  rw [State.laneQueue_eq, State.laneQueue_eq, State.postHeads_quarter, Quarter.queue, Quarter.queue, Quarter.postHeads,
    List.getD_eq_getElem?_getD, List.getD_eq_getElem?_getD, List.getElem?_map, List.getElem?_zipIdx, Option.map_map]
  cases (s.quarter (k / 8)).lanes[k % 8]? with
  | none => rfl
  | some l =>
    simp only [Option.map_some, Option.getD_some, Function.comp_apply]
    split
    · rfl
    · exact postHead_unposted _ l

/-- R163: the head of a lane gives up `n` lines, and is not posted while it has more. -/
def grantHead (n : Nat) : List LaneReq → List LaneReq
  | [] => []
  | x :: rest => if x.left ≤ n then rest else { x with left := x.left - n, cls := none } :: rest

theorem grantHead_unposted (n : Nat) (l : List LaneReq) :
    (grantHead n l).map LaneReq.unposted = afterGrant n (l.map LaneReq.unposted) := by
  cases l with
  | nil => rfl
  | cons x rest =>
    rw [grantHead, List.map_cons, afterGrant, LaneReq.unposted]
    split <;> rfl

/-- The requests that a grant writes to a lane are those that its own requests become. -/
theorem State.setLane_eq (s : State) {r n : Nat} {lane : List LaneReq} (h : (s.quarter (r / 8)).lanes.getD (r % 8) [] = lane) :
    s.modQuarter (r / 8) (fun u => { u with lanes := setAt u.lanes (r % 8) (grantHead n lane) }) =
      s.modQuarter (r / 8) (fun u => { u with lanes := modAt u.lanes (r % 8) (grantHead n) }) := by
  have hlane : setAt (s.quarter (r / 8)).lanes (r % 8) (grantHead n lane) = modAt (s.quarter (r / 8)).lanes (r % 8) (grantHead n) :=
    modAt_congr [] (congrArg (grantHead n) h.symm)
  refine congrArg (fun qs => { s with quarters := qs }) (modAt_congr {} ?_)
  exact congrArg (fun ls => { s.quarter (r / 8) with lanes := ls }) hlane

/-! ### What the lanes of a port move -/

/-- The lanes of port SP`p` of slice `i` move lines: nothing but quarters, the port's latches and power changes, and `g` says what each lane
then has to move. -/
structure MovesLines (i p : Nat) (g : Nat → List LaneReq → List LaneReq) (s t : State) : Prop where
  frame : t = { s with quarters := t.quarters, ports := t.ports, power := t.power }
  latches : ∃ f : List Bool → List Bool, t.ports = modAt s.ports (4 * i + p) (fun x => { x with latches := f x.latches })
  lanes : ∀ k, t.laneQueue k = g k (s.laneQueue k)

/-- No lane moves a line. -/
def moveNone (_ : Nat) (l : List LaneReq) : List LaneReq := l

/-- R163: lane `r` moves `n` lines. -/
def moveOf (r n k : Nat) (l : List LaneReq) : List LaneReq := if k = r then afterGrant n l else l

/-- R166: each lane that has won moves what it has there, at most `limit` lines. -/
def moveWon (won : List Nat) (came : Nat → Nat) (limit k : Nat) (l : List LaneReq) : List LaneReq :=
  if k ∈ won then afterGrant (min (came k) limit) l else l

/-- A lane moves its lines when it is served, and no other time. -/
theorem moveWon_cons {r : Nat} {won : List Nat} (hr : r ∉ won) (came : Nat → Nat) (limit k : Nat) (l : List LaneReq) :
    moveWon won came limit k (moveOf r (min (came r) limit) k l) = moveWon (r :: won) came limit k l := by
  unfold moveWon moveOf
  by_cases hk : k = r
  · subst hk
    rw [if_neg hr, if_pos rfl, if_pos List.mem_cons_self]
  · simp only [hk, if_false, List.mem_cons, false_or]

namespace MovesLines

variable {i p : Nat} {g g' : Nat → List LaneReq → List LaneReq} {s t u : State}

theorem refl (i p : Nat) (s : State) : MovesLines i p moveNone s s := ⟨rfl, ⟨id, (modAt_id _ _).symm⟩, fun _ => rfl⟩

theorem trans (h : MovesLines i p g s t) (k : MovesLines i p g' t u) : MovesLines i p (fun r l => g' r (g r l)) s u := by
  obtain ⟨f, hf⟩ := h.latches
  obtain ⟨f', hf'⟩ := k.latches
  exact ⟨by rw [k.frame, h.frame], ⟨fun l => f' (f l), by rw [hf', hf, modAt_modAt]⟩, fun r => by rw [k.lanes, h.lanes]⟩

/-- More updates that move no line. -/
theorem still (h : MovesLines i p g s t) (k : MovesLines i p moveNone t u) : MovesLines i p g s u := h.trans k

theorem profile (h : MovesLines i p g s t) : t.profile = s.profile := by rw [h.frame]

theorem ports_length (h : MovesLines i p g s t) : t.ports.length = s.ports.length := by
  obtain ⟨f, hf⟩ := h.latches
  rw [hf, modAt_length]

theorem other_ports (h : MovesLines i p g s t) {k : Nat} (hk : k ≠ 4 * i + p) : t.ports[k]? = s.ports[k]? := by
  obtain ⟨f, hf⟩ := h.latches
  rw [hf, getElem?_modAt_of_ne _ _ hk]

/-- What a reading of the port takes but from its latches stays. -/
theorem port_leaves {α : Type} (h : MovesLines i p g s t) (a : Port → α) (ha : ∀ x l, a { x with latches := l } = a x) :
    a (t.port i p) = a (s.port i p) := by
  obtain ⟨f, hf⟩ := h.latches
  rw [State.port, hf]
  exact (getD_modAt_reading a (h := id) (fun x => ha x _) rfl s.ports _ _).trans (ite_self _)

theorem ite (c : Prop) [Decidable c] (h : MovesLines i p g s t) (k : MovesLines i p g s u) :
    MovesLines i p g s (if c then t else u) := by
  split
  · exact h
  · exact k

theorem chargeCore (h : MovesLines i p g s t) (n : Nat) : MovesLines i p g s (t.chargeCore n) :=
  h.still ⟨rfl, (refl i p t).latches, fun _ => rfl⟩

theorem setLatch (h : MovesLines i p g s t) (n : Nat) (b : Bool) :
    MovesLines i p g s (t.modPort i p (fun x => { x with latches := setAt x.latches n b })) :=
  h.still ⟨rfl, ⟨fun l => setAt l n b, rfl⟩, fun _ => rfl⟩

theorem postLane (h : MovesLines i p g s t) (r : Nat) (cls : LaneReq → Nat) :
    MovesLines i p g s (t.modQuarter (r / 8) (fun x => { x with lanes := modAt x.lanes (r % 8) (postHead cls) })) :=
  h.still ⟨rfl, (refl i p t).latches, fun k => (t.modLane_laneQueue r k (h := id) (postHead_unposted cls) rfl).trans (ite_self _)⟩

theorem postHeads (h : MovesLines i p g s t) : MovesLines i p g s t.postHeads :=
  h.still ⟨rfl, (refl i p t).latches, t.postHeads_laneQueue⟩

theorem foldl {f : State → Nat → State} (hf : ∀ t r, MovesLines i p g s t → MovesLines i p g s (f t r)) :
    ∀ (l : List Nat) {t : State}, MovesLines i p g s t → MovesLines i p g s (l.foldl f t)
  | [], _, h => h
  | r :: l, t, h => foldl hf l (hf t r h)

/-- R158, R164: a line that comes into a latch has its request posted, and no line moves. -/
theorem latchPort (s : State) (i p : Nat) (late : List (Nat × Nat)) : MovesLines i p moveNone s (s.latchPort i p late) := by
  refine foldl (fun t r h => ?_) laneIndices (refl i p s)
  unfold State.latchLane
  split
  · exact h
  · exact (h.setLatch _ _).postLane r _

/-- R163, R168: the head of lane `r` gives up `n` lines. -/
theorem grant (i p : Nat) {r n : Nat} {lane : List LaneReq} (h : (s.quarter (r / 8)).lanes.getD (r % 8) [] = lane) :
    MovesLines i p (moveOf r n) s
      (s.modQuarter (r / 8) (fun u => { u with lanes := setAt u.lanes (r % 8) (grantHead n lane) })) := by
  rw [s.setLane_eq h]
  exact ⟨rfl, (refl i p s).latches, fun k => s.modLane_laneQueue r k (grantHead_unposted n) rfl⟩

/-- R158, R163, R167, R168: one grant. -/
theorem serveLane (s : State) (i p r came : Nat) :
    MovesLines i p (moveOf r (min came s.profile.burstLimit)) s (s.serveLane i p r came) := by
  unfold State.serveLane
  dsimp only
  split
  · next hlane =>
    have hqueue : s.laneQueue r = [] := by rw [State.laneQueue_eq, Quarter.queue, hlane, List.map_nil]
    refine ⟨rfl, (refl i p s).latches, fun k => ?_⟩
    unfold moveOf
    split
    · next hk => rw [hk, hqueue]; rfl
    · rfl
  · next x rest hlane =>
    have hgrant := (grant i p (n := min came s.profile.burstLimit) hlane).chargeCore (25 * min came s.profile.burstLimit)
    have hcharge := ite ((decide (r % 8 = 2) || decide (r % 8 = 3)) && x.kind != kindSvr)
      (hgrant.chargeCore (30 * min came s.profile.burstLimit)) hgrant
    exact ite _ (ite _ ((hcharge.setLatch _ _).postLane r _) (hcharge.setLatch _ _)) hcharge.postHeads

/-- R166, R168: the winners of a round are served one after another, each once. -/
theorem serveWon (came : Nat → Nat) : ∀ {won : List Nat} (s : State), won.Nodup →
    MovesLines i p (moveWon won came s.profile.burstLimit) s (won.foldl (fun t r => t.serveLane i p r (came r)) s)
  | [], s, _ => refl i p s
  | r :: won, s, h => by
    obtain ⟨hr, hwon⟩ := List.nodup_cons.mp h
    have hserve := serveLane s i p r (came r)
    have hmoves := hserve.trans (serveWon came (s.serveLane i p r (came r)) hwon)
    rw [hserve.profile] at hmoves
    exact (funext fun k => funext (moveWon_cons hr came s.profile.burstLimit k)) ▸ hmoves

end MovesLines

/-! ### The round -/

/-- R166: the lanes that win a round of port SP`p` of slice `i`. -/
def State.roundWon (s : State) (i p : Nat) : List Nat :=
  (s.port i p).arb.winners s.profile.waitLimit (fun r => ((s.laneHead i p r).bind (·.cls)).getD 0) (s.portRequests i p)

/-- R166: wait, loss, hold and pointer of the port after that round. -/
def State.roundArb (s : State) (i p : Nat) : Arb :=
  (s.port i p).arb.after s.profile.waitLimit s.profile.backoffBase s.profile.backoffCap (s.portRequests i p) (s.roundWon i p)

/-- A round with a winner serves its winners. -/
theorem State.portRound_of_winners {s u : State} {i p : Nat} {late : List (Nat × Nat)} (hu : s.latchPort i p late = u)
    (hwon : u.roundWon i p ≠ []) :
    s.portRound i p late [] = (u.roundWon i p).foldl (fun t r => t.serveLane i p r (s.supplied i p r late))
      (u.modPort i p (fun x => { x with arb := u.roundArb i p })) := by
  unfold State.portRound
  dsimp only
  rw [hu]
  exact if_neg (by rwa [List.isEmpty_iff])

/-- R138: a round without a winner is the slot of the first refresh that waits there. -/
theorem State.portRound_of_no_winner {s t u : State} {i p : Nat} {late : List (Nat × Nat)} (hu : s.latchPort i p late = u)
    (hwon : u.roundWon i p = []) (ht : s.portRound i p late [] = t) :
    t = { u with slices := t.slices, ports := t.ports, power := t.power } ∧
      t.ports = modAt u.ports (4 * i + p) (fun x => { x with arb := u.roundArb i p, pendingRef := x.pendingRef.tail }) := by
  unfold State.portRound at ht
  dsimp only at ht
  rw [hu] at ht
  change (if (u.roundWon i p).isEmpty then _ else _) = t at ht
  rw [if_pos (List.isEmpty_iff.mpr hwon)] at ht
  split at ht
  · next b rest hpending =>
    subst ht
    refine ⟨rfl, (modAt_modAt _ _ u.ports _).trans (modAt_congr {} ?_)⟩
    change Port.mk _ _ rest = Port.mk _ _ (u.port i p).pendingRef.tail
    rw [hpending]
    rfl
  · next hpending =>
    subst ht
    refine ⟨rfl, modAt_congr {} ?_⟩
    change Port.mk _ _ (u.port i p).pendingRef = Port.mk _ _ (u.port i p).pendingRef.tail
    rw [hpending]
    rfl

theorem exec_portRound {s : State} {i p : Nat} (late : List (Nat × Nat)) (hi : i < 4) (hp : p < 4) (hrun : s.running = true) :
    exec (.portRound i p ⟨late, []⟩) s = .next (s.portRound i p late []) := by
  change execPortRound i p ⟨late, []⟩ s = _
  rw [execPortRound, if_neg (by omega), hrun, if_pos rfl]
  rfl

/-- Settles O23: the lines that come into their latches move none; a round with winners serves each once, one without does the first
refresh that waits. -/
theorem portRoundServesItsWinners : Obligations.PortRoundServesItsWinners := by
  unfold Obligations.PortRoundServesItsWinners
  intro s u i p late won hi hp _ hports hrun hu hwon
  have hlatch : MovesLines i p moveNone s u := hu ▸ .latchPort s i p late
  have hlanes : ∀ r, u.laneQueue r = s.laneQueue r := hlatch.lanes
  have hpending : (u.port i p).pendingRef = (s.port i p).pendingRef := hlatch.port_leaves Port.pendingRef (fun _ _ => rfl)
  have hplace : 4 * i + p < u.ports.length := by
    rw [hlatch.ports_length]
    omega
  have hround : u.roundArb i p = (u.port i p).arb.after s.profile.waitLimit s.profile.backoffBase s.profile.backoffCap
      (u.portRequests i p) won := by rw [State.roundArb, State.roundWon, hlatch.profile, hwon]
  have hwon : u.roundWon i p = won := by rw [State.roundWon, hlatch.profile, hwon]
  refine ⟨_, exec_portRound late hi hp hrun, ?_⟩
  generalize ht : s.portRound i p late [] = t
  rw [← hround]
  by_cases hnone : won = []
  · obtain ⟨hframe, htports⟩ := State.portRound_of_no_winner hu.symm (hwon.trans hnone) ht
    have hport : t.port i p = { u.port i p with arb := u.roundArb i p, pendingRef := (u.port i p).pendingRef.tail } := by
      rw [State.port, htports]
      exact State.modPort_port _ hplace
    refine ⟨by rw [hframe, hlatch.frame], by rw [hport], fun k hk => ?_, fun r _ => ?_, absurd hnone, fun _ => by rw [hport, hpending]⟩
    · rw [htports, getElem?_modAt_of_ne _ _ hk, hlatch.other_ports hk]
    · rw [hnone, if_neg List.not_mem_nil, ← hlanes]
      exact State.laneQueue_congr (by rw [hframe]) r
  · rw [State.portRound_of_winners hu.symm (hwon ▸ hnone), hwon] at ht
    have hserve := MovesLines.serveWon (i := i) (p := p) (s.supplied i p · late)
      (u.modPort i p (fun x => { x with arb := u.roundArb i p })) (hwon ▸ Arb.winners_nodup _ _ _ _ : won.Nodup)
    rw [ht] at hserve
    have harb := hserve.port_leaves Port.arb (fun _ _ => rfl)
    have href := hserve.port_leaves Port.pendingRef (fun _ _ => rfl)
    rw [State.modPort_port _ hplace] at harb href
    refine ⟨by rw [hserve.frame, State.modPort, hlatch.frame], harb, fun k hk => ?_, fun r _ => ?_, fun _ => ⟨?_, href.trans hpending⟩,
      fun h => absurd h hnone⟩
    · rw [hserve.other_ports hk, State.modPort, getElem?_modAt_of_ne _ _ hk, hlatch.other_ports hk]
    · rw [hserve.lanes, State.modPort_profile, hlatch.profile, ← hlanes]
      rfl
    · rw [hserve.frame, State.modPort, hlatch.frame]

end Sys2Proof.Machine
end

section
/-! SUPPORT. Proofs of the obligation on FNC, NTF and SPL: a routine whose pages are translated and whose accesses are classified waits for
neither, and an issued write joins the transactions of the fabric. -/
namespace Sys2Proof.Machine

/-! ### Pages and classes -/

/-- A step that leaves the accumulator for every member of a list leaves it over the list. -/
theorem foldl_eq_self {α β : Type} {f : β → α → β} {b : β} : ∀ {l : List α}, (∀ a ∈ l, f b a = b) → l.foldl f b = b
  | [], _ => rfl
  | a :: l, h => by
    rw [List.foldl_cons, h a List.mem_cons_self]
    exact foldl_eq_self (fun x hx => h x (List.mem_cons_of_mem a hx))

/-- R328, R500: a routine whose pages are translated waits for no translation. -/
theorem State.needPages_of_known {s : State} {c q : Nat} {j : Job} (hjob : s.jobOf c = some (q, j)) {ranges : List (Nat × Nat)}
    (h : ∀ a ∈ pagesOf ranges, j.pages.any (fun p => p.1 == a / 4096) = true) (write : Bool) : s.needPages q c write ranges = .go s := by
  unfold State.needPages
  dsimp only
  rw [foldl_eq_self (fun a ha => by simp only [hjob, h a ha, Bool.or_true, if_true])]
  rfl

/-- R481, Table 10.3: accesses that may all be made, and of which a switch holds none back, are classified at once. -/
theorem State.classifyAt_of_allowed {s : State} {doorbell : Bool} {places : List (Nat × Nat × Nat)}
    (hplace : ∀ p ∈ places, ((s.place p.2.1).plain || (doorbell && s.place p.2.1 == .notify)) = true)
    (hswitch : ∀ p ∈ places, s.inSwitchRange p.2.1 = false) (c : Nat) (info : FaultInfo) : s.classifyAt c doorbell places info = .go s := by
  have hheld : places.any (fun p => s.inSwitchRange p.2.1) = false := List.any_eq_false.mpr (fun p hp => by simp [hswitch p hp])
  have hbarred : places.find? (fun p => !((s.place p.2.1).plain || (doorbell && s.place p.2.1 == .notify))) = none :=
    List.find?_eq_none.mpr (fun p hp => by simp only [hplace p hp]; decide)
  rw [State.classifyAt, hheld, if_neg Bool.false_ne_true, hbarred]

/-- An aligned word of 8 bytes lies in one page. -/
theorem pieces_of_aligned_word {va : Nat} (h : va % 8 = 0) : pieces 4096 va 8 = [(va, 8)] := by
  have hroom : 8 ≤ 4096 - va % 4096 := by omega
  simp [pieces, splitAtUnit, hroom]

/-! ### The write of an NTF -/

/-- R227: the write of an NTF at an SPA, from the engine of quarter `q`. -/
def State.ntfWrite (s : State) (q c spa : Nat) (p : List Byte) : Txn :=
  { id := 0, master := q, target := s.targetOf spa, owner := .op c, kind := .write, spa := spa, len := 8, data := bytesAt p 16 8
    notify := s.place spa == .notify, seq := seqOf p, opc := 0x07, va := natAt p 8 6 }

/-- A posted transaction is the last of the fabric's, with its identity and its bus ID. -/
theorem State.post_txns (s : State) (x : Txn) :
    (s.post x).fabric.txns = s.fabric.txns ++ [{ x with id := s.fabric.nextId, bus := x.busId s.fabric.nextId }] := rfl

/-- R328: the writes of a routine that may all be made are classified, and the routine notes it. -/
theorem State.classifyWrites_noted {s : State} {c q : Nat} {j : Job} (hjob : s.jobOf c = some (q, j)) {doorbell : Bool}
    {ranges : List (Nat × Nat)}
    (hplace : ∀ p ∈ j.places ranges, ((s.place p.2.1).plain || (doorbell && s.place p.2.1 == .notify)) = true)
    (hswitch : ∀ p ∈ j.places ranges, s.inSwitchRange p.2.1 = false) :
    ∃ u, s.classifyWrites q c doorbell ranges = .go u ∧ u = { s with quarters := u.quarters } ∧
      u.jobOf c = some (q, { j with classified := true }) := by
  unfold State.classifyWrites
  rw [State.job_of_jobOf hjob]
  by_cases hdone : j.classified = true
  · exact ⟨s, if_pos hdone, rfl, by rw [hjob, ← hdone]⟩
  · rw [if_neg hdone, State.classify, State.job_of_jobOf hjob, State.classifyAt_of_allowed hplace hswitch]
    exact ⟨_, rfl, rfl, State.modJob_jobOf_of hjob⟩

/-- R227 to R230: an NTF whose page is translated, may be written and is held by no switch posts its write and is at its commit point. -/
theorem exec_ntf_of_placed {s : State} {c q : Nat} {j : Job} {op : Op} (hrun : s.Runs c q j op) (hopc : opcOf op.pkt = 0x07)
    (halign : natAt op.pkt 8 6 % 8 = 0) (hpage : j.pages.any (fun p => p.1 == natAt op.pkt 8 6 / 4096) = true)
    (hplace : ((s.place (j.spaOf (natAt op.pkt 8 6))).plain || s.place (j.spaOf (natAt op.pkt 8 6)) == .notify) = true)
    (hswitch : s.inSwitchRange (j.spaOf (natAt op.pkt 8 6)) = false) :
    ∃ u : State, u = { s with quarters := u.quarters } ∧ u.jobOf c = some (q, { j with classified := true }) ∧
      exec (.ntf c []) s = .next ((u.post (s.ntfWrite q c (j.spaOf (natAt op.pkt 8 6)) op.pkt)).toCommit q c
        (fun k => { k with issued := true, writesDone := 1 })) := by
  have hpieces := pieces_of_aligned_word halign
  have hpages : ∀ a ∈ pagesOf [(natAt op.pkt 8 6, 8)], j.pages.any (fun p => p.1 == a / 4096) = true := by
    simpa [pagesOf, hpieces] using hpage
  have hplaces : j.places [(natAt op.pkt 8 6, 8)] = [(natAt op.pkt 8 6, j.spaOf (natAt op.pkt 8 6), 8)] := by
    simp [Job.places, hpieces]
  obtain ⟨u, hu, hframe, hjob⟩ := State.classifyWrites_noted (doorbell := true) (ranges := [(natAt op.pkt 8 6, 8)]) hrun.job
    (by simpa [hplaces] using hplace) (by simpa [hplaces] using hswitch)
  refine ⟨u, hframe, hjob, ?_⟩
  change execNtf c [] s = _
  rw [execNtf, opCommand_nil hrun.ctx, hrun.runOp hopc]
  simp only [State.needPages_of_known hrun.job hpages, Prog.go_andThen, hu, Prog.state, State.job_of_jobOf hjob]
  rw [hframe]
  rfl

/-! ### FNC and SPL -/

/-- R212: an FNC waits for the accesses of its context, and then is at its commit point. -/
theorem exec_fnc {s : State} {c q : Nat} {j : Job} {op : Op} (hrun : s.Runs c q j op) (hopc : opcOf op.pkt = 0x06) :
    exec (.fnc c []) s = .next (if s.accessesPending c then s else s.toCommit q c id) := by
  change execFnc c [] s = _
  rw [execFnc, opCommand_nil hrun.ctx, hrun.runOp hopc]
  split <;> rfl

/-- R202, R209: the routine of an operation that runs, and meets no error, goes on with the body of its operation, whatever it does before
it meets the errors found. -/
theorem State.Runs.runOpWith {s : State} {c q : Nat} {j : Job} {op : Op} (h : s.Runs c q j op) {opc : Nat} (hopc : opcOf op.pkt = opc)
    (first : State → Nat → Job → Op → State) (body : State → Nat → Job → Op → Prog) :
    s.runOpWith opc c [] first body = (body s q j op).state := by
  obtain ⟨-, hhead, hleft, hjob, hkind, hgather, hsalt⟩ := h
  simp [State.runOpWith, State.applyAll, hhead, hleft, hjob, hkind, hgather, hsalt, hopc]

/-- R371, R372: an SPL of a context that holds no slot, or whose restore has not committed, is at its commit point. -/
theorem exec_spl_of_away {s : State} {c q : Nat} {j : Job} {op : Op} (hrun : s.Runs c q j op) (hopc : opcOf op.pkt = 0x03)
    (haway : (s.entry c).slot = none ∨ (s.entry c).restore.isSome = true) :
    exec (.spl c []) s = .next (s.toCommit q c (fun k => { k with len := 0 })) := by
  have htest : ((s.entry c).slot.isNone || (s.entry c).restore.isSome) = true := by
    obtain hslot | hrestore := haway
    · simp [hslot]
    · simp [hrestore]
  change execSpl c [] s = _
  rw [execSpl, opCommand_nil hrun.ctx, hrun.runOpWith hopc]
  simp only [htest, if_true, Prog.state]

/-- Settles O35: an FNC waits while an access is in flight, an NTF posts its one write, and an SPL of a context that is away writes nothing. -/
theorem fencesNotifiesAndEmptySpills : Obligations.FencesNotifiesAndEmptySpills := by
  unfold Obligations.FencesNotifiesAndEmptySpills
  intro s c q j op hrun
  refine ⟨fun hopc => ⟨fun hnone => ?_, fun hsome => ?_⟩, fun hopc halign hpage hplace hswitch => ?_, fun hopc haway => ?_⟩
  · have hexec : exec (.fnc c []) s = .next (s.toCommit q c id) := by rw [exec_fnc hrun hopc, hnone, if_neg Bool.false_ne_true]
    exact ⟨_, hexec, rfl, State.modJob_jobOf_of hrun.job⟩
  · rw [exec_fnc hrun hopc, hsome, if_pos rfl]
  · obtain ⟨u, hframe, hjob, hexec⟩ := exec_ntf_of_placed hrun hopc halign hpage (by simpa using hplace) hswitch
    have htxns : u.fabric.txns = s.fabric.txns := by rw [hframe]
    refine ⟨_, hexec, ?_, State.modJob_jobOf_of hjob, _, htxns ▸ u.post_txns _, rfl, rfl, rfl, rfl, rfl⟩
    rw [hframe]
    rfl
  · exact ⟨_, exec_spl_of_away hrun hopc haway, rfl, State.modJob_jobOf_of hrun.job⟩

end Sys2Proof.Machine
end

section
/-! SUPPORT. Proofs of the obligation on STT: an issue of writes adds them to the fabric in order, and a segment whose lines have been read
issues those of every tile that is left. -/
namespace Sys2Proof.Machine

/-! ### Lines that have been read -/

/-- With enough transfers made for all of them, every ordinal is ready. -/
theorem readyOrds_of_enough {cost : Nat → Nat} : ∀ {l : List Nat} {made : Nat}, (l.map cost).sum ≤ made → readyOrds cost made l = l
  | [], _, _ => rfl
  | o :: l, made, h => by
    rw [List.map_cons, List.sum_cons] at h
    rw [readyOrds, if_pos (by omega), readyOrds_of_enough (by omega)]

/-- A lane has nothing left to move for a routine whose transfers have been made. -/
theorem State.laneLeft_of_lanesDone {s : State} {q c : Nat} (h : s.lanesDone q c = true) (lane : Nat) :
    s.laneLeft q lane c .routine = 0 := by
  have hnone : ((s.quarter q).lanes.getD lane []).filter (fun r => r.ctx == c && r.use == .routine) = [] := by
    rw [State.lanesDone, State.lanesDoneFor, Bool.not_eq_true', List.any_eq_false] at h
    rw [List.getD_eq_getElem?_getD, List.filter_eq_nil_iff]
    cases hl : (s.quarter q).lanes[lane]? with
    | none => simp
    | some l =>
      have hl := h l (List.mem_of_getElem? hl)
      rwa [Bool.not_eq_true, List.any_eq_false] at hl
  rw [State.laneLeft, hnone]
  rfl

/-! ### Writes that are issued -/

/-- R327: the pieces of a list of writes that the routine `j` issues: VA, length, SPA and data of each. -/
def Job.writePieces (j : Job) (ws : List (Nat × List Byte)) : List (Nat × Nat × Nat × List Byte) :=
  (ws.map (fun w => (pieces 4096 w.1 w.2.length).map (fun p => (p.1, p.2, j.spaOf p.1, bytesAt w.2 (p.1 - w.1) p.2)))).flatten

/-- Writes of context `c` with these VAs, lengths, SPAs and data have joined the fabric, in order, and the context's routine on quarter `q`
has gone from `j` to `k`; nothing but quarters and fabric has changed. -/
structure State.Issued (s t : State) (q c : Nat) (j k : Job) (ps : List (Nat × Nat × Nat × List Byte)) : Prop where
  frame : t = { s with quarters := t.quarters, fabric := t.fabric }
  job : t.jobOf c = some (q, k)
  txns : ∃ xs, t.fabric.txns = s.fabric.txns ++ xs ∧ (∀ x ∈ xs, x.kind = .write ∧ x.owner = .op c ∧ x.state = .posted) ∧
    xs.map (fun x => (x.va, x.len, x.spa, x.data)) = ps

namespace State.Issued

variable {s t u : State} {q c : Nat} {j k l : Job} {ps qs : List (Nat × Nat × Nat × List Byte)}

theorem refl (h : s.jobOf c = some (q, j)) : s.Issued s q c j j [] :=
  ⟨rfl, h, [], (List.append_nil _).symm, (fun _ hx => absurd hx List.not_mem_nil), rfl⟩

theorem trans (h : s.Issued t q c j k ps) (h' : t.Issued u q c k l qs) : s.Issued u q c j l (ps ++ qs) := by
  obtain ⟨xs, hxs, hkind, hps⟩ := h.txns
  obtain ⟨ys, hys, hkind', hqs⟩ := h'.txns
  refine ⟨by rw [h'.frame, h.frame], h'.job, xs ++ ys, by rw [hys, hxs, List.append_assoc], fun x hx => ?_, ?_⟩
  · exact (List.mem_append.mp hx).elim (hkind x) (hkind' x)
  · rw [List.map_append, hps, hqs]

theorem post (h : s.jobOf c = some (q, j)) {x : Txn} (hkind : x.kind = .write) (howner : x.owner = .op c) (hstate : x.state = .posted) :
    s.Issued (s.post x) q c j j [(x.va, x.len, x.spa, x.data)] :=
  ⟨rfl, h, [_], s.post_txns x, fun _ hy => List.mem_singleton.mp hy ▸ ⟨hkind, howner, hstate⟩, rfl⟩

theorem modJob (h : s.Issued t q c j k ps) {f : Job → Job} (hf : ∀ k, (f k).ctx = k.ctx := by intro _; rfl) :
    s.Issued (t.modJob q c f) q c j (f k) ps := by
  refine ⟨?_, State.modJob_jobOf_of h.job hf, h.txns⟩
  rw [h.frame]
  rfl

/-- A list of issues, none of which changes the routine. -/
theorem foldl {α : Type} {f : State → α → State} {g : α → List (Nat × Nat × Nat × List Byte)}
    (hf : ∀ {s : State} (a : α), s.jobOf c = some (q, j) → s.Issued (f s a) q c j j (g a)) :
    ∀ (as : List α) {s : State}, s.jobOf c = some (q, j) → s.Issued (as.foldl f s) q c j j (as.map g).flatten
  | [], _, h => refl h
  | a :: as, _, h => (hf a h).trans (foldl hf as (hf a h).job)

end State.Issued

/-- R327: a list of writes is issued piece by piece. -/
theorem State.postWrites_issued {s : State} {q c : Nat} {j : Job} (h : s.jobOf c = some (q, j)) (op : Op) (ws : List (Nat × List Byte)) :
    s.Issued (s.postWrites q c op ws) q c j j (j.writePieces ws) := by
  refine State.Issued.foldl (fun w hw => ?_) ws h
  have hpieces := State.Issued.foldl (q := q) (c := c) (j := j)
    (f := fun (t : State) (p : Nat × Nat) => t.post {
      id := 0, master := q, target := t.targetOf ((t.job c).spaOf p.1), owner := .op c, kind := .write, spa := (t.job c).spaOf p.1, len := p.2
      data := bytesAt w.2 (p.1 - w.1) p.2, seq := seqOf op.pkt, opc := opcOf op.pkt, va := p.1 })
    (g := fun p => [(p.1, p.2, j.spaOf p.1, bytesAt w.2 (p.1 - w.1) p.2)])
    (fun p hp => by
      rw [State.job_of_jobOf hp]
      exact State.Issued.post hp rfl rfl rfl) (pieces 4096 w.1 w.2.length) hw
  rwa [← List.flatMap_def, ← List.map_eq_flatMap] at hpieces

/-! ### The tiles of a segment -/

/-- A routine that has issued the writes of tile `o` of its segment. -/
def Job.wrote (j : Job) (o : Nat) : Job := { j with issued := true, writesDone := o + 1 }

/-- R326: the writes of tile `o` of an STT are issued. -/
def State.issueTile (s : State) (q c : Nat) (op : Op) (o : Nat) : State :=
  (s.postWrites q c op (s.sttWrites q c [] (moveView op.pkt) (byteAt op.pkt 48) o)).modJob q c (fun j => j.wrote o)

/-- R327: the pieces of the writes of tile `o` of an STT. -/
def State.tilePieces (s : State) (q c : Nat) (op : Op) (j : Job) (o : Nat) : List (Nat × Nat × Nat × List Byte) :=
  j.writePieces (s.sttWrites q c [] (moveView op.pkt) (byteAt op.pkt 48) o)

/-- R326, R327: the writes of a list of tiles, in order; what a tile stores is read from slices, which no issue changes. -/
theorem State.foldl_issueTile {q c : Nat} (op : Op) : ∀ (ords : List Nat) {s : State} {j : Job}, s.jobOf c = some (q, j) →
    s.Issued (ords.foldl (fun t o => t.issueTile q c op o) s) q c j (ords.foldl Job.wrote j) (ords.map (s.tilePieces q c op j)).flatten
  | [], _, _, h => .refl h
  | o :: ords, s, j, h => by
    have htile : s.Issued (s.issueTile q c op o) q c j (j.wrote o) (s.tilePieces q c op j o) :=
      (State.postWrites_issued h op _).modJob
    have hpieces : (s.issueTile q c op o).tilePieces q c op (j.wrote o) = s.tilePieces q c op j := by
      rw [htile.frame]
      rfl
    have hrest := State.foldl_issueTile op ords htile.job
    rw [hpieces] at hrest
    exact htile.trans hrest

/-- The last tile of a segment that has tiles left is the last one issued. -/
theorem Job.foldl_wrote_writesDone (base : Nat) : ∀ (len : Nat) (j : Job), base ≤ j.writesDone → j.writesDone ≤ base + len →
    ((((List.range len).map (base + ·)).filter (fun o => decide (j.writesDone ≤ o))).foldl Job.wrote j).writesDone = base + len
  | 0, j, hlow, hhigh => Nat.le_antisymm hhigh hlow
  | len + 1, j, hlow, hhigh => by
    rw [List.range_succ, List.map_append, List.filter_append, List.foldl_append]
    by_cases hlast : j.writesDone ≤ base + len
    · simp [hlast, Job.wrote, Nat.add_assoc]
    · have hnone : ((List.range len).map (base + ·)).filter (fun o => decide (j.writesDone ≤ o)) = [] := by
        simp only [List.filter_eq_nil_iff, List.mem_map, List.mem_range, decide_eq_true_eq]
        omega
      simp only [hnone, List.map_cons, List.map_nil, List.filter_cons, List.filter_nil, decide_eq_true_eq, hlast, if_false, List.foldl_nil]
      omega

/-- R326: an STT whose lines have been read issues the writes of every tile of its segment that is left. -/
theorem State.sttIssue_of_read {s : State} {q c : Nat} {j : Job} (hjob : s.jobOf c = some (q, j)) (hclassified : j.classified = true)
    (hfetched : j.fetched = true) (hlanes : s.lanesDone q c = true) (op : Op) : s.sttIssue q c [] op (j.base + j.len) =
      (j.ordinals.filter (fun o => decide (j.writesDone ≤ o))).foldl (fun t o => t.issueTile q c op o) s := by
  have hbelow : ∀ o ∈ j.ordinals, o < j.base + j.len := by
    simp only [Job.ordinals, List.mem_map, List.mem_range]
    omega
  have htest : j.ordinals.filter (fun o => decide (j.writesDone ≤ o) && decide (o < j.base + j.len)) =
      j.ordinals.filter (fun o => decide (j.writesDone ≤ o)) :=
    List.filter_congr (fun o ho => by simp [hbelow o ho])
  unfold State.sttIssue
  dsimp only
  rw [State.job_of_jobOf hjob, hclassified, hfetched, State.laneLeft_of_lanesDone hlanes, Nat.sub_zero,
    readyOrds_of_enough (Nat.le_refl _), htest]
  rfl

/-- R326 to R328: a running STT whose pages are translated and classified and whose lines have been read is at its commit point once the
writes of every tile that is left are issued. -/
theorem exec_stt_of_read {s : State} {c q : Nat} {j : Job} {op : Op} (hrun : s.Runs c q j op) (hopc : opcOf op.pkt = 0x11)
    (hpages : ∀ a ∈ pagesOf ((j.ordinals.map (fun o =>
      (moveView op.pkt).storeRanges ((moveView op.pkt).tileAt o).1 ((moveView op.pkt).tileAt o).2)).flatten),
      j.pages.any (fun p => p.1 == a / 4096) = true)
    (hclassified : j.classified = true) (hfetched : j.fetched = true) (hlanes : s.lanesDone q c = true)
    (hlow : j.base ≤ j.writesDone) (hhigh : j.writesDone ≤ j.base + j.len) :
    ∃ u k, s.Issued u q c j k (((j.ordinals.filter (fun o => decide (j.writesDone ≤ o))).map (s.tilePieces q c op j)).flatten) ∧
      k.writesDone = j.base + j.len ∧ exec (.stt c []) s = .next (u.toCommit q c (fun j => { j with issued := true })) := by
  have hissued := State.foldl_issueTile op (j.ordinals.filter (fun o => decide (j.writesDone ≤ o))) hrun.job
  have hdone : ((j.ordinals.filter (fun o => decide (j.writesDone ≤ o))).foldl Job.wrote j).writesDone = j.base + j.len :=
    Job.foldl_wrote_writesDone j.base j.len j hlow hhigh
  refine ⟨_, _, hissued, hdone, ?_⟩
  change execStt c [] s = _
  rw [execStt, opCommand_nil hrun.ctx, hrun.runOpWith hopc]
  have hclass : ∀ ranges, s.classifyWrites q c false ranges = .go s := fun _ => if_pos (hrun.job_eq.symm ▸ hclassified)
  simp only [State.needPages_of_known hrun.job hpages, Prog.go_andThen, hclass, State.postOnce_of_fetched (hrun.job_eq.symm ▸ hfetched),
    State.sttIssue_of_read hrun.job hclassified hfetched hlanes, State.job_of_jobOf hissued.job, hdone, Nat.le_refl, decide_true,
    Prog.until_true, Prog.state]

/-- Settles O37: the writes of the tiles left join the fabric in order, and the last of them leaves the segment at its commit point. -/
theorem storesIssueTheirWritesInOrder : Obligations.StoresIssueTheirWritesInOrder := by
  unfold Obligations.StoresIssueTheirWritesInOrder
  intro s c q j op hrun hopc hpages hclassified hfetched hlanes hlow hhigh
  obtain ⟨u, k, hissued, hdone, hexec⟩ := exec_stt_of_read hrun hopc hpages hclassified hfetched hlanes hlow hhigh
  obtain ⟨xs, htxns, hkind, hmap⟩ := hissued.txns
  refine ⟨_, hexec, ?_, ⟨_, State.modJob_jobOf_of hissued.job, rfl, rfl, hdone⟩, xs, htxns, hkind, ?_⟩
  · rw [hissued.frame]
    rfl
  · rw [hmap, List.map_flatten, List.flatten_flatten, List.map_map, List.map_map]
    rfl

end Sys2Proof.Machine
end

section
/-! SUPPORT. Proofs of the obligation on LDT: a routine whose map and data have been read goes on with them, and stages the tiles that they
form. -/
namespace Sys2Proof.Machine

/-! ### Map and data at hand -/

/-- R238, R509: a view without a map, or whose map bytes the operation has read, goes on at once with the bits read. -/
theorem State.withMap_of_read {s : State} {c : Nat} {op : Op} {v : View} {tiles : List (Nat × Nat)}
    (hhead : (s.entry c).headOp = some op) (hread : op.MapRead v tiles) (q : Nat) (all : List (Nat × Nat))
    (k : State → (Nat → Nat → Bool) → Prog) : s.withMap q c v tiles all k = k s (op.residency v) := by
  unfold State.withMap
  cases hmap : v.rmen with
  | false =>
    rw [if_pos (by rfl)]
    congr 1
    funext a b
    rw [Op.residency, hmap]
    rfl
  | true =>
    obtain ⟨bs, hbits, hall⟩ := hread hmap
    have hwant : (v.mapBytes tiles).filter (fun a => !(bs.any (fun b => b.1 == a))) = [] :=
      List.filter_eq_nil_iff.mpr (fun a ha => by rw [hall a ha]; decide)
    have hres : op.residency v = fun a b =>
        bitAt (((bs.find? (fun p => p.1 == v.rmap + v.mapIndex a b / 8)).map (fun p => p.2.toNat)).getD 0) (v.mapIndex a b % 8) := by
      funext a b
      rw [Op.residency, hmap, hbits]
      rfl
    rw [if_neg (by decide), hres]
    simp only [hhead, Option.bind_some, hbits, hwant, Option.isSome_some, List.isEmpty_nil, Bool.and_self, if_true, Option.getD_some]

/-- What a routine notes of the poisoned chunks that it has read (R242). -/
def Job.notePoison (j : Job) (ps : List Piece) : Job :=
  { j with
    poisoned := (poisonedChunks ps).length, poisonSpa := ((poisonedChunks ps).headD (0, 0)).1
    poisonVa := ((poisonedChunks ps).headD (0, 0)).2 }

/-- R237, R242: a routine whose data has been read goes on with it, and notes its poisoned chunks. -/
theorem State.withData_of_atHand {s : State} {c q : Nat} {j : Job} (hjob : s.jobOf c = some (q, j)) (hasked : j.asked = true)
    {ranges : List (Nat × Nat)} {ps : List Piece} (h : s.AtHand c ranges ps) (k : State → List Piece → Prog) :
    s.withData q c ranges k = k (s.modJob q c (·.notePoison ps)) ps := by
  obtain ⟨⟨hpages, -⟩, hgather⟩ := h
  rw [State.job_of_jobOf hjob] at hpages
  unfold State.withData State.readRanges
  rw [State.needPages_of_known hjob hpages]
  simp only [Prog.go_andThen, State.job_of_jobOf hjob, hasked, if_true, hgather]
  rfl

theorem State.modJob_stagedLine (s : State) (q c d n : Nat) (f : Job → Job) : (s.modJob q c f).stagedLine d n = s.stagedLine d n := rfl

/-! ### The tiles of a segment -/

/-- Of the tiles of an LDT segment, destination and block tile, those that the residency bits leave a value. -/
def View.valued (v : View) (res : Nat → Nat → Bool) (tiles : List (Nat × Nat × Nat)) : List (Nat × Nat × Nat) :=
  tiles.filter (fun x => !v.structural res x.2.1 x.2.2)

/-- R237, R239: the value writes of an LDT segment: each tile with the rows formed from the pieces of its own bytes. -/
def View.loadedValues (v : View) (res : Nat → Nat → Bool) (ps : List Piece) (tiles : List (Nat × Nat × Nat)) : List (Nat × Tile) :=
  (v.valued res tiles).map (fun x => (x.1, v.formTile res (ps.filter (fun p =>
    (v.tileBytes res x.2.1 x.2.2).any (fun r => decide (r.1 ≤ p.va) && decide (p.va < r.1 + r.2)))) x.2.1 x.2.2))

/-- R240: its structural writes. -/
def View.loadedZeros (v : View) (res : Nat → Nat → Bool) (tiles : List (Nat × Nat × Nat)) : List StagedTile :=
  (tiles.filter (fun x => v.structural res x.2.1 x.2.2)).map (fun x => { tile := x.1, structural := true })

/-- R237 to R243, R325: an LDT whose map, data and lines are at hand stages its tiles, and is done with its data. -/
theorem exec_ldt_of_ready {s : State} {c q : Nat} {j : Job} {op : Op} {v : View} {res : Nat → Nat → Bool} {ps : List Piece}
    {tiles : List (Nat × Nat × Nat)} (hrun : s.Runs c q j op) (hopc : opcOf op.pkt = 0x10) (hv : v = moveView op.pkt)
    (hres : res = op.residency v) (htiles : tiles = j.ordinals.map (fun o => (byteAt op.pkt 48 + o, v.tileAt o)))
    (hmap : op.MapRead v (tiles.map (·.2))) (hasked : j.asked = true) (hdata : s.AtHand c ((tiles.map (fun x => v.tileBytes res x.2.1 x.2.2)).flatten) ps)
    (hready : s.LinesReady c q ((v.valued res tiles).map (·.1))) :
    exec (.ldt c []) s =
      .next (((s.modJob q c (·.notePoison ps)).stageTiles q c (v.loadedValues res ps tiles) (v.loadedZeros res tiles)).dropGot c) := by
  obtain ⟨hlines, hfetched, hlanes⟩ := hready
  rw [hrun.job_eq] at hfetched
  have hjob : (s.modJob q c (·.notePoison ps)).jobOf c = some (q, j.notePoison ps) := State.modJob_jobOf_of hrun.job
  have hstage := State.stageLines_of_staged (s := s.modJob q c (·.notePoison ps)) hlines q laneLsWrite kindLdw
  have hpost := State.postOnce_of_fetched (c := c) (s := s.modJob q c (·.notePoison ps)) (by rw [State.job_of_jobOf hjob]; exact hfetched) q
  have hmoved : (s.modJob q c (·.notePoison ps)).lanesDone q c = true := (s.modJob_lanesDone q c q c _).trans hlanes
  subst hv hres htiles
  change execLdt c [] s = _
  rw [execLdt, opCommand_nil hrun.ctx, hrun.runOp hopc]
  dsimp only
  rw [State.withMap_of_read hrun.head hmap, State.withData_of_atHand hrun.job hasked hdata]
  unfold View.valued at hstage
  simp only [hstage, Prog.go_andThen, hpost, hmoved, Prog.until_true, Prog.state]
  rfl

/-- Settles O36: what is at hand forms the tiles, and staging them notes each with its line. -/
theorem loadsStageTheTilesTheyForm : Obligations.LoadsStageTheTilesTheyForm := by
  unfold Obligations.LoadsStageTheTilesTheyForm
  intro s c q j op v res ps tiles hrun hopc hv hres htiles hmap hasked hdata hready
  have hjob : (s.modJob q c (·.notePoison ps)).jobOf c = some (q, j.notePoison ps) := State.modJob_jobOf_of hrun.job
  have hstaged := State.stageTiles_staged hjob (v.loadedValues res ps tiles) (v.loadedZeros res tiles)
  have hexec := exec_ldt_of_ready hrun hopc hv hres (hv ▸ htiles) hmap hasked hdata hready
  generalize (s.modJob q c (·.notePoison ps)).stageTiles q c (v.loadedValues res ps tiles) (v.loadedZeros res tiles) = t at hstaged hexec
  refine ⟨_, hexec, ?_, ?_, _, hstaged.job, rfl, rfl, ?_⟩
  · rw [hstaged.frame]
    rfl
  · rw [hstaged.frame]
    rfl
  · simp only [View.loadedValues, View.valued, View.loadedZeros, List.map_map, Function.comp_def, State.modJob_stagedLine]

end Sys2Proof.Machine
end

section
/-! SUPPORT. Proofs about what reports, charges, claims and binds leave: memory, time, routines, planes and lines, and every entry but for
its books. -/
namespace Sys2Proof.Machine

/-! ### A reading of every member of a list after an update -/

theorem map_reading {α β : Type} {g : α → β} {f : α → α} (hf : ∀ x, g (f x) = g x) (l : List α) : (l.map f).map g = l.map g := by
  simp [hf]

theorem zipIdx_map_reading {α β : Type} {g : α → β} {f : α × Nat → α} (hf : ∀ p, g (f p) = g p.1) (l : List α) :
    (l.zipIdx.map f).map g = l.map g := by
  have hfst : g ∘ f = g ∘ Prod.fst := funext hf
  rw [List.map_map, hfst, ← List.map_map, List.zipIdx_map_fst]

theorem modAt_reading {α β : Type} {g : α → β} {f : α → α} (hf : ∀ x, g (f x) = g x) :
    ∀ (l : List α) (i : Nat), (modAt l i f).map g = l.map g
  | [], _ => by simp [modAt]
  | _ :: _, 0 => by simp [modAt, hf]
  | _ :: l, i + 1 => by simp [modAt, modAt_reading hf l i]

/-! ### What is left -/

/-- What a quarter holds: its routines and its physical planes. -/
def Quarter.holdings (u : Quarter) : List Job × List PhysPlane := (u.jobs, u.planes)

/-- Memory, time, and what the dispatch of a routine reads (R348). -/
def State.base (s : State) : Hbm × Nat × Stores × Straps × Boot := (s.hbm, s.now, s.stores, s.straps, s.boot)

/-- R348: the errors that a routine meets at its dispatch are read from the base. -/
theorem State.atDispatch_congr {s t : State} (h : t.base = s.base) (d : Nat) (found : List Found) :
    t.atDispatch d found = s.atDispatch d found := by
  obtain ⟨-, -, hstores, hstraps, hboot⟩ : _ ∧ _ ∧ _ ∧ _ ∧ _ := by simpa only [State.base, Prod.mk.injEq] using h
  have hword : t.microWord d = s.microWord d := by simp only [State.microWord, hstraps, hboot]
  rw [State.atDispatch, State.atDispatch, hword, hstores]

/-- The base and the holdings of every quarter are left, and where `p` holds the slices. -/
structure KeepsParts (p : Prop) (s t : State) : Prop where
  base : t.base = s.base
  slices : p → t.slices = s.slices
  quarters : t.quarters.map Quarter.holdings = s.quarters.map Quarter.holdings

/-- An entry but for its books: what it has staged ahead, the salt and the records of a spill, its frames and charges, the numbers of its
records, its place among the candidates, and when it held a track last. -/
def Entry.unbooked (e : Entry) : Entry :=
  { e with
    ahead := none, salt := none, spillAt := 0, curFrame := none, frames := [], charges := [], overrunAt := [], ringCount := 0
    lastRecord := none, lastReport := none, candidate := none, waitTold := false, lastTrack := 0 }

/-- Those parts are left, and every entry but for its books. -/
structure KeepsBooks (p : Prop) (s t : State) : Prop extends KeepsParts p s t where
  entry : ∀ c, (t.entry c).unbooked = (s.entry c).unbooked

namespace KeepsParts

variable {p : Prop} {r s t : State}

theorem refl (p : Prop) (s : State) : KeepsParts p s s := ⟨rfl, fun _ => rfl, rfl⟩

theorem trans (h : KeepsParts p r s) (k : KeepsParts p s t) : KeepsParts p r t :=
  ⟨k.base.trans h.base, fun hp => (k.slices hp).trans (h.slices hp), k.quarters.trans h.quarters⟩

theorem hbm (h : KeepsParts p s t) : t.hbm = s.hbm := congrArg Prod.fst h.base

theorem now (h : KeepsParts p s t) : t.now = s.now := congrArg (fun b => b.2.1) h.base

theorem length (h : KeepsParts p s t) : t.quarters.length = s.quarters.length := by
  simpa using congrArg List.length h.quarters

theorem holdings (h : KeepsParts p s t) (q : Nat) : (t.quarter q).holdings = (s.quarter q).holdings := by
  have hread : ∀ u : State, (u.quarter q).holdings = (u.quarters.map Quarter.holdings).getD q ({} : Quarter).holdings := fun u => by
    rw [State.quarter, List.getD_eq_getElem?_getD, List.getD_eq_getElem?_getD, List.getElem?_map]
    cases u.quarters[q]? with
    | none => rfl
    | some u => rfl
  rw [hread, hread, h.quarters]

theorem jobs (h : KeepsParts p s t) (q : Nat) : (t.quarter q).jobs = (s.quarter q).jobs := congrArg Prod.fst (h.holdings q)

theorem planes (h : KeepsParts p s t) (q : Nat) : (t.quarter q).planes = (s.quarter q).planes := congrArg Prod.snd (h.holdings q)

theorem jobOf (h : KeepsParts p s t) (c : Nat) : t.jobOf c = s.jobOf c := State.jobOf_congr c h.jobs

/-- An update of entries. -/
theorem modEntry (h : KeepsParts p r s) (c : Nat) (f : Entry → Entry) : KeepsParts p r (s.modEntry c f) :=
  h.trans ⟨by simp [State.base], fun _ => by simp, by simp⟩

end KeepsParts

namespace KeepsBooks

variable {p : Prop} {r s t : State}

theorem refl (p : Prop) (s : State) : KeepsBooks p s s := ⟨.refl p s, fun _ => rfl⟩

theorem trans (h : KeepsBooks p r s) (k : KeepsBooks p s t) : KeepsBooks p r t :=
  ⟨h.toKeepsParts.trans k.toKeepsParts, fun c => (k.entry c).trans (h.entry c)⟩

/-- A reading of an entry that does not ask its books. -/
theorem entry_eq {α : Type} (h : KeepsBooks p s t) (c : Nat) (g : Entry → α) (hg : ∀ e, g e.unbooked = g e := by intro _; rfl) :
    g (t.entry c) = g (s.entry c) := by
  rw [← hg, ← hg (s.entry c), h.entry]

/-- An update of other parts of the state. -/
theorem update (h : KeepsBooks p r s) (hbase : t.base = s.base) (hslices : p → t.slices = s.slices)
    (hquarters : t.quarters.map Quarter.holdings = s.quarters.map Quarter.holdings) (hentries : t.entries = s.entries) : KeepsBooks p r t :=
  h.trans ⟨⟨hbase, hslices, hquarters⟩, fun c => by rw [State.entry, State.entry, hentries]⟩

theorem ite {a : Prop} {_ : Decidable a} (h : KeepsBooks p r s) (k : KeepsBooks p r t) : KeepsBooks p r (if a then s else t) := by
  split
  · exact h
  · exact k

theorem foldl {α : Type} {f : State → α → State} (hf : ∀ s a, KeepsBooks p r s → KeepsBooks p r (f s a)) :
    ∀ (l : List α) {s : State}, KeepsBooks p r s → KeepsBooks p r (l.foldl f s)
  | [], _, h => h
  | a :: l, s, h => foldl hf l (hf s a h)

theorem modEntry (h : KeepsBooks p r s) (d : Nat) {f : Entry → Entry} (hf : ∀ e, (f e).unbooked = e.unbooked := by intro _; rfl) :
    KeepsBooks p r (s.modEntry d f) :=
  h.trans ⟨(KeepsParts.refl p s).modEntry d f, fun c => s.modEntry_leaves Entry.unbooked c d hf⟩

theorem modQuarter (h : KeepsBooks p r s) (q : Nat) {f : Quarter → Quarter} (hf : ∀ u, (f u).holdings = u.holdings := by intro _; rfl) :
    KeepsBooks p r (s.modQuarter q f) :=
  h.update rfl (fun _ => rfl) (modAt_reading hf _ _) rfl

theorem modFabric (h : KeepsBooks p r s) (f : Fabric → Fabric) : KeepsBooks p r (s.modFabric f) := h.update rfl (fun _ => rfl) rfl rfl

/-! ### Records and reports -/

theorem recordLost (h : KeepsBooks p r s) (n : Nat) : KeepsBooks p r (s.recordLost n) := h.update rfl (fun _ => rfl) rfl rfl

theorem post (h : KeepsBooks p r s) (x : Txn) : KeepsBooks p r (s.post x) := h.modFabric _

theorem writeRecord (h : KeepsBooks p r s) (master : Nat) (owner : TxnOwner) (spa : Nat) (bytes : List Byte) (after : List Nat) :
    KeepsBooks p r (s.writeRecord master owner spa bytes after) := (h.post _).ite (h.recordLost 1)

theorem contextEvent (h : KeepsBooks p r s) (d code : Nat) (payload : List Byte) : KeepsBooks p r (s.contextEvent d code payload) :=
  ((h.writeRecord _ _ _ _ _).modEntry d).ite (h.recordLost 1)

theorem devicePart (h : KeepsBooks p r s) (code : Nat) (handle : Option Nat) (parts : Nat) (x : Nat × List Byte) :
    KeepsBooks p r (s.devicePart code handle parts x) := by
  have hwritten := fun spa bytes after => h.writeRecord masterEvw .device spa bytes after
  exact (h.recordLost 1).ite (KeepsBooks.ite ((hwritten _ _ _).update rfl (fun _ => rfl) rfl rfl) (h.recordLost 1))

theorem deviceEvent (h : KeepsBooks p r s) (code : Nat) (handle : Option Nat) (payload : List Byte) :
    KeepsBooks p r (s.deviceEvent code handle payload) :=
  foldl (fun _ _ k => k.devicePart _ _ _ _) _ h

theorem respond (h : KeepsBooks p r s) (d : Nat) (pkt : List Byte) (kind code count pepoch : Nat) (after : List Nat) :
    KeepsBooks p r (s.respond d pkt kind code count pepoch after) :=
  (h.writeRecord _ _ _ _ _).ite ((h.writeRecord _ _ _ _ _).modEntry d)

theorem writeProgress (h : KeepsBooks p r s) (d : Nat) (after : List Nat) : KeepsBooks p r (s.writeProgress d after) :=
  (h.writeRecord _ _ _ _ _).ite ((h.writeRecord _ _ _ _ _).modEntry d)

/-! ### Charges and claims -/

theorem chargeDl (h : KeepsBooks p r s) (d period n : Nat) (frame : Option Int) : KeepsBooks p r (s.chargeDl d period n frame) :=
  h.modEntry d (fun e => by split <;> rfl)

theorem noteOverrun (h : KeepsBooks p r s) (d period : Nat) : KeepsBooks p r (s.noteOverrun d period) := by
  unfold State.noteOverrun
  dsimp only
  refine KeepsBooks.ite ?_ h
  split
  · exact (h.modEntry d).contextEvent _ _ _
  · exact h

theorem endLatency (h : KeepsBooks p r s) (q least : Nat) : KeepsBooks p r (s.endLatency q least) := by
  unfold State.endLatency
  split
  · exact h
  · exact foldl (fun _ _ k => (k.chargeDl _ _ _ _).noteOverrun _ _) _ (h.modQuarter q)

theorem endClaims (h : KeepsBooks p r s) : KeepsBooks p r s.endClaims :=
  h.update rfl (fun _ => rfl) (zipIdx_map_reading (fun x => by split <;> rfl) _) rfl

/-! ### Work staged ahead -/

theorem postHeads (h : KeepsBooks p r s) : KeepsBooks p r s.postHeads := h.update rfl (fun _ => rfl) (map_reading (fun _ => by rfl) _) rfl

theorem dropRequests (h : KeepsBooks p r s) (a : LaneReq → Bool) : KeepsBooks p r (s.dropRequests a) :=
  KeepsBooks.postHeads (h.update rfl (fun _ => rfl) (map_reading (fun _ => by rfl) _) rfl)

/-- R284, R285: a context that has staged lines ahead gives them up; one that has not keeps the slices as they are. -/
theorem dropAhead (h : KeepsBooks p r s) {c : Nat} (hp : p → (s.entry c).ahead = none) : KeepsBooks p r (s.dropAhead c) := by
  unfold State.dropAhead
  by_cases hnone : (s.entry c).ahead.isNone = true
  · rw [if_pos hnone]
    exact h
  · rw [if_neg hnone]
    have hnp : ¬ p := fun hp' => hnone (by rw [hp hp']; rfl)
    refine KeepsBooks.modEntry ?_ c
    exact (h.dropRequests _).update rfl (fun hp' => absurd hp' hnp) rfl rfl

end KeepsBooks

end Sys2Proof.Machine
end

section
/-! SUPPORT. Proofs of the obligation on an operation that a content check refuses: it leaves its queue with a NAK, and nothing else of its
context, its quarter or memory changes. -/
namespace Sys2Proof.Machine

/-! ### Attached contexts -/

/-- Context `c` has an attach entry. -/
def State.Attached (s : State) (c : Nat) : Prop := (assocGet s.entries c).isSome = true

theorem State.attached_of_headOp {s : State} {c : Nat} {op : Op} (h : (s.entry c).headOp = some op) : s.Attached c := by
  unfold State.Attached
  cases he : assocGet s.entries c with
  | some e => rfl
  | none => simp [State.entry, he, Entry.headOp] at h

namespace State.Attached

variable {s : State} {c : Nat}

/-- The entry of an attached context is updated. -/
theorem modEntry_entry (h : s.Attached c) (f : Entry → Entry) : (s.modEntry c f).entry c = f (s.entry c) := by
  obtain ⟨e, he⟩ := Option.isSome_iff_exists.mp h
  have hentry : s.entry c = e := by rw [State.entry, he, Option.getD_some]
  rw [State.modEntry, he, hentry]
  exact (s.putEntry_entry c c (f e)).trans (if_pos rfl)

theorem modEntry (h : s.Attached c) (f : Entry → Entry) : (s.modEntry c f).Attached c := by
  obtain ⟨e, he⟩ := Option.isSome_iff_exists.mp h
  simp [State.Attached, State.modEntry, he, State.putEntry, assocGet_put]

end State.Attached

/-! ### The NAK at issue -/

/-- What a NAK changes of an entry: the count of NAKs, the progress, and how many operations are queued. -/
def Entry.account (e : Entry) : Nat × Nat × Nat := (e.naks, e.done, e.queue.length)

theorem retagFrom_length : ∀ (cur : Option Int) (ops : List Op), (retagFrom cur ops).length = ops.length
  | _, [] => rfl
  | cur, op :: ops => by
    unfold retagFrom
    split <;> simp [retagFrom_length _ ops]

theorem Entry.reframe_account (e : Entry) : e.reframe.account = e.account := by
  unfold Entry.reframe
  split
  · rfl
  · simp only [Entry.account, List.length_append, retagFrom_length]
    rw [← List.length_append, List.takeWhile_append_dropWhile]

/-- R204, R221: the queue without its first operation `op`, with its number as the progress and one more NAK. -/
def Entry.refused (e : Entry) (op : Op) : Entry :=
  { e with queue := e.queue.tail, done := seqOf op.pkt, naks := (e.naks + 1) % 65536 }

/-- R204, R219, R221: a NAK at issue takes the first operation from the queue; its reports change nothing but books. -/
theorem State.nakIssue_keeps {s : State} {c : Nat} {op : Op} (hhead : (s.entry c).headOp = some op) (code : Nat) (p : Prop) :
    ∃ u, KeepsParts p s u ∧ u.entry c = (s.entry c).refused op ∧ KeepsBooks p u (s.nakIssue c code) := by
  obtain ⟨rest, hqueue⟩ := List.head?_eq_some_iff.mp hhead
  have hattached := State.attached_of_headOp hhead
  refine ⟨(s.popOp c).modEntry c (fun e => { e with naks := (e.naks + 1) % 65536 }), ?_, ?_, ?_⟩
  · exact ((KeepsParts.refl p s).modEntry c _).modEntry c _
  · rw [State.popOp, (hattached.modEntry _).modEntry_entry, hattached.modEntry_entry, hqueue, Entry.refused, hqueue]
    rfl
  · unfold State.nakIssue
    rw [hqueue]
    exact ((KeepsBooks.refl p _).respond _ _ _ _ _ _ _).writeProgress _ _

/-! ### The refusal -/

/-- What a refusal of operation `op` gives up before its NAK: what was staged ahead; a dropped FRM opens its frame (R463), and a spill
gives up its salt (R407). -/
def State.beforeNak (s : State) (c code : Nat) (op : Op) : State :=
  let s0 := s.dropAhead c
  let s1 := if opcOf op.pkt = 0x05 ∧ code = Code.frameDropped then s0.openFrame c op else s0
  if opcOf op.pkt = 0x03 then s1.modEntry c (fun e => { e with salt := none, spillAt := 0 }) else s1

theorem State.beforeNak_keeps (s : State) (c code : Nat) (op : Op) :
    KeepsBooks ((s.entry c).ahead = none) s (s.beforeNak c code op) := by
  have hahead := (KeepsBooks.refl _ s).dropAhead (c := c) id
  unfold State.beforeNak
  refine KeepsBooks.ite (KeepsBooks.modEntry ?opened c) ?opened
  exact KeepsBooks.ite (hahead.modEntry c) hahead

theorem State.refuse_eq {s : State} {c : Nat} {op : Op} (hhead : (s.entry c).headOp = some op) (code : Nat) :
    s.refuse c code = ((((s.beforeNak c code op).nakIssue c code).modEntry c Entry.reframe).settle c).endClaims := by
  rw [State.refuse, hhead]
  rfl

/-- R200, R204, R207: a refusal keeps routines, planes, memory and time, and slices where nothing was staged ahead; of its context it takes
the first operation. -/
theorem State.refuse_keeps {s : State} {c : Nat} {op : Op} (hhead : (s.entry c).headOp = some op) (code : Nat) :
    KeepsParts ((s.entry c).ahead = none) s (s.refuse c code) ∧
      ((s.refuse c code).entry c).account = ((s.entry c).refused op).account := by
  rw [State.refuse_eq hhead]
  have hbefore := s.beforeNak_keeps c code op
  obtain ⟨u, hpopped, hentry, hreports⟩ := State.nakIssue_keeps (s := s.beforeNak c code op)
    ((hbefore.entry_eq c Entry.headOp).trans hhead) code ((s.entry c).ahead = none)
  generalize (s.beforeNak c code op).nakIssue c code = v at hreports
  have hclaims := (KeepsBooks.refl ((s.entry c).ahead = none) ((v.modEntry c Entry.reframe).settle c)).endClaims
  refine ⟨?_, ?_⟩
  · exact ((((hbefore.toKeepsParts.trans hpopped).trans hreports.toKeepsParts).modEntry c _).modEntry c _).trans hclaims.toKeepsParts
  · calc (((v.modEntry c Entry.reframe).settle c).endClaims.entry c).account
        = (((v.modEntry c Entry.reframe).settle c).entry c).account := hclaims.entry_eq c Entry.account
      _ = ((v.modEntry c Entry.reframe).entry c).account := State.modEntry_leaves _ Entry.account c c (fun e => by split <;> rfl)
      _ = (v.entry c).account := State.modEntry_leaves _ Entry.account c c Entry.reframe_account
      _ = (u.entry c).account := hreports.entry_eq c Entry.account
      _ = (((s.beforeNak c code op).entry c).refused op).account := by rw [hentry]
      _ = ((s.entry c).refused op).account := hbefore.entry_eq c (fun e => (e.refused op).account)

/-! ### The command -/

/-- The run of the routine of operation `o` of context `c`, as a function of the state. -/
def RunsRoutine (o c : Nat) (found : List Found) (f : State → State) : Prop := ∃ first body, ∀ s, f s = s.runOpWith o c found first body

theorem runsRoutine_runOp (o c : Nat) (found : List Found) (body : State → Nat → Job → Op → Prog) :
    RunsRoutine o c found (fun s => s.runOp o c found body) := ⟨_, body, fun _ => rfl⟩

theorem runsRoutine_runOpWith (o c : Nat) (found : List Found) (first : State → Nat → Job → Op → State)
    (body : State → Nat → Job → Op → Prog) : RunsRoutine o c found (fun s => s.runOpWith o c found first body) :=
  ⟨first, body, fun _ => rfl⟩

/-- An operation command runs the routine of its operation; those of SPL and STT issue writes before they meet errors (R345). -/
theorem exec_of_opCommandOf {i : Instr} {o c : Nat} {found : List Found} (h : opCommandOf i = some (o, c, found)) :
    ∃ f, RunsRoutine o c found f ∧ ∀ s, exec i s = opCommand c found (f s) := by
  unfold opCommandOf at h
  split at h <;> cases h
  case h_3 => exact ⟨_, runsRoutine_runOpWith _ _ _ _ _, fun _ => rfl⟩
  case h_8 => exact ⟨_, runsRoutine_runOpWith _ _ _ _ _, fun _ => rfl⟩
  all_goals exact ⟨_, runsRoutine_runOp _ _ _ _, fun _ => rfl⟩

/-- R204: a context that could start its first operation has it refused by the content check that it fails. -/
theorem State.CouldStart.beginSegment_of_refused {s : State} {c q code : Nat} {op : Op} (h : s.CouldStart c q op)
    (hcheck : s.issueCheck c op = some code) : s.beginSegment c = s.refuse c code := by
  obtain ⟨-, -, -, hfresh, -, -, -, hcould, htracks, hclaim⟩ := h
  simp [State.beginSegment, hcould, hclaim, htracks, hfresh, hcheck]

/-- An operation command of a context that runs nothing, and starts nothing, does no more. -/
theorem State.runOpWith_of_not_started {s t : State} {opc c : Nat} {op : Op} (hhead : (s.entry c).headOp = some op)
    (hleft : op.done = false) (hopc : opcOf op.pkt = opc) (hidle : s.jobOf c = none) (hbegin : s.beginSegment c = t)
    (hnone : t.jobOf c = none) (found : List Found) (first : State → Nat → Job → Op → State) (body : State → Nat → Job → Op → Prog) :
    s.runOpWith opc c found first body = t := by
  simp [State.runOpWith, hhead, hleft, hopc, hidle, hbegin, hnone]

/-- Settles O33: the command comes down to the refusal, which keeps all but its context's queue. -/
theorem refusedOperationsHaveNoEffect : Obligations.RefusedOperationsHaveNoEffect := by
  unfold Obligations.RefusedOperationsHaveNoEffect
  intro s i o c q code op hi hstart hopc hcheck
  obtain ⟨f, ⟨first, body, hf⟩, hexec⟩ := exec_of_opCommandOf hi
  obtain ⟨hkeep, haccount⟩ := State.refuse_keeps hstart.head code
  have hidle : (s.refuse c code).jobOf c = none := (hkeep.jobOf c).trans hstart.idle
  obtain ⟨rest, hqueue⟩ := List.head?_eq_some_iff.mp hstart.head
  simp only [Entry.account, Entry.refused, hqueue, List.tail_cons, Prod.mk.injEq] at haccount
  obtain ⟨hnaks, hdone, hlength⟩ := haccount
  refine ⟨s.refuse c code, ?_, hnaks, hdone, by rw [hlength, hqueue, List.length_cons], hidle, hkeep.hbm, hkeep.now, hkeep.planes,
    hkeep.slices⟩
  rw [hexec, opCommand_nil hstart.ctx, hf, State.runOpWith_of_not_started hstart.head hstart.left hopc hstart.idle
    (hstart.beginSegment_of_refused hcheck) hidle]

end Sys2Proof.Machine
end

section
/-! SUPPORT. Proofs of the obligation on the operations of one segment that needs no transfer: the start of the segment, and the run of its
routine. -/
namespace Sys2Proof.Machine

/-! ### The seven operations -/

/-- NOP, DET, FRM, AOP, ACL, ZRT and RLS. -/
def plainOpcodes : List Nat := [0x00, 0x02, 0x05, 0x20, 0x24, 0x13, 0x14]

/-- R253, R254: the tiles that the routine of such an operation stages: those of the range of a ZRT or an RLS. -/
def plainStaged (o : Nat) (p : List Byte) (before : List StagedTile) : List StagedTile :=
  if o = 0x13 ∨ o = 0x14 then (List.range (byteAt p 50 + 1)).map (fun d =>
    { tile := byteAt p 48 + d, structural := true, release := o == 0x14 }) else before

/-- A routine with those tiles staged. -/
def Job.stagePlain (o : Nat) (p : List Byte) (j : Job) : Job := { j with staged := plainStaged o p j.staged }

/-- The command of each of the seven, by its opcode. -/
def plainCommands (c : Nat) : List (Nat × Instr) :=
  [(0x00, .nop c []), (0x02, .det c []), (0x05, .frm c []), (0x20, .aop c []), (0x24, .acl c []), (0x13, .zrt c []), (0x14, .rls c [])]

/-- What the routine of such an operation does. -/
def plainBody (o c : Nat) (s : State) (q : Nat) (_ : Job) (op : Op) : Prog := .stop (s.toCommit q c (·.stagePlain o op.pkt))

theorem mem_plainOpcodes {o c : Nat} {i : Instr} (h : (o, i) ∈ plainCommands c) : o ∈ plainOpcodes :=
  List.mem_map_of_mem (f := Prod.fst) h

/-- R202: each of the seven stages its effects at once. -/
theorem exec_plain {o c : Nat} {i : Instr} (h : (o, i) ∈ plainCommands c) (s : State) :
    exec i s = opCommand c [] (s.runOp o c [] (plainBody o c)) := by
  simp only [plainCommands, List.mem_cons, Prod.mk.injEq, List.not_mem_nil, or_false] at h
  obtain ⟨rfl, rfl⟩ | ⟨rfl, rfl⟩ | ⟨rfl, rfl⟩ | ⟨rfl, rfl⟩ | ⟨rfl, rfl⟩ | ⟨rfl, rfl⟩ | ⟨rfl, rfl⟩ := h <;> rfl

/-- None of the seven needs a plane to be bound (R267), writes one, or is an SPL. -/
theorem ne_of_mem_plainOpcodes {o : Nat} (h : o ∈ plainOpcodes) : o ≠ 0x21 ∧ o ≠ 0x22 ∧ o ≠ 0x25 ∧ o ≠ 0x23 ∧ o ≠ 0x03 := by
  simp only [plainOpcodes, List.mem_cons, List.not_mem_nil, or_false] at h
  omega

theorem Entry.planeNeeded_of_plain {p : List Byte} (h : opcOf p ∈ plainOpcodes) (e : Entry) : e.planeNeeded p = none := by
  obtain ⟨hmma, hmms, hasd, hadr, -⟩ := ne_of_mem_plainOpcodes h
  simp [Entry.planeNeeded, hmma, hmms, hasd, hadr]

theorem State.askBind_of_plain {op : Op} (h : opcOf op.pkt ∈ plainOpcodes) (s : State) (q c : Nat) : s.askBind q c op = s := by
  obtain ⟨-, -, -, -, hspl⟩ := ne_of_mem_plainOpcodes h
  simp only [State.askBind, Entry.planeNeeded_of_plain h, if_neg hspl]

theorem State.checkpoint_of_plain {op : Op} (h : opcOf op.pkt ∈ plainOpcodes) (s : State) (q c : Nat) : s.checkpoint q c op = s := by
  obtain ⟨hmma, hmms, hasd, -, -⟩ := ne_of_mem_plainOpcodes h
  unfold State.checkpoint
  dsimp only
  split
  · exact if_neg (by simp [hmma, hmms, hasd])
  · rfl

/-! ### The start of a segment -/

/-- What the start of a segment does before it takes its tracks: it gives up lines staged ahead for another segment (R284), and a reserved
one ends the claim latency (R438). -/
def State.beforeStart (s : State) (q c : Nat) (op : Op) : State :=
  let ahead := (s.entry c).ahead.filter (fun a => a.base == op.ord && a.len == segmentLen op.pkt s.profile.segSteps op.ord)
  let sa := if ahead.isNone then s.dropAhead c else s
  if s.opReserved (s.entry c) op then sa.endLatency q 0 else sa

theorem State.beforeStart_keeps (s : State) (q c : Nat) (op : Op) :
    KeepsBooks ((s.entry c).ahead = none) s (s.beforeStart q c op) := by
  have hahead := (KeepsBooks.refl _ s).dropAhead (c := c) id
  unfold State.beforeStart
  refine KeepsBooks.ite (KeepsBooks.endLatency ?ahead q 0) ?ahead
  exact hahead.ite (.refl _ s)

/-- The routine with which a segment of operation `op` of context `c` starts at instant `t`. -/
structure Job.Fresh (k : Job) (c : Nat) (op : Op) (t : Nat) : Prop where
  ctx : k.ctx = c
  kind : k.kind = .op
  stage : k.stage = .gather
  salt : k.awaitsSalt = false
  staged : k.staged = []
  tracks : k.tracks = opcTracks (opcOf op.pkt)
  base : k.base = op.ord
  takenAt : k.takenAt = t

/-- R313: the segment of an operation that needs no plane takes its tracks: its routine joins those of the quarter, and the operation has
issued. -/
theorem State.startSegment_of_plain {op : Op} (h : opcOf op.pkt ∈ plainOpcodes) (s : State) (q c : Nat) :
    ∃ (k : Job) (f : Quarter → Quarter) (g : Op → Op),
      s.startSegment q c op = (((s.beforeStart q c op).modQuarter q f).modHeadOp c g).modEntry c (fun e => { e with state := .running }) ∧
      (∀ u, (f u).jobs = u.jobs ++ [k] ∧ (f u).planes = u.planes) ∧ (∀ x, (g x).pkt = x.pkt) ∧
      k.Fresh c op (s.beforeStart q c op).now := by
  unfold State.startSegment
  simp only [Entry.planeNeeded_of_plain h, Option.isSome_none, Bool.false_eq_true, if_false, State.checkpoint_of_plain h]
  exact ⟨_, _, _, rfl, fun _ => ⟨rfl, rfl⟩, fun _ => rfl, rfl, rfl, rfl, rfl, rfl, rfl, rfl, rfl⟩

/-- What only one member of a list gives is what the list gives. -/
theorem findSome?_of_unique {α : Type} {f : Nat → Option α} {q : Nat} {x : α} (hq : f q = some x) : ∀ {l : List Nat}, q ∈ l →
    (∀ p ∈ l, p ≠ q → f p = none) → l.findSome? f = some x
  | p :: l, hmem, hnone => by
    by_cases hp : p = q
    · rw [List.findSome?_cons, hp, hq]
    · rw [List.findSome?_cons, hnone p List.mem_cons_self hp]
      exact findSome?_of_unique hq ((List.mem_cons.mp hmem).resolve_left (Ne.symm hp)) (fun r hr => hnone r (List.mem_cons_of_mem p hr))

/-- The routine that a quarter takes is that of its context, which had none. -/
theorem State.modQuarter_jobOf_of_new {s : State} {q c : Nat} {k : Job} {f : Quarter → Quarter} (hq : q < 4) (hthere : q < s.quarters.length)
    (hidle : s.jobOf c = none) (hctx : k.ctx = c) (hf : (f (s.quarter q)).jobs = (s.quarter q).jobs ++ [k]) :
    (s.modQuarter q f).jobOf c = some (q, k) := by
  have hnone : ∀ p ∈ List.range 4, (s.quarter p).jobs.find? (fun j => j.ctx == c) = none := by
    simpa only [State.jobOf, List.findSome?_eq_none_iff, Option.map_eq_none_iff] using hidle
  refine findSome?_of_unique ?_ (List.mem_range.mpr hq) (fun p hp hpq => ?_)
  · rw [State.modQuarter_quarter s q f hthere, if_pos rfl, hf, List.find?_append, hnone q (List.mem_range.mpr hq)]
    simp [hctx]
  · rw [State.modQuarter_quarter s p f hthere, if_neg hpq, hnone p hp, Option.map_none]

/-- What the start of a segment of operation `op` comes to: the base and the planes are as before, and the slices where nothing was staged
ahead; the context runs, with a fresh routine on the quarter. -/
structure State.Started (s t : State) (q c : Nat) (op : Op) : Prop where
  base : t.base = s.base
  slices : (s.entry c).ahead = none → t.slices = s.slices
  planes : ∀ k, (t.quarter k).planes = (s.quarter k).planes
  state : (t.entry c).state = .running
  head : ∃ x, (t.entry c).headOp = some x ∧ x.pkt = op.pkt
  job : ∃ k : Job, t.jobOf c = some (q, k) ∧ k.Fresh c op s.now

/-- R202, R313, R330: the start of a segment that needs no plane, by a context that runs nothing. -/
theorem State.CouldStart.startSegment {s : State} {c q : Nat} {op : Op} (h : s.CouldStart c q op) (hplain : opcOf op.pkt ∈ plainOpcodes) :
    s.Started (s.startSegment q c op) q c op := by
  obtain ⟨k, f, g, heq, hf, hg, hfresh⟩ := State.startSegment_of_plain hplain s q c
  have hkeep := s.beforeStart_keeps q c op
  rw [hkeep.now] at hfresh
  rw [heq]
  generalize s.beforeStart q c op = u at hkeep
  have hhead : ((u.modQuarter q f).entry c).headOp = some op := (hkeep.entry_eq c Entry.headOp).trans h.head
  have hattached := State.attached_of_headOp hhead
  have hrunning : ((u.modQuarter q f).modHeadOp c g).Attached c := hattached.modEntry _
  have hparts : KeepsParts ((s.entry c).ahead = none) (u.modQuarter q f)
      (((u.modQuarter q f).modHeadOp c g).modEntry c (fun e => { e with state := .running })) :=
    KeepsParts.modEntry ((KeepsParts.refl _ _).modEntry c _) c _
  have hthere : q < u.quarters.length := by
    rw [hkeep.length, h.shape]
    exact h.quarter
  exact {
    base := hparts.base.trans hkeep.base
    slices := fun hnone => (hparts.slices hnone).trans (hkeep.slices hnone)
    planes := fun p => (hparts.planes p).trans ((u.modQuarter_leaves (·.planes) q p (fun x => (hf x).2)).trans (hkeep.planes p))
    state := by
      rw [hrunning.modEntry_entry]
    head := ⟨g op, (State.modEntry_leaves _ Entry.headOp c c (f := fun e => { e with state := .running }) (fun _ => rfl)).trans
      (State.modHeadOp_headOp g hhead), hg op⟩
    job := ⟨k, (hparts.jobOf c).trans (State.modQuarter_jobOf_of_new h.quarter hthere ((hkeep.jobOf c).trans h.idle) hfresh.ctx (hf _).1), hfresh⟩ }

/-- R202, R387: a context that could start, whose checks pass and whose turn it is, starts its segment. -/
theorem State.CouldStart.beginSegment_of_passed {s : State} {c q : Nat} {op : Op} (h : s.CouldStart c q op)
    (hplain : opcOf op.pkt ∈ plainOpcodes) (hcheck : s.issueCheck c op = none) (hturn : s.hasTurn q c op = true) :
    s.beginSegment c = s.startSegment q c op := by
  obtain ⟨-, -, -, hfresh, -, -, -, hcould, htracks, hclaim⟩ := h
  obtain ⟨-, -, -, -, hspl⟩ := ne_of_mem_plainOpcodes hplain
  have hstartable : s.startable c = some (q, op) := by
    simp [State.startable, hcould, Entry.planeNeeded_of_plain hplain, hspl, htracks, hclaim]
  simp [State.beginSegment, hcould, hclaim, htracks, hfresh, hcheck, State.askBind_of_plain hplain, hstartable, hturn]

/-- A context that starts a segment, and meets no error at its dispatch, goes on with the body of its operation. -/
theorem State.runOp_of_started {s t : State} {opc c q : Nat} {op : Op} (hhead : (s.entry c).headOp = some op) (hleft : op.done = false)
    (hopc : opcOf op.pkt = opc) (hidle : s.jobOf c = none) (hbegin : s.beginSegment c = t) (ht : s.Started t q c op)
    (hdispatch : s.atDispatch opc [] = []) (body : State → Nat → Job → Op → Prog) :
    ∃ k x, t.jobOf c = some (q, k) ∧ k.Fresh c op s.now ∧ x.pkt = op.pkt ∧ s.runOp opc c [] body = (body t q k x).state := by
  obtain ⟨k, hjob, hfresh⟩ := ht.job
  obtain ⟨x, hx, hpkt⟩ := ht.head
  refine ⟨k, x, hjob, hfresh, hpkt, ?_⟩
  have hmet : t.atDispatch opc [] = [] := (State.atDispatch_congr ht.base opc []).trans hdispatch
  simp [State.runOp, State.runOpWith, State.applyAll, hhead, hleft, hopc, hidle, hbegin, hjob, hx, hfresh.kind, hfresh.stage, hfresh.salt, hmet]

/-! ### The command -/

/-- A quarter without its routines. -/
def Quarter.idle (u : Quarter) : Quarter := { u with jobs := [] }

/-- An update of a routine changes nothing but routines in any quarter. -/
theorem State.modJob_quarter (s : State) (q c p : Nat) (f : Job → Job) :
    (s.modJob q c f).quarter p = { s.quarter p with jobs := ((s.modJob q c f).quarter p).jobs } :=
  congrArg (fun u : Quarter => { u with jobs := ((s.modJob q c f).quarter p).jobs })
    (s.modQuarter_leaves Quarter.idle q p (f := fun u => { u with jobs := u.jobs.map (fun j => if j.ctx = c then f j else j) }) (fun _ => rfl))

/-- An operation command does nothing where the context's first operation is another of Table 5.13, or has committed every segment. -/
theorem State.runOp_of_other {s : State} {opc c : Nat} {op : Op} (hhead : (s.entry c).headOp = some op)
    (h : op.done = true ∨ (opcOf op.pkt ≠ opc ∧ opcKnown (opcOf op.pkt) = true)) (found : List Found)
    (body : State → Nat → Job → Op → Prog) : s.runOp opc c found body = s := by
  have htest : (op.done || (opcOf op.pkt != opc && opcKnown (opcOf op.pkt))) = true := by
    obtain hdone | ⟨hopc, hknown⟩ := h
    · rw [hdone, Bool.true_or]
    · simp [hopc, hknown]
  simp [State.runOp, State.runOpWith, hhead, htest]

/-- Settles O34: the segment starts and is staged; a routine that runs is staged where it stands. -/
theorem plainOperationsStartAndStage : Obligations.PlainOperationsStartAndStage := by
  unfold Obligations.PlainOperationsStartAndStage
  intro s i o c q op hi
  refine ⟨fun hopc hstart hcheck hturn hdispatch => ?_, fun j hopc hrun => ?_, fun hc hhead hother => ?_⟩
  · have hplain : opcOf op.pkt ∈ plainOpcodes := hopc ▸ mem_plainOpcodes hi
    have hstarted := hstart.startSegment hplain
    obtain ⟨k, x, hjob, hfresh, hpkt, hrun⟩ := State.runOp_of_started hstart.head hstart.left hopc hstart.idle
      (hstart.beginSegment_of_passed hplain hcheck hturn) hstarted hdispatch (plainBody o c)
    have hexec : exec i s = .next ((s.startSegment q c op).toCommit q c (·.stagePlain o x.pkt)) := by
      rw [exec_plain hi, opCommand_nil hstart.ctx, hrun]
      rfl
    refine ⟨_, hexec, congrArg Prod.fst hstarted.base, congrArg (fun b => b.2.1) hstarted.base, hstarted.state, fun p => ?_,
      hstarted.slices, _, State.modJob_jobOf_of hjob, rfl, ?_⟩
    · exact (State.modJob_planes _ q c p _).trans (hstarted.planes p)
    · refine ⟨hfresh.tracks.trans (congrArg opcTracks hopc), hfresh.base, hfresh.takenAt, ?_⟩
      rw [← hpkt, ← hfresh.staged]
      rfl
  · have hexec : exec i s = .next (s.toCommit q c (·.stagePlain o op.pkt)) := by
      rw [exec_plain hi, opCommand_nil hrun.ctx, hrun.runOp hopc]
      rfl
    exact ⟨_, hexec, rfl, fun p => s.modJob_quarter q c p _, _, State.modJob_jobOf_of hrun.job, rfl⟩
  · rw [exec_plain hi, opCommand_nil hc, State.runOp_of_other hhead hother]

end Sys2Proof.Machine
end

section
/-! SUPPORT. The refutation of the obligation on completed operations. -/
namespace Sys2Proof.Machine

open Sys2Proof.Tests

/-! ### A context on a fifth quarter

The obligation does not ask for the four quarters of the device.  `State.jobOf` looks for a routine of a context on quarters 0 to 3 alone,
while the completion asks the quarter that the context's entry names.  Where that is a fifth one, a routine of the context on it goes
unseen, and the completion of the first operation, whose successor has the deadline claim, stops that routine's operation (R441). -/

/-- A NOP that has issued and committed. -/
def committedNop : Op := { pkt := packet 0 4 [], issued := true, done := true }

/-- The NOP after it, in a frame with a budget. -/
def framedNop : Op := { pkt := packet 0 5 [], frame := some 0 }

/-- A context of the deadline class that is resident on quarter 4, with the two operations in its queue. -/
def fifthQuarterEntry : Entry :=
  let e := resident 4 0 [committedNop, framedNop]
  { e with desc := { e.desc with cls := 1, budget := 1 } }

/-- That context on a device with five quarters, and a routine of it on the fifth. -/
def fiveQuarters : State :=
  { up with entries := [(5, fifthQuarterEntry)], quarters := up.quarters ++ [{ jobs := [{ ctx := 5, tracks := [] }] }] }

/-- The operation that stays in the queue after the completion is stopped, which the one that was there is not. -/
theorem fiveQuarters_operationComplete :
    answers (.operationComplete 5) fiveQuarters (fun t => (t.entry 5).queue.map (·.stopped) == [true]) = true := by
  decide +kernel

/-- Refutes O45: on a state with a fifth quarter the completion also stops the operation behind the one that leaves. -/
theorem not_completedOperationsLeaveTheQueue : ¬ Obligations.CompletedOperationsLeaveTheQueue := by
  unfold Obligations.CompletedOperationsLeaveTheQueue
  intro h
  obtain ⟨t, hnext, -, -, -, hqueue, -⟩ := (h fiveQuarters 5 committedNop (by decide) rfl).1 (by decide +kernel) rfl
  have hleft : (t.entry 5).queue = [framedNop] := hqueue (by decide) (by decide)
  have hstopped := fiveQuarters_operationComplete
  simp only [answers, hnext, hleft] at hstopped
  exact absurd hstopped (by decide)

end Sys2Proof.Machine
end

section
/-! SUPPORT. Proofs of the obligation on ATT: what its commit lets go on leaves the books of every entry aside, and a refusal frees the
context number. -/
namespace Sys2Proof.Machine

/-- An update of an entry leaves the others. -/
theorem State.modEntry_entry_of_ne (s : State) {c d : Nat} (f : Entry → Entry) (h : d ≠ c) : (s.modEntry c f).entry d = s.entry d := by
  unfold State.modEntry
  split
  · rw [State.putEntry_entry, if_neg h]
  · rfl

namespace KeepsBooks

variable {p : Prop} {r s t : State}

/-! ### Binds, claims and the rinse after a commit -/

theorem queueInternal (h : KeepsBooks p r s) (i : Internal) : KeepsBooks p r (s.queueInternal i) := h.ite (h.update rfl (fun _ => rfl) rfl rfl)

theorem bindPlane (h : KeepsBooks p r s) (q d pl : Nat) : KeepsBooks p r (s.bindPlane q d pl) := by
  unfold State.bindPlane
  refine h.ite ?_
  dsimp only
  split
  · exact h
  · split
    · exact h.ite (h.queueInternal _)
    · refine h.ite ?_
      split
      · exact (h.modQuarter q).queueInternal _
      · exact h.modQuarter q

theorem retryBinds (h : KeepsBooks p r s) (q : Nat) : KeepsBooks p r (s.retryBinds q) := foldl (fun _ _ k => k.bindPlane q _ _) _ h

theorem noteLatency (h : KeepsBooks p r s) (q least : Nat) : KeepsBooks p r (s.noteLatency q least) := (h.endLatency q least).ite h

theorem beginRelock (h : KeepsBooks p r s) : KeepsBooks p r s.beginRelock := by
  unfold State.beginRelock
  refine h.ite ?_
  exact KeepsBooks.ite (h.update rfl (fun _ => rfl) rfl rfl) (h.update rfl (fun _ => rfl) rfl rfl)

theorem rinseProgress (h : KeepsBooks p r s) : KeepsBooks p r s.rinseProgress := by
  have hready : KeepsBooks p r { s with switch := { s.switch with step := .ready } } := h.update rfl (fun _ => rfl) rfl rfl
  exact hready.beginRelock.ite h

theorem afterCommit (h : KeepsBooks p r s) (q : Nat) : KeepsBooks p r (s.afterCommit q) :=
  ((h.retryBinds q).noteLatency q 0).endClaims.rinseProgress

theorem makeCandidate (h : KeepsBooks p r s) (c : Nat) : KeepsBooks p r (s.makeCandidate c) :=
  KeepsBooks.ite ((h.modEntry c).update rfl (fun _ => rfl) rfl rfl) h

/-- An update that leaves the entry that it changes, but for its books. -/
theorem modEntryAt (h : KeepsBooks p r s) {c : Nat} {f : Entry → Entry} (hf : (f (s.entry c)).unbooked = (s.entry c).unbooked) :
    KeepsBooks p r (s.modEntry c f) := by
  refine h.trans ⟨(KeepsParts.refl p s).modEntry c f, fun d => ?_⟩
  by_cases hd : d = c
  · subst hd
    obtain he | he := s.modEntry_entry d d f
    · rw [he]
    · rw [he, hf]
  · rw [s.modEntry_entry_of_ne f hd]

/-- Table 8.3: a SPILLED context that holds no slot stays SPILLED. -/
theorem settle_of_spilled (h : KeepsBooks p r s) {c : Nat} (hstate : (s.entry c).state = .spilled) (hslot : (s.entry c).slot = none) :
    KeepsBooks p r (s.settle c) :=
  h.modEntryAt (by simp [hstate, hslot, Entry.unbooked])

end KeepsBooks

/-! ### An ATT that is refused -/

theorem assocGet_del {β : Type} (k : Nat) : ∀ l : List (Nat × β), assocGet (assocDel l k) k = none
  | [] => rfl
  | (k', v) :: rest => by
    have ih := assocGet_del k rest
    unfold assocDel at ih ⊢
    by_cases h : k' = k
    · simpa [h] using ih
    · simpa [h, assocGet] using ih

/-- R367: the entry that is freed is that of a number with no context. -/
theorem State.dropEntry_entry (s : State) (c : Nat) : (s.dropEntry c).entry c = {} := by
  simp only [State.entry, State.dropEntry, assocGet_del, Option.getD_none]

theorem State.dropEntry_jobs (s : State) (c q : Nat) : ((s.dropEntry c).quarter q).jobs = (s.quarter q).jobs := by
  have hjobs : (s.dropEntry c).quarters.map (·.jobs) = s.quarters.map (·.jobs) := map_jobs (fun _ => by rfl) _
  rw [State.quarter_jobs, State.quarter_jobs, hjobs]

/-- R360, R361: where an ATT is refused its routine is gone, the context number is free, and memory is as before. -/
theorem State.refuseAtt_frees {s : State} {c q : Nat} {j : Job} (h : s.jobOf c = some (q, j)) (pkt : List Byte) (code : Nat) :
    (∀ x ∈ ((s.refuseAtt c pkt code).quarter q).jobs, x.ctx ≠ c) ∧ ((s.refuseAtt c pkt code).entry c).att = none ∧
      ((s.refuseAtt c pkt code).entry c).state = .detached ∧ (s.refuseAtt c pkt code).hbm = s.hbm := by
  have heq : s.refuseAtt c pkt code = (((s.withdraw c).dropJob q c).dropEntry c).ringNak pkt code := by
    simp only [State.refuseAtt, h]
  have hring : KeepsBooks True (((s.withdraw c).dropJob q c).dropEntry c) (s.refuseAtt c pkt code) := by
    rw [heq]
    exact (KeepsBooks.refl _ _).deviceEvent _ _ _
  refine ⟨?_, ?_, ?_, hring.hbm⟩
  · rw [hring.jobs, State.dropEntry_jobs]
    exact State.dropJob_jobs
  · rw [hring.entry_eq c Entry.att, State.dropEntry_entry]
  · rw [hring.entry_eq c Entry.state, State.dropEntry_entry]

/-! ### The command -/

/-- R349, R351: the read of the descriptor of an ATT, and its checks once it has returned. -/
def State.readDescriptor (s : State) (c q : Nat) (j : Job) (pkt : List Byte) : State :=
  if !j.asked then
    (s.post { id := 0, master := masterSre, target := s.targetOf (attDspa pkt), owner := .record c, kind := .read, spa := attDspa pkt
              len := 256 }).modJob q c (fun j => { j with asked := true })
  else match s.descBytes c (attDspa pkt) with
  | none => s
  | some (b, bad) =>
    if bad then s.refuseAtt c pkt Code.descFault
    else match s.descCheck (parseDesc b (attDspa pkt)) with
    | some code => s.refuseAtt c pkt code
    | none => s.toCommit q c id

/-- Table 8.5: the checks of an ATT whose routine `j` runs on quarter `q`. -/
def State.checkAtt (s : State) (c q : Nat) (j : Job) (pkt : List Byte) : State :=
  if attReserved pkt then s.refuseAtt c pkt Code.fieldReserved
  else if attDspa pkt % 256 ≠ 0 then s.refuseAtt c pkt Code.descBad
  else if !(s.place (attDspa pkt)).plain then s.refuseAtt c pkt Code.descFault
  else s.readDescriptor c q j pkt

/-- An ATT without errors whose routine gathers makes its checks. -/
theorem exec_att {s : State} {c q : Nat} {j : Job} {pkt : List Byte} (hc : c < 512) (hatt : (s.entry c).att = some pkt)
    (hjob : s.jobOf c = some (q, j)) (hstage : j.stage = .gather) : exec (.att c []) s = .next (s.checkAtt c q j pkt) := by
  change execAtt c [] s = _
  have hgathers : (Stage.gather != Stage.gather) = false := rfl
  simp only [execAtt, if_neg (Nat.not_le.mpr hc), guardFound, List.find?_nil, hatt, hjob, Option.isSome_some, if_true, hstage, hgathers,
    Bool.false_eq_true, if_false, State.applyAll, List.foldl_nil, State.checkAtt, State.readDescriptor] <;> rfl

/-- An ATT whose fields and address are good goes on to the read of the descriptor. -/
theorem exec_att_of_good {s : State} {c q : Nat} {j : Job} {pkt : List Byte} (hc : c < 512) (hatt : (s.entry c).att = some pkt)
    (hjob : s.jobOf c = some (q, j)) (hstage : j.stage = .gather) (hfields : attReserved pkt = false) (haligned : attDspa pkt % 256 = 0)
    (hplain : (s.place (attDspa pkt)).plain = true) : exec (.att c []) s = .next (s.readDescriptor c q j pkt) := by
  rw [exec_att hc hatt hjob hstage]
  simp [State.checkAtt, hfields, haligned, hplain]

/-! ### The commit -/

/-- R362: the entry that an ATT fills from the bytes of its descriptor. -/
def attachedEntry (pkt b : List Byte) : Entry :=
  { state := .spilled, desc := parseDesc b (attDspa pkt), expSeq := (seqOf pkt + 1) % 65536, done := seqOf pkt }

/-- R198, R375: the commit of an ATT fills the entry; what follows keeps the books. -/
theorem State.commitAtt_entry {s : State} {c : Nat} {pkt b : List Byte} (hatt : (s.entry c).att = some pkt)
    (hread : s.descBytes c (attDspa pkt) = some (b, false)) :
    ((s.commitAtt c).entry c).unbooked = (attachedEntry pkt b).unbooked := by
  have hput : (((s.putEntry c (attachedEntry pkt b)).modFabric (fun f => { f with got := f.got.filter (fun g => g.owner != .record c) })).entry
      c) = attachedEntry pkt b := (s.putEntry_entry c c _).trans (if_pos rfl)
  rw [← hput]
  refine KeepsBooks.entry (p := True) ?_ c
  unfold State.commitAtt
  simp only [hatt, hread, Option.map_some, Option.getD_some]
  have hresp := fun n => ((KeepsBooks.refl True ((s.putEntry c (attachedEntry pkt b)).modFabric
    (fun f => { f with got := f.got.filter (fun g => g.owner != .record c) }))).respond c pkt respDone 0 0 n []).writeProgress c []
  exact KeepsBooks.ite (KeepsBooks.makeCandidate ((hresp _).ite (.refl _ _)) c) ((hresp _).ite (.refl _ _))

/-- R22, R324: the commit point of an ATT that does not yield: its routine is gone and the entry is that of the ATT. -/
theorem State.commitSegment_attach {s : State} {q held : Nat} {j : Job} {pkt b : List Byte} (hkind : j.kind = .attach)
    (hyield : j.yielding = false) (hatt : (s.entry j.ctx).att = some pkt) (hread : s.descBytes j.ctx (attDspa pkt) = some (b, false)) :
    ((s.commitSegment q held j).entry j.ctx).unbooked = (attachedEntry pkt b).unbooked ∧
      ∀ x ∈ ((s.commitSegment q held j).quarter q).jobs, x.ctx ≠ j.ctx := by
  have hcharge : ∀ (u : State) n, u.chargeSegment j.ctx j n = u := fun u n => by simp only [State.chargeSegment, hkind]
  have hfilled := State.commitAtt_entry (s := s.advanceTo (j.takenAt + s.cclkNs held)) hatt hread
  generalize hv : (((s.advanceTo (j.takenAt + s.cclkNs held)).commitAtt j.ctx).dropJob q j.ctx) = v
  have hvE : (v.entry j.ctx).unbooked = (attachedEntry pkt b).unbooked := by rw [← hv]; exact hfilled
  have hvJ : ∀ x ∈ (v.quarter q).jobs, x.ctx ≠ j.ctx := by rw [← hv]; exact State.dropJob_jobs
  have hnoted : ∀ n, KeepsBooks True v ((v.noteOverrun j.ctx j.period).modEntry j.ctx (fun e => { e with lastTrack := n })) := fun n =>
    ((KeepsBooks.refl True v).noteOverrun j.ctx j.period).modEntry j.ctx
  have hsettled : ∀ n, KeepsBooks True v (((v.noteOverrun j.ctx j.period).modEntry j.ctx (fun e => { e with lastTrack := n })).settle j.ctx) :=
    fun n => (hnoted n).settle_of_spilled (((hnoted n).entry_eq _ Entry.state).trans (congrArg Entry.state hvE))
      (((hnoted n).entry_eq _ Entry.slot).trans (congrArg Entry.slot hvE))
  have hend : KeepsBooks True v (s.commitSegment q held j) := by
    unfold State.commitSegment
    dsimp only
    rw [State.yielded_of_not_yielding _ _ hyield, if_neg (by simp [hyield]), hcharge]
    simp only [State.commitJob, hkind, hv]
    rw [State.takeRebind_of_none (((hsettled _).entry_eq _ Entry.rebindTo).trans (congrArg Entry.rebindTo hvE))]
    exact (hsettled _).afterCommit q
  exact ⟨(hend.entry j.ctx).trans hvE, by rw [hend.jobs]; exact hvJ⟩

/-- A routine of a context stands on one of the four quarters, and is that context's. -/
theorem State.place_of_jobOf {s : State} {c q : Nat} {j : Job} (h : s.jobOf c = some (q, j)) : q < 4 ∧ j.ctx = c := by
  obtain ⟨p, hp, hfound⟩ := List.exists_of_findSome?_eq_some h
  obtain ⟨k, hk, heq⟩ := Option.map_eq_some_iff.mp hfound
  cases heq
  exact ⟨List.mem_range.mp hp, by simpa using List.find?_some hk⟩

/-- Settles O46: the checks of the ATT one after another, and its commit. -/
theorem attachFillsItsEntry : Obligations.AttachFillsItsEntry := by
  unfold Obligations.AttachFillsItsEntry
  intro s c q j pkt hc hatt hdetached hjob
  refine ⟨fun hstage hfields => ?_, fun hstage hfields haligned hplain => ?_, fun tr held b htr hkind hyield hfind hread => ?_⟩
  · refine ⟨_, exec_att hc hatt hjob hstage, ?_⟩
    rw [State.checkAtt, if_pos hfields]
    exact State.refuseAtt_frees hjob pkt _
  · have hexec := exec_att_of_good hc hatt hjob hstage hfields haligned hplain
    refine ⟨fun hasked => ⟨_, hexec, ?_⟩, fun hasked hread => ?_, fun b hasked hread hcheck => ⟨_, hexec, ?_⟩,
      fun b code hasked hread hcheck => ⟨_, hexec, ?_⟩⟩
    · simp only [State.readDescriptor, hasked, Bool.not_false, if_true]
      exact ⟨rfl, State.modJob_jobOf_of hjob, _, s.post_txns _, rfl, rfl, rfl, rfl⟩
    · rw [hexec]
      simp [State.readDescriptor, hasked, hread]
    · have hpassed : s.readDescriptor c q j pkt = s.toCommit q c id := by simp [State.readDescriptor, hasked, hread, hcheck]
      rw [hpassed]
      exact ⟨rfl, State.modJob_jobOf_of hjob⟩
    · have hrefused : s.readDescriptor c q j pkt = s.refuseAtt c pkt code := by simp [State.readDescriptor, hasked, hread, hcheck]
      rw [hrefused]
      exact State.refuseAtt_frees hjob pkt code
  · obtain ⟨hq, rfl⟩ := State.place_of_jobOf hjob
    obtain ⟨hentry, hgone⟩ := State.commitSegment_attach (q := q) (held := held) hkind hyield hatt hread
    refine ⟨_, exec_segmentCommit_of_job hq htr hfind, ?_⟩
    generalize s.commitSegment q held j = t at hentry hgone
    exact ⟨congrArg Entry.state hentry, congrArg Entry.desc hentry, congrArg Entry.expSeq hentry, congrArg Entry.done hentry,
      congrArg Entry.queue hentry, congrArg Entry.slot hentry, hgone⟩

end Sys2Proof.Machine
end

section
/-! SUPPORT. Proofs of the obligation on the vector operations: the thirteen commands are two routines, and a routine whose reads are made
stages its results. -/
namespace Sys2Proof.Machine

/-! ### The thirteen commands -/

/-- Table 6.7: the operations with one output tile for each ordinal, by opcode. -/
def elementCommands (c : Nat) : List (Nat × Instr) :=
  [(0x30, .vad c []), (0x31, .vmu c []), (0x32, .vmx c []), (0x33, .vmn c []), (0x34, .vsc c []), (0x35, .vex c []), (0x36, .vrc c []),
    (0x37, .vrs c []), (0x39, .vtr c []), (0x3A, .vrq c [])]

/-- §6.10: the row operations, by opcode. -/
def rowCommands (c : Nat) : List (Nat × Instr) := [(0x38, .vrr c []), (0x40, .smx c []), (0x41, .nrm c [])]

theorem mem_elementwise {o c : Nat} {i : Instr} (h : (o, i) ∈ elementCommands c) : o ∈ elementwise :=
  List.mem_map_of_mem (f := Prod.fst) h

theorem not_mem_elementwise {o c : Nat} {i : Instr} (h : (o, i) ∈ rowCommands c) : o ∉ elementwise := by
  have ho : o ∈ [0x38, 0x40, 0x41] := List.mem_map_of_mem (f := Prod.fst) h
  simp only [List.mem_cons, List.not_mem_nil, or_false] at ho
  simp only [elementwise, List.mem_cons, List.not_mem_nil, or_false]
  omega

/-- R297: the ten element-wise commands run one routine. -/
theorem exec_element {o c : Nat} {i : Instr} (h : (o, i) ∈ elementCommands c) (s : State) :
    exec i s = opCommand c [] (s.vecElem o c []) := by
  simp only [elementCommands, List.mem_cons, Prod.mk.injEq, List.not_mem_nil, or_false] at h
  obtain ⟨rfl, rfl⟩ | ⟨rfl, rfl⟩ | ⟨rfl, rfl⟩ | ⟨rfl, rfl⟩ | ⟨rfl, rfl⟩ | ⟨rfl, rfl⟩ | ⟨rfl, rfl⟩ | ⟨rfl, rfl⟩ |
    ⟨rfl, rfl⟩ | ⟨rfl, rfl⟩ := h <;> rfl

/-- R303 to R305: the three row commands run one routine, each with the output of its operation. -/
theorem exec_row {o c : Nat} {i : Instr} (h : (o, i) ∈ rowCommands c) (s : State) :
    ∃ out : List Byte → (Nat → Tile) → Nat → VecOut,
      (∀ p, opcOf p = o → out p = rowOutOf p) ∧ exec i s = opCommand c [] (s.vecRow o c [] out) := by
  simp only [rowCommands, List.mem_cons, Prod.mk.injEq, List.not_mem_nil, or_false] at h
  obtain ⟨rfl, rfl⟩ | ⟨rfl, rfl⟩ | ⟨rfl, rfl⟩ := h <;>
    exact ⟨_, fun p hp => by funext read x; simp [rowOutOf, hp], rfl⟩

/-- The output of ordinal `x` of operation `o` (Table 6.7, §6.10). -/
def vecOutOf (o : Nat) (p : List Byte) (read : Nat → Tile) (x : Nat) : VecOut :=
  if o ∈ elementwise then elemOut p read x else rowOutOf p read x

theorem vecOutOf_of_mem {o : Nat} (h : o ∈ elementwise) : vecOutOf o = elemOut := by
  funext p read x
  exact if_pos h

theorem vecOutOf_of_not_mem {o : Nat} (h : o ∉ elementwise) : vecOutOf o = rowOutOf := by
  funext p read x
  exact if_neg h

/-- A vector command of a routine that runs is its segment. -/
theorem exec_vector {s : State} {i : Instr} {o c q : Nat} {j : Job} {op : Op} (hi : (o, i) ∈ elementCommands c ++ rowCommands c)
    (hopc : opcOf op.pkt = o) (hrun : s.Runs c q j op) : ∃ reads,
      exec i s = .next (s.vecSegment q c reads (j.ordinals.map (vecOutOf o op.pkt (s.readTile c)))).state := by
  have hread : s.readFor q c [] = s.readTile c := funext (s.readFor_nil q c)
  obtain he | hr := List.mem_append.mp hi
  · refine ⟨elemReads op.pkt j.ordinals, ?_⟩
    rw [exec_element he, opCommand_nil hrun.ctx, State.vecElem, hrun.runOp hopc, vecOutOf_of_mem (mem_elementwise he), hread]
  · obtain ⟨out, hout, hexec⟩ := exec_row hr s
    refine ⟨rowReads op.pkt j.ordinals, ?_⟩
    rw [hexec, opCommand_nil hrun.ctx, State.vecRow, hrun.runOp hopc, vecOutOf_of_not_mem (not_mem_elementwise hr), hread, hout _ hopc]

/-! ### The segment -/

/-- R297, R308: a vector segment whose reads are asked for, and whose lines and transfers are there, stages its outputs and notes what they
raised. -/
theorem State.vecSegment_of_ready {s : State} {c q : Nat} {j : Job} (hjob : s.jobOf c = some (q, j)) (hasked : j.asked = true)
    (outs : List VecOut) (hready : s.LinesReady c q ((outs.map (fun x => x.tiles.map (·.1))).flatten)) (reads : List Nat) :
    (s.vecSegment q c reads outs).state = (s.stageTiles q c (outs.map (·.tiles)).flatten []).modJob q c
      (fun k => { k with accRange := outs.any (·.range), vecDomain := outs.any (·.domain) }) := by
  obtain ⟨hlines, hfetched, hlanes⟩ := hready
  have hposted : (s.job c).asked = true := (congrArg Job.asked (State.job_of_jobOf hjob)).trans hasked
  simp only [State.vecSegment, hposted, if_true, State.stageLines_of_staged hlines, Prog.go_andThen, State.postOnce_of_fetched hfetched,
    hlanes, Prog.until_true, Prog.state]

/-- Settles O40: the command is its segment, which stages the outputs. -/
theorem vectorOperationsStageTheirResults : Obligations.VectorOperationsStageTheirResults := by
  unfold Obligations.VectorOperationsStageTheirResults
  intro s i o c q j op outs hi hopc hrun hasked houts hready
  obtain ⟨reads, hexec⟩ := exec_vector hi hopc hrun
  have hsegment : exec i s = .next (s.vecSegment q c reads outs).state := houts ▸ hexec
  rw [State.vecSegment_of_ready hrun.job hasked outs hready] at hsegment
  have hstaged := State.stageTiles_staged hrun.job (outs.map (·.tiles)).flatten []
  have hjob := State.modJob_jobOf_of hstaged.job
    (f := fun k => { k with accRange := outs.any (·.range), vecDomain := outs.any (·.domain) })
  refine ⟨_, hsegment, ?_, ⟨_, hjob, rfl, rfl⟩, _, hjob, rfl, List.append_nil _⟩
  unfold State.modJob State.modQuarter
  rw [hstaged.frame]

end Sys2Proof.Machine
end

section
/-! SUPPORT. Proofs of the commit of an operation's segment: what its reports, charges and binds leave of slices, quarters and entries, and
the state of its tiles and planes from which they start. -/
namespace Sys2Proof.Machine

/-! ### What is left of the quarters -/

/-- A quarter but for its routines, the binds and claims that wait for them, and the contexts that wrote its planes. -/
def Quarter.unclaimed (u : Quarter) : Quarter :=
  { u with
    jobs := [], parkChosen := none, parkFor := none, parkSince := none, bindWaits := []
    claim := false, claimAt := none, claimFor := [], planeWriters := [] }

/-- The quarters but for those. -/
def State.unclaimed (s : State) : List Quarter := s.quarters.map Quarter.unclaimed

theorem State.unclaimed_congr {s t : State} (h : t.quarters = s.quarters) : t.unclaimed = s.unclaimed :=
  congrArg (List.map Quarter.unclaimed) h

theorem State.modQuarter_unclaimed (s : State) (q : Nat) {f : Quarter → Quarter} (hf : ∀ u, (f u).unclaimed = u.unclaimed) :
    (s.modQuarter q f).unclaimed = s.unclaimed := modAt_reading hf s.quarters q

@[simp] theorem State.contextEvent_quarters (s : State) (c code : Nat) (payload : List Byte) :
    (s.contextEvent c code payload).quarters = s.quarters := by
  unfold State.contextEvent
  dsimp only
  split
  · rw [State.modEntry_quarters, State.writeRecord]
    split <;> rfl
  · rfl

@[simp] theorem State.chargeDl_quarters (s : State) (c period n : Nat) (frame : Option Int) :
    (s.chargeDl c period n frame).quarters = s.quarters := s.modEntry_quarters c _

@[simp] theorem State.chargeSegment_quarters (s : State) (c : Nat) (j : Job) (n : Nat) : (s.chargeSegment c j n).quarters = s.quarters := by
  unfold State.chargeSegment
  dsimp only
  split
  · split <;> simp
  · split <;> simp
  · rfl

@[simp] theorem State.noteOverrun_quarters (s : State) (c p : Nat) : (s.noteOverrun c p).quarters = s.quarters := by
  unfold State.noteOverrun
  dsimp only
  split
  · split <;> simp
  · rfl

theorem State.queueInternal_quarters (s : State) (i : Internal) : (s.queueInternal i).quarters = s.quarters := by
  unfold State.queueInternal
  split <;> rfl

/-- R267, R268: a bind that is tried is queued or waits. -/
theorem State.bindPlane_unclaimed (s : State) (q c pl : Nat) : (s.bindPlane q c pl).unclaimed = s.unclaimed := by
  have hqueue : ∀ (t : State) i, (t.queueInternal i).unclaimed = t.unclaimed :=
    fun t i => State.unclaimed_congr (t.queueInternal_quarters i)
  unfold State.bindPlane
  dsimp only
  split
  · rfl
  · split
    · rfl
    · split
      · split
        · rfl
        · exact hqueue _ _
      · split
        · rfl
        · split
          · exact (hqueue _ _).trans (s.modQuarter_unclaimed q (fun _ => rfl))
          · exact s.modQuarter_unclaimed q (fun _ => rfl)

/-- A run of steps that each leave the quarters. -/
theorem foldl_unclaimed {α : Type} {f : State → α → State} (hf : ∀ s a, (f s a).unclaimed = s.unclaimed) :
    ∀ (l : List α) (s : State), (l.foldl f s).unclaimed = s.unclaimed
  | [], _ => rfl
  | a :: l, s => (foldl_unclaimed hf l (f s a)).trans (hf s a)

theorem State.endLatency_unclaimed (s : State) (q least : Nat) : (s.endLatency q least).unclaimed = s.unclaimed := by
  unfold State.endLatency
  split
  · rfl
  · exact (foldl_unclaimed (fun t c => State.unclaimed_congr (by simp)) _ _).trans (s.modQuarter_unclaimed q (fun _ => rfl))

theorem State.noteLatency_unclaimed (s : State) (q least : Nat) : (s.noteLatency q least).unclaimed = s.unclaimed := by
  unfold State.noteLatency
  split
  · exact s.endLatency_unclaimed q least
  · rfl

theorem State.endClaims_unclaimed (s : State) : s.endClaims.unclaimed = s.unclaimed :=
  zipIdx_map_reading (fun p => by split <;> rfl) s.quarters

theorem State.rinseProgress_quarters (s : State) : s.rinseProgress.quarters = s.quarters := by
  unfold State.rinseProgress State.beginRelock
  dsimp only
  split
  · split
    · rfl
    · split <;> rfl
  · rfl

/-- R268: the binds that wait are tried. -/
theorem State.retryBinds_unclaimed (s : State) (q : Nat) : (s.retryBinds q).unclaimed = s.unclaimed :=
  foldl_unclaimed (fun t (b : Nat × Nat) => t.bindPlane_unclaimed q b.1 b.2) _ s

/-- R268, R438, R449: what a commit point lets go on changes binds and claims alone of a quarter. -/
theorem State.afterCommit_unclaimed (s : State) (q : Nat) : (s.afterCommit q).unclaimed = s.unclaimed := by
  unfold State.afterCommit
  rw [State.unclaimed_congr (State.rinseProgress_quarters _), State.endClaims_unclaimed, State.noteLatency_unclaimed,
    State.retryBinds_unclaimed]

/-! ### What is left of slices, quarters and entries -/

theorem KeepsBooks.chargeSegment {p : Prop} {r s : State} (h : KeepsBooks p r s) (d : Nat) (j : Job) (n : Nat) :
    KeepsBooks p r (s.chargeSegment d j n) := by
  unfold State.chargeSegment
  dsimp only
  split
  · exact (h.chargeDl _ _ _ _).ite h
  · exact (h.chargeDl _ _ _ _).ite h
  · exact h

/-- An entry but for its books, its operations, and what its routines show of it. -/
def Entry.unrun (e : Entry) : Entry := { e.unbooked with state := .detached, queue := [], committedSince := false }

/-- What every effect of a commit leaves, but for those on tiles and planes: the slices, every quarter but for its routines and what waits
for them, and every entry but for what its routines show of it. -/
structure KeepsStore (s t : State) : Prop where
  slices : t.slices = s.slices
  quarters : t.unclaimed = s.unclaimed
  entry : ∀ c, (t.entry c).unrun = (s.entry c).unrun

namespace KeepsStore

variable {r s t : State}

theorem refl (s : State) : KeepsStore s s := ⟨rfl, rfl, fun _ => rfl⟩

theorem trans (h : KeepsStore r s) (k : KeepsStore s t) : KeepsStore r t :=
  ⟨k.slices.trans h.slices, k.quarters.trans h.quarters, fun c => (k.entry c).trans (h.entry c)⟩

theorem slice (h : KeepsStore s t) (i : Nat) : t.slice i = s.slice i := by rw [State.slice, State.slice, h.slices]

/-- A reading of an entry that does not ask what its routines show of it. -/
theorem entry_eq {α : Type} (h : KeepsStore s t) (c : Nat) (g : Entry → α) (hg : ∀ e, g e.unrun = g e := by intro _; rfl) :
    g (t.entry c) = g (s.entry c) := by
  rw [← hg, ← hg (s.entry c), h.entry]

/-- A reading of a quarter that does not ask its routines or what waits for them. -/
theorem quarter_eq {α : Type} (h : KeepsStore s t) (q : Nat) (g : Quarter → α) (hg : ∀ u, g u.unclaimed = g u := by intro _; rfl) :
    g (t.quarter q) = g (s.quarter q) := by
  have hread : ∀ v : State, (v.quarter q).unclaimed = v.unclaimed.getD q ({} : Quarter).unclaimed := fun v => by
    rw [State.quarter, State.unclaimed, List.getD_eq_getElem?_getD, List.getD_eq_getElem?_getD, List.getElem?_map]
    cases v.quarters[q]? <;> rfl
  rw [← hg, ← hg (s.quarter q), hread, hread, h.quarters]

/-- What leaves slices and entries but for its books, and quarters but for what waits for routines. -/
theorem of_books (h : KeepsBooks True s t) (hquarters : t.unclaimed = s.unclaimed) : KeepsStore s t :=
  ⟨h.slices trivial, hquarters, fun c => h.entry_eq c Entry.unrun⟩

theorem modEntry (h : KeepsStore r s) (d : Nat) {f : Entry → Entry} (hf : ∀ e, (f e).unrun = e.unrun := by intro _; rfl) :
    KeepsStore r (s.modEntry d f) :=
  h.trans ⟨s.modEntry_slices d f, State.unclaimed_congr (s.modEntry_quarters d f), fun c => s.modEntry_leaves Entry.unrun c d hf⟩

theorem modHeadOp (h : KeepsStore r s) (d : Nat) (f : Op → Op) : KeepsStore r (s.modHeadOp d f) :=
  h.modEntry d (fun e => by split <;> rfl)

theorem modQuarter (h : KeepsStore r s) (q : Nat) {f : Quarter → Quarter} (hf : ∀ u, (f u).unclaimed = u.unclaimed := by intro _; rfl) :
    KeepsStore r (s.modQuarter q f) :=
  h.trans ⟨rfl, s.modQuarter_unclaimed q hf, fun _ => rfl⟩

theorem ite {p : Prop} {_ : Decidable p} (h : KeepsStore r s) (k : KeepsStore r t) : KeepsStore r (if p then s else t) := by
  split
  · exact h
  · exact k

theorem chargeSegment (h : KeepsStore r s) (d : Nat) (j : Job) (n : Nat) : KeepsStore r (s.chargeSegment d j n) :=
  h.trans (of_books ((KeepsBooks.refl True s).chargeSegment d j n) (State.unclaimed_congr (s.chargeSegment_quarters d j n)))

theorem noteOverrun (h : KeepsStore r s) (d p : Nat) : KeepsStore r (s.noteOverrun d p) :=
  h.trans (of_books ((KeepsBooks.refl True s).noteOverrun d p) (State.unclaimed_congr (s.noteOverrun_quarters d p)))

theorem contextEvent (h : KeepsStore r s) (d code : Nat) (payload : List Byte) : KeepsStore r (s.contextEvent d code payload) :=
  h.trans (of_books ((KeepsBooks.refl True s).contextEvent d code payload) (State.unclaimed_congr (s.contextEvent_quarters d code payload)))

theorem afterCommit (h : KeepsStore r s) (q : Nat) : KeepsStore r (s.afterCommit q) :=
  h.trans (of_books ((KeepsBooks.refl True s).afterCommit q) (s.afterCommit_unclaimed q))

theorem settle (h : KeepsStore r s) (d : Nat) : KeepsStore r (s.settle d) := h.modEntry d (fun e => by split <;> rfl)

theorem dropGot (h : KeepsStore r s) (d : Nat) : KeepsStore r (s.dropGot d) := h.trans ⟨rfl, rfl, fun _ => rfl⟩

theorem dropJob (h : KeepsStore r s) (q d : Nat) : KeepsStore r (s.dropJob q d) := h.modQuarter q

theorem notePlaneWriter (h : KeepsStore r s) (q d : Nat) : KeepsStore r (s.notePlaneWriter q d) := h.modQuarter q

/-- R49, R50, R242: the events of a commit. -/
theorem events (h : KeepsStore r s) (d : Nat) (j : Job) (op : Op) : KeepsStore r ((s.rangeEvents d j op).poisonEvent d j op) := by
  have once : ∀ {v : State} (b : Bool) (code : Nat) (payload : List Byte) (f : Op → Op), KeepsStore r v →
      KeepsStore r (if b then (v.contextEvent d code payload).modHeadOp d f else v) :=
    fun _ code payload f k => ((k.contextEvent d code payload).modHeadOp d f).ite k
  exact once _ _ _ _ (once _ _ _ _ (once _ _ _ _ h))

end KeepsStore

/-! ### The commit -/

/-- The effects of a segment's commit on tiles and planes (R97, R101 to R103, R263, R264), and the release of the lines staged for it. -/
def State.commitStore (s : State) (c : Nat) (j : Job) (op : Op) : State :=
  let s1 := j.staged.foldl (fun s x => s.commitTile c x) s
  (if opcOf op.pkt = 0x20 ∨ opcOf op.pkt = 0x24 then s1.resetPlane c (bitsAt (byteAt op.pkt 48) 0 1) (opcOf op.pkt == 0x20)
    else if opcOf op.pkt = 0x21 ∨ opcOf op.pkt = 0x22 ∨ opcOf op.pkt = 0x25 then s1.setLive c j op
    else s1).releaseCommitted c (j.base + j.len)

/-- R324: the commit of an operation other than SPL leaves its effects on tiles and planes standing. -/
theorem State.commitOp_keepsStore {op : Op} (hspl : opcOf op.pkt ≠ 0x03) (s : State) (c : Nat) (j : Job) :
    KeepsStore (s.commitStore c j op) (s.commitOp c j op) := by
  unfold State.commitOp
  simp only [hspl, false_and, if_false]
  refine KeepsStore.modEntry (KeepsStore.modHeadOp (KeepsStore.events ?_ c j op) c _) c
  exact (KeepsStore.refl _).ite ((KeepsStore.refl _).dropGot c)

/-- R22, R324: what the commit point of an operation's routine, that neither yields nor waits to be bound elsewhere, leaves standing: from a
state that reads as the one before, the effects on tiles and planes. -/
theorem State.commitSegment_keepsStore {s : State} {q held : Nat} {j : Job} {op : Op} (hkind : j.kind = .op) (hyield : j.yielding = false)
    (hrebind : (s.entry j.ctx).rebindTo = none) (hop : (s.entry j.ctx).headOp = some op) (hspl : opcOf op.pkt ≠ 0x03) :
    ∃ u, KeepsStore s u ∧ u.Attached j.ctx ∧ KeepsStore (u.commitStore j.ctx j op) (s.commitSegment q held j) := by
  have hcharge := (KeepsBooks.refl True (s.advanceTo (j.takenAt + s.cclkNs held))).chargeSegment j.ctx j (j.heldBefore + held)
  have hstore := (KeepsStore.refl (s.advanceTo (j.takenAt + s.cclkNs held))).chargeSegment j.ctx j (j.heldBefore + held)
  generalize hv : (s.advanceTo (j.takenAt + s.cclkNs held)).chargeSegment j.ctx j (j.heldBefore + held) = v at hcharge hstore
  have hhead : (v.entry j.ctx).headOp = some op := (hcharge.entry_eq j.ctx Entry.headOp).trans hop
  have hnoted : KeepsStore v (if j.saved then v.notePlaneWriter q j.ctx else v) :=
    ((KeepsStore.refl v).notePlaneWriter q j.ctx).ite (.refl v)
  generalize hu : (if j.saved then v.notePlaneWriter q j.ctx else v) = u at hnoted
  have hattached : u.Attached j.ctx := by
    rw [← hu]
    split <;> exact State.attached_of_headOp hhead
  have hjob : KeepsStore (u.commitStore j.ctx j op) (v.commitJob q j.ctx j) := by
    simp only [State.commitJob, hkind, hhead, hu]
    exact (State.commitOp_keepsStore hspl u j.ctx j).dropJob q j.ctx
  have hrebound : ((v.commitJob q j.ctx j).entry j.ctx).rebindTo = none :=
    (State.commitJob_advanced hkind hhead).rebindTo.trans ((hcharge.entry_eq j.ctx Entry.rebindTo).trans hrebind)
  have hrest := fun n => (((KeepsStore.refl (v.commitJob q j.ctx j)).noteOverrun j.ctx j.period).modEntry j.ctx
    (f := fun e => { e with lastTrack := n })).settle j.ctx
  refine ⟨u, KeepsStore.trans ⟨hstore.slices, hstore.quarters, hstore.entry⟩ hnoted, hattached, hjob.trans ?_⟩
  unfold State.commitSegment
  dsimp only
  rw [hv, State.yielded_of_not_yielding _ _ hyield, if_neg (by simp [hyield]),
    State.takeRebind_of_none (((hrest _).entry_eq j.ctx Entry.rebindTo).trans hrebound)]
  exact (hrest _).afterCommit q

end Sys2Proof.Machine
end

section
/-! SUPPORT. Proofs of the obligation on AOP, and of that on ACL: lines that are released leave the line map, and a plane that is reset is
held nowhere. -/
namespace Sys2Proof.Machine

/-! ### Lines that are released -/

theorem Slice.refund_keeps (sl : Slice) (c : Charge) :
    (sl.refund c).lines = sl.lines ∧ (sl.refund c).words = sl.words ∧ (sl.refund c).lost = sl.lost := by
  cases c with
  | window => exact ⟨rfl, rfl, rfl⟩
  | floor k =>
    simp only [Slice.refund]
    split <;> exact ⟨rfl, rfl, rfl⟩
  | shared => exact ⟨rfl, rfl, rfl⟩
  | reserve =>
    simp only [Slice.refund]
    split <;> exact ⟨rfl, rfl, rfl⟩

theorem assocDel_of_get_none {β : Type} {k : Nat} {l : List (Nat × β)} (h : assocGet l k = none) : assocDel l k = l := by
  refine List.filter_eq_self.mpr (fun x hx => bne_iff_ne.mpr ?_)
  rintro rfl
  exact assocGet_ne_none_of_mem hx h

/-- R122: a line that is released leaves the line map. -/
theorem Slice.release_lines (sl : Slice) (l : Nat) : (sl.release l).lines = assocDel sl.lines l := by
  unfold Slice.release
  split
  · exact (Slice.refund_keeps _ _).1
  · next h => exact (assocDel_of_get_none h).symm

theorem Slice.mem_foldl_release {x : Nat × LineUse} : ∀ (ys : List (Nat × LineUse)) (sl : Slice),
    x ∈ (ys.foldl (fun sl y => sl.release y.1) sl).lines → x ∈ sl.lines ∧ ∀ y ∈ ys, x.1 ≠ y.1
  | [], _, h => ⟨h, fun _ hy => nomatch hy⟩
  | y :: ys, sl, h => by
    obtain ⟨hmem, hne⟩ := Slice.mem_foldl_release ys (sl.release y.1) h
    rw [Slice.release_lines] at hmem
    obtain ⟨hmem, hy⟩ := List.mem_filter.mp hmem
    exact ⟨hmem, List.forall_mem_cons.mpr ⟨bne_iff_ne.mp hy, hne⟩⟩

/-- Of the lines of owners that satisfy a test, none is in use once they are released. -/
theorem Slice.mem_releaseWhere {sl : Slice} {p : LineOwner → Bool} {x : Nat × LineUse} (h : x ∈ (sl.releaseWhere p).lines) :
    x ∈ sl.lines ∧ p x.2.owner = false := by
  obtain ⟨hmem, hne⟩ := Slice.mem_foldl_release _ sl h
  refine ⟨hmem, Bool.eq_false_iff.mpr (fun hp => ?_)⟩
  exact hne x (List.mem_filter.mpr ⟨hmem, hp⟩) rfl

/-- A member read after an update of every member of a list, that leaves what is read beyond the list's end. -/
theorem getD_map_of_default {α : Type} {f : α → α} {d : α} (hf : f d = d) (l : List α) (i : Nat) :
    (l.map f).getD i d = f (l.getD i d) := by
  rw [List.getD_eq_getElem?_getD, List.getD_eq_getElem?_getD, List.getElem?_map]
  cases l[i]? with
  | none => exact hf.symm
  | some x => rfl

/-- Table 3.5: the use of a line that ends with the commit of a segment of context `c` up to an ordinal. -/
def LineOwner.endsWith (c upTo : Nat) : LineOwner → Bool
  | .staged d _ => d == c
  | .streamed d o _ => d == c && decide (o < upTo)
  | _ => false

theorem State.releaseCommitted_slice (s : State) (c upTo i : Nat) :
    (s.releaseCommitted c upTo).slice i = (s.slice i).releaseWhere (LineOwner.endsWith c upTo) := by
  have howner : LineOwner.endsWith c upTo = fun o => match o with
      | .staged d _ => d == c
      | .streamed d o _ => d == c && decide (o < upTo)
      | _ => false := funext fun o => by cases o <;> rfl
  rw [howner]
  exact getD_map_of_default rfl s.slices i

/-! ### A plane that is reset -/

/-- R101, R263, R264, R266: plane `pl` of context `c` is empty and held nowhere: in no physical plane, and in no parked line. -/
structure State.PlaneReset (s : State) (c pl : Nat) (isOpen : Bool) : Prop where
  plane : (s.entry c).plane pl = { isOpen := isOpen, live := 0, loc := .none }
  holder : ∀ k p, ((s.quarter k).plane p).holder ≠ some (c, pl)
  lines : ∀ i, ∀ x ∈ (s.slice i).lines, ∀ sub k, x.2.owner ≠ .parked c pl sub k

/-- A physical plane that lets go of what it holds, where that is `h`. -/
def PhysPlane.letGo (h : Nat × Nat) (x : PhysPlane) : PhysPlane := if x.holder = some h then {} else x

theorem PhysPlane.letGo_holder (h : Nat × Nat) (x : PhysPlane) : (x.letGo h).holder ≠ some h := by
  unfold PhysPlane.letGo
  split
  · exact nofun
  · assumption

/-- R263, R264: AOP and ACL reset their plane. -/
theorem State.resetPlane_planeReset {s : State} {c pl : Nat} (hc : s.Attached c) (hpl : pl < (s.entry c).planes.length) (isOpen : Bool) :
    (s.resetPlane c pl isOpen).PlaneReset c pl isOpen := by
  refine ⟨?_, fun k p => ?_, fun i x hx sub n => ?_⟩
  · unfold State.resetPlane
    dsimp only
    generalize hv : State.dropInternal _ _ = v
    have hentries : v.entries = s.entries := by rw [← hv]; rfl
    have hattached : v.Attached c := by rw [State.Attached, hentries]; exact hc
    have hlen : pl < (v.entry c).planes.length := by rw [State.entry, hentries]; exact hpl
    rw [hattached.modEntry_entry]
    exact (getD_modAt _ _ _ _ _ hlen).trans (if_pos rfl)
  · have hplanes : ((s.resetPlane c pl isOpen).quarter k).planes =
        ((s.dropMoves (fun m => m.kind != .ismove && m.ctx == c && m.pl == pl)).quarter k).planes.map (PhysPlane.letGo (c, pl)) := by
      unfold State.resetPlane
      rw [State.quarter, State.modEntry_quarters]
      exact congrArg Quarter.planes (getD_map_of_default rfl _ k)
    rw [Quarter.plane, hplanes, getD_map_of_default rfl]
    exact PhysPlane.letGo_holder _ _
  · have hslice : (s.resetPlane c pl isOpen).slice i =
        ((s.dropMoves (fun m => m.kind != .ismove && m.ctx == c && m.pl == pl)).slice i).releaseWhere
          (fun o => match o with | .parked c' pl' _ _ => c' == c && pl' == pl | _ => false) := by
      unfold State.resetPlane
      rw [State.slice, State.modEntry_slices]
      exact getD_map_of_default rfl _ i
    rw [hslice] at hx
    have hparked := (Slice.mem_releaseWhere hx).2
    intro howner
    simp [howner] at hparked

theorem State.PlaneReset.releaseCommitted {s : State} {c pl : Nat} {isOpen : Bool} (h : s.PlaneReset c pl isOpen) (d upTo : Nat) :
    (s.releaseCommitted d upTo).PlaneReset c pl isOpen :=
  ⟨h.plane, h.holder, fun i x hx => h.lines i x (Slice.mem_releaseWhere (s.releaseCommitted_slice d upTo i ▸ hx)).1⟩

theorem State.PlaneReset.after {s t : State} {c pl : Nat} {isOpen : Bool} (h : s.PlaneReset c pl isOpen) (k : KeepsStore s t) :
    t.PlaneReset c pl isOpen where
  plane := (k.entry_eq c (·.plane pl)).trans h.plane
  holder q p := by
    rw [k.quarter_eq q (·.plane p)]
    exact h.holder q p
  lines i := by
    rw [k.slice]
    exact h.lines i

/-! ### The commit -/

theorem State.commitTile_entries (s : State) (c : Nat) (x : StagedTile) : (s.commitTile c x).entries = s.entries := by
  unfold State.commitTile
  dsimp only
  split
  · rfl
  · split <;> rfl

theorem State.foldl_commitTile_entries (c : Nat) : ∀ (xs : List StagedTile) (s : State),
    (xs.foldl (fun s x => s.commitTile c x) s).entries = s.entries
  | [], _ => rfl
  | x :: xs, s => (State.foldl_commitTile_entries c xs (s.commitTile c x)).trans (s.commitTile_entries c x)

/-- R263, R264: at the commit of an AOP or an ACL its plane is reset. -/
theorem State.commitSegment_planeReset {s : State} {q held : Nat} {j : Job} {op : Op} (hkind : j.kind = .op)
    (hyield : j.yielding = false) (hrebind : (s.entry j.ctx).rebindTo = none) (hop : (s.entry j.ctx).headOp = some op)
    (hopc : opcOf op.pkt = 0x20 ∨ opcOf op.pkt = 0x24) (hplanes : (s.entry j.ctx).planes.length = 2) :
    (s.commitSegment q held j).PlaneReset j.ctx (bitsAt (byteAt op.pkt 48) 0 1) (opcOf op.pkt == 0x20) := by
  obtain ⟨u, hu, hattached, hcommit⟩ := State.commitSegment_keepsStore (q := q) (held := held) hkind hyield hrebind hop (by omega)
  have hentries := State.foldl_commitTile_entries j.ctx j.staged u
  generalize hv : j.staged.foldl (fun s x => s.commitTile j.ctx x) u = v at hentries
  have hpl : bitsAt (byteAt op.pkt 48) 0 1 < (v.entry j.ctx).planes.length := by
    rw [State.entry, hentries, ← State.entry, hu.entry_eq j.ctx (fun e => e.planes.length), hplanes]
    exact Nat.mod_lt _ Nat.two_pos
  have hreset : v.Attached j.ctx := by rw [State.Attached, hentries]; exact hattached
  refine State.PlaneReset.after ?_ hcommit
  rw [State.commitStore, hv, if_pos hopc]
  exact (State.resetPlane_planeReset hreset hpl _).releaseCommitted _ _

/-- Settles O42: the plane is reset as it is opened. -/
theorem aopOpensAnEmptyPlane : Obligations.AopOpensAnEmptyPlane := by
  unfold Obligations.AopOpensAnEmptyPlane
  intro s q tr held j op hq htr hfind hkind hyield hrebind hop hopc hplanes
  have hreset := State.commitSegment_planeReset (q := q) (held := held) hkind hyield hrebind hop (.inl hopc) hplanes
  refine ⟨_, exec_segmentCommit_of_job hq htr hfind, ?_, hreset.lines⟩
  rw [hreset.plane, hopc]
  rfl

end Sys2Proof.Machine
end

section
/-! SUPPORT. Proofs of the obligation on ACL, ZRT and RLS: a structural write empties its tile, and the release of other lines leaves it
so. -/
namespace Sys2Proof.Machine

/-! ### Metadata of a tile that is empty -/

/-- R88, R89, R254: the metadata of a structural zero, not LIVE where it is a release's. -/
structure Meta.IsEmpty (release : Bool) (m : Meta) : Prop where
  zero : m.zero = true
  zsrc : m.zsrc = true
  live : release = true → m.live = false

theorem Meta.isEmpty_default (release : Bool) : ({} : Meta).IsEmpty release := ⟨rfl, rfl, fun _ => rfl⟩

theorem Meta.isEmpty_written (release : Bool) (old : Meta) (n : Nat) :
    (if release then metaRelease old n else metaStructural old n).IsEmpty release := by
  cases release with
  | true => exact ⟨rfl, rfl, fun _ => rfl⟩
  | false => exact ⟨rfl, rfl, nofun⟩

theorem Slice.flags_of_zsrc {sl : Slice} {l : Nat} (h : (sl.word l).zsrc = true) : sl.flags l = sl.word l := by
  simp [Slice.flags, h]

/-- R144: a lost line never shows a structural zero that its word does not. -/
theorem Slice.word_zsrc_of_flags {sl : Slice} {l : Nat} (h : (sl.flags l).zsrc = true) : (sl.word l).zsrc = true := by
  unfold Slice.flags at h
  dsimp only at h
  split at h
  · cases h
  · exact h

/-- R91, R144: the flags of a line are empty exactly where its word is. -/
theorem Slice.flags_isEmpty_iff (sl : Slice) (l : Nat) (release : Bool) : (sl.flags l).IsEmpty release ↔ (sl.word l).IsEmpty release :=
  ⟨fun h => Slice.flags_of_zsrc (Slice.word_zsrc_of_flags h.zsrc) ▸ h, fun h => (Slice.flags_of_zsrc h.zsrc).symm ▸ h⟩

/-- R90: a tile whose flags are those of a structural zero reads as zero rows. -/
theorem State.readTile_of_zsrc {s : State} {c n : Nat} (h : (s.tileFlags c n).zsrc = true) : s.readTile c n = Tile.zero := by
  unfold State.tileFlags at h
  unfold State.readTile
  split
  · next i l hl =>
    rw [hl] at h
    exact if_pos (Slice.word_zsrc_of_flags h)
  · rfl

/-! ### The line of a tile -/

theorem State.tileLine_eq_some {s : State} {c n i l : Nat} (h : s.tileLine c n = some (i, l)) :
    ∃ k, (s.entry c).slot = some k ∧ i = (s.entry c).sliceOf n ∧ (s.slice i).lineOf (.window k n) = some l := by
  unfold State.tileLine at h
  dsimp only at h
  split at h
  · cases h
  · next k hk =>
    obtain ⟨m, hm, heq⟩ := Option.map_eq_some_iff.mp h
    cases heq
    exact ⟨k, hk, rfl, hm⟩

/-- Where a tile of context `c` is: asked of its entry. -/
def Entry.place (e : Entry) (n : Nat) : Option Nat × Nat := (e.slot, e.sliceOf n)

theorem State.tileLine_congr {s t : State} {c n : Nat} (hplace : (t.entry c).place n = (s.entry c).place n)
    (hline : ∀ i k, (t.slice i).lineOf (.window k n) = (s.slice i).lineOf (.window k n)) : t.tileLine c n = s.tileLine c n := by
  obtain ⟨hslot, hslice⟩ := Prod.mk.injEq .. ▸ hplace
  simp only [State.tileLine, hslot, hslice, hline]

theorem State.tileFlags_of_line {s : State} {c n i l : Nat} (h : s.tileLine c n = some (i, l)) : s.tileFlags c n = (s.slice i).flags l := by
  rw [State.tileFlags, h]

theorem State.tileFlags_of_no_line {s : State} {c n : Nat} (h : s.tileLine c n = none) : s.tileFlags c n = {} := by
  rw [State.tileFlags, h]

/-- A slice that has a line in use is there. -/
theorem State.slice_lt_of_lineOf {s : State} {i l : Nat} {o : LineOwner} (h : (s.slice i).lineOf o = some l) : i < s.slices.length := by
  refine Nat.lt_of_not_le (fun hi => ?_)
  rw [State.slice, List.getD_eq_getElem?_getD, List.getElem?_eq_none hi] at h
  cases h

/-- A word that is written in a slice. -/
theorem State.modSlice_word {s : State} {i l : Nat} {m : Meta} {f : Slice → Slice} (hf : ∀ sl, (f sl).words = assocPut sl.words l m)
    (hi : i < s.slices.length) (k n : Nat) : ((s.modSlice i f).slice k).word n = if k = i ∧ n = l then m else (s.slice k).word n := by
  rw [State.modSlice_slice s k f hi]
  by_cases hk : k = i
  · subst hk
    rw [if_pos rfl, Slice.word, hf, assocGet_put]
    by_cases hn : n = l
    · rw [if_pos hn, if_pos ⟨rfl, hn⟩]; rfl
    · rw [if_neg hn, if_neg (fun h => hn h.2)]; rfl
  · rw [if_neg hk, if_neg (fun h => hk h.1)]

/-! ### Pegs -/

theorem Quarter.dropPegs_default (p : Peg → Bool) : ({} : Quarter).dropPegs p = {} := by
  simp [Quarter.dropPegs]

theorem State.dropTilePegs_quarter (s : State) (k n q : Nat) :
    (s.dropTilePegs k n).quarter q = (s.quarter q).dropPegs (fun g => g.slot == k && g.tile == n) :=
  getD_map_of_default (Quarter.dropPegs_default _) s.quarters q

/-- The pegs of a quarter. -/
def Quarter.pegs (u : Quarter) : List Peg := u.pegsA ++ u.pegsB

/-- A peg that is valid after pegs are dropped was there before, and is none of those. -/
theorem Quarter.mem_dropPegs {u : Quarter} {p : Peg → Bool} {g : Peg} (h : g ∈ (u.dropPegs p).pegs) (hvalid : g.valid = true) :
    g ∈ u.pegs ∧ p g = false := by
  rw [Quarter.pegs, Quarter.dropPegs, ← List.map_append] at h
  obtain ⟨x, hx, hxg⟩ := List.mem_map.mp h
  split at hxg
  · subst hxg; cases hvalid
  · next hp => subst hxg; exact ⟨hx, Bool.eq_false_iff.mpr hp⟩

/-! ### A tile that is empty -/

/-- R88, R90, R119, R254: tile `n` of context `c` has the flags of a structural zero, and no valid peg names it. -/
structure State.TileEmpty (s : State) (c n : Nat) (release : Bool) : Prop where
  flags : (s.tileFlags c n).IsEmpty release
  pegs : ∀ q, ∀ g ∈ (s.quarter q).pegs, g.valid = true → g.slot = (s.entry c).slot.getD 0 → g.tile ≠ n

/-- What leaves a tile's place, the window lines and the pegs leaves it empty. -/
theorem State.TileEmpty.of_keepsWindow {s t : State} {c n : Nat} {release : Bool} (h : s.TileEmpty c n release)
    (hplace : (t.entry c).place n = (s.entry c).place n) (hpegs : ∀ q, (t.quarter q).pegs = (s.quarter q).pegs)
    (hslices : ∀ i, (s.slice i).KeepsWindow (t.slice i)) : t.TileEmpty c n release := by
  have hline := State.tileLine_congr hplace (fun i k => (hslices i).line k n)
  have hslot : (t.entry c).slot = (s.entry c).slot := congrArg Prod.fst hplace
  refine ⟨?_, fun q => by rw [hpegs, hslot]; exact h.pegs q⟩
  cases hl : s.tileLine c n with
  | none =>
    rw [State.tileFlags_of_no_line (hline.trans hl)]
    exact Meta.isEmpty_default release
  | some x =>
    obtain ⟨k, -, -, hk⟩ := State.tileLine_eq_some hl
    rw [State.tileFlags_of_line (hline.trans hl), (hslices x.1).flags k n x.2 hk, ← State.tileFlags_of_line hl]
    exact h.flags

theorem State.TileEmpty.after {s t : State} {c n : Nat} {release : Bool} (h : s.TileEmpty c n release) (k : KeepsStore s t) :
    t.TileEmpty c n release :=
  h.of_keepsWindow (k.entry_eq c (·.place n)) (fun q => k.quarter_eq q Quarter.pegs) (fun i => k.slice i ▸ .refl _)

/-! ### Structural writes -/

/-- R88, R89, R254: the word that a structural write leaves in its tile's line. -/
def State.writeEmpty (s : State) (c : Nat) (x : StagedTile) : State :=
  match (s.slice ((s.entry c).sliceOf x.tile)).lineOf (.window ((s.entry c).slot.getD 0) x.tile) with
  | some l => s.modSlice ((s.entry c).sliceOf x.tile) (fun sl =>
      { sl.writeWord l (if x.release then metaRelease (s.tileWord c x.tile) x.tile else metaStructural (s.tileWord c x.tile) x.tile) with
        lost := sl.lost.filter (· != l) })
  | none => s

theorem State.commitTile_of_structural {x : StagedTile} (h : x.line = none) (s : State) (c : Nat) :
    s.commitTile c x = (s.writeEmpty c x).dropTilePegs ((s.entry c).slot.getD 0) x.tile := by
  unfold State.commitTile
  rw [h]
  rfl

theorem State.writeEmpty_frame (s : State) (c : Nat) (x : StagedTile) :
    s.writeEmpty c x = { s with slices := (s.writeEmpty c x).slices } := by
  unfold State.writeEmpty
  split <;> rfl

theorem State.writeEmpty_lines (s : State) (c : Nat) (x : StagedTile) (i : Nat) :
    ((s.writeEmpty c x).slice i).lines = (s.slice i).lines := by
  unfold State.writeEmpty
  split
  · exact s.modSlice_leaves (·.lines) _ i (fun _ => rfl)
  · rfl

/-- A structural write leaves its tile empty, and every other tile that is. -/
theorem State.writeEmpty_flags {s : State} {c n : Nat} {x : StagedTile} (h : n = x.tile ∨ (s.tileFlags c n).IsEmpty x.release) :
    ((s.writeEmpty c x).tileFlags c n).IsEmpty x.release := by
  have hline : (s.writeEmpty c x).tileLine c n = s.tileLine c n := by
    refine State.tileLine_congr ?_ (fun i k => ?_)
    · rw [State.writeEmpty_frame]; rfl
    · simp only [Slice.lineOf, State.writeEmpty_lines]
  cases hl : s.tileLine c n with
  | none =>
    rw [State.tileFlags_of_no_line (hline.trans hl)]
    exact Meta.isEmpty_default _
  | some y =>
    obtain ⟨i, l⟩ := y
    obtain ⟨k, hk, rfl, hil⟩ := State.tileLine_eq_some hl
    rw [State.tileFlags_of_line (hline.trans hl), Slice.flags_isEmpty_iff]
    rw [State.tileFlags_of_line hl, Slice.flags_isEmpty_iff] at h
    unfold State.writeEmpty
    split
    · next m hm =>
      rw [State.modSlice_word (fun _ => rfl) (State.slice_lt_of_lineOf hm)]
      split
      · exact Meta.isEmpty_written _ _ _
      · next hne =>
        refine h.resolve_left ?_
        rintro rfl
        rw [hk, Option.getD_some, hil] at hm
        exact hne ⟨rfl, Option.some.inj hm⟩
    · next hm =>
      refine h.resolve_left ?_
      rintro rfl
      rw [hk, Option.getD_some, hil] at hm
      cases hm

/-- What structural writes of context `c` come to: their tiles are empty, no line changes its use, and no transfer is posted. -/
structure State.Empties (s t : State) (c : Nat) (release : Bool) (tiles : List Nat) : Prop where
  entries : t.entries = s.entries
  lines : ∀ i, (t.slice i).lines = (s.slice i).lines
  lanes : ∀ q, (t.quarter q).lanes = (s.quarter q).lanes
  empty : ∀ n, n ∈ tiles ∨ s.TileEmpty c n release → t.TileEmpty c n release

/-- R88, R89, R119: one structural write. -/
theorem State.commitTile_empties {s : State} {c : Nat} {x : StagedTile} (h : x.line = none) :
    s.Empties (s.commitTile c x) c x.release [x.tile] := by
  rw [State.commitTile_of_structural h]
  have hframe := s.writeEmpty_frame c x
  have hquarter : ∀ q, (s.writeEmpty c x).quarter q = s.quarter q := fun q => by rw [hframe]; rfl
  have hentry : (s.writeEmpty c x).entry c = s.entry c := by rw [hframe]; rfl
  refine ⟨?_, s.writeEmpty_lines c x, fun q => ?_, fun n hn => ⟨?_, fun q g hg hvalid hslot => ?_⟩⟩
  · rw [hframe]; rfl
  · rw [State.dropTilePegs_quarter, hquarter]; rfl
  · exact State.writeEmpty_flags (hn.imp List.mem_singleton.mp (·.flags))
  · rw [State.dropTilePegs_quarter, hquarter] at hg
    have hslot' : g.slot = (s.entry c).slot.getD 0 := hslot.trans (congrArg (fun e : Entry => e.slot.getD 0) hentry)
    obtain ⟨hmem, hdrop⟩ := Quarter.mem_dropPegs hg hvalid
    obtain hx | hempty := hn
    · rw [List.mem_singleton.mp hx]
      simpa [hslot'] using hdrop
    · exact hempty.pegs q g hmem hvalid hslot'

theorem State.foldl_commitTile_empties (c : Nat) {release : Bool} : ∀ {xs : List StagedTile} (s : State),
    (∀ x ∈ xs, x.line = none ∧ x.release = release) →
    s.Empties (xs.foldl (fun s x => s.commitTile c x) s) c release (xs.map (·.tile))
  | [], s, _ => ⟨rfl, fun _ => rfl, fun _ => rfl, fun _ h => h.resolve_left List.not_mem_nil⟩
  | x :: xs, s, h => by
    obtain ⟨⟨hx, rfl⟩, hxs⟩ := List.forall_mem_cons.mp h
    have hone := State.commitTile_empties (s := s) (c := c) hx
    have hrest := State.foldl_commitTile_empties c (s.commitTile c x) hxs
    refine ⟨hrest.entries.trans hone.entries, fun i => (hrest.lines i).trans (hone.lines i), fun q => (hrest.lanes q).trans (hone.lanes q),
      fun n hn => hrest.empty n ?_⟩
    obtain hn | hn := hn
    · obtain hn | hn := List.mem_cons.mp hn
      · exact .inr (hone.empty n (.inl (List.mem_singleton.mpr hn)))
      · exact .inl hn
    · exact .inr (hone.empty n (.inr hn))

/-! ### The release of the lines staged for a segment -/

theorem Slice.release_lost (sl : Slice) (l : Nat) : (sl.release l).lost = sl.lost := by
  unfold Slice.release
  split
  · exact (Slice.refund_keeps _ _).2.2
  · rfl

/-- The release of a line leaves the words of the others. -/
theorem Slice.release_word (sl : Slice) {l n : Nat} (h : n ≠ l) : (sl.release l).word n = sl.word n := by
  unfold Slice.release
  split
  · rw [Slice.word, (Slice.refund_keeps _ _).2.1]
    simp only [Slice.setTile, assocGet_put, if_neg h]
    rfl
  · rfl

/-- A line that serves an owner is in the line map. -/
theorem Slice.mem_of_lineOf {sl : Slice} {o : LineOwner} {l : Nat} (h : sl.lineOf o = some l) :
    ∃ x ∈ sl.lines, x.1 = l ∧ x.2.owner = o := by
  obtain ⟨x, hx, hxl⟩ := Option.map_eq_some_iff.mp h
  exact ⟨x, List.mem_of_find?_eq_some hx, hxl, by simpa using List.find?_some hx⟩

/-- A list without its entries of a key is searched as before for what none of them is. -/
theorem find?_assocDel {β : Type} {p : Nat × β → Bool} {k : Nat} : ∀ {l : List (Nat × β)}, (∀ x ∈ l, x.1 = k → p x = false) →
    (assocDel l k).find? p = l.find? p
  | [], _ => rfl
  | x :: l, h => by
    obtain ⟨hx, hl⟩ := List.forall_mem_cons.mp h
    have ih := find?_assocDel hl
    rw [assocDel] at ih ⊢
    rw [List.filter_cons]
    by_cases hk : x.1 = k
    · rw [if_neg (fun hne => bne_iff_ne.mp hne hk), ih, List.find?_cons, hx hk]
    · rw [if_pos (bne_iff_ne.mpr hk), List.find?_cons, List.find?_cons, ih]

/-- R96a: a list in rising order of its keys has one entry of a key. -/
theorem eq_of_rising {β : Type} : ∀ {l : List (Nat × β)}, (l.map (·.1)).Pairwise (· < ·) → ∀ {x y : Nat × β}, x ∈ l → y ∈ l →
    x.1 = y.1 → x = y
  | z :: l, h, x, y, hx, hy, hxy => by
    obtain ⟨hz, hl⟩ := List.pairwise_cons.mp h
    have hlt : ∀ v ∈ l, z.1 < v.1 := fun v hv => hz v.1 (List.mem_map.mpr ⟨v, hv, rfl⟩)
    obtain rfl | hxl := List.mem_cons.mp hx
    · obtain rfl | hyl := List.mem_cons.mp hy
      · rfl
      · exact absurd hxy (Nat.ne_of_lt (hlt y hyl))
    · obtain rfl | hyl := List.mem_cons.mp hy
      · exact absurd hxy.symm (Nat.ne_of_lt (hlt x hxl))
      · exact eq_of_rising hl hxl hyl hxy

/-- A line that no window uses, released, leaves the window lines. -/
theorem Slice.release_keepsWindow {sl : Slice} {l : Nat} (h : ∀ x ∈ sl.lines, x.1 = l → ∀ k n, x.2.owner ≠ .window k n) :
    sl.KeepsWindow (sl.release l) where
  line k n := by
    rw [Slice.lineOf, Slice.release_lines]
    exact congrArg (Option.map Prod.fst) (find?_assocDel (fun x hx hl => decide_eq_false (h x hx hl k n)))
  flags k n m hm := by
    obtain ⟨x, hx, rfl, howner⟩ := Slice.mem_of_lineOf hm
    have hne : x.1 ≠ l := fun hl => h x hx hl k n howner
    simp only [Slice.flags, sl.release_word hne, sl.release_lost]

theorem Slice.foldl_release_keepsWindow : ∀ (ys : List (Nat × LineUse)) (sl : Slice),
    (∀ y ∈ ys, ∀ x ∈ sl.lines, x.1 = y.1 → ∀ k n, x.2.owner ≠ .window k n) →
    sl.KeepsWindow (ys.foldl (fun sl y => sl.release y.1) sl)
  | [], sl, _ => .refl sl
  | y :: ys, sl, h => by
    obtain ⟨hy, hys⟩ := List.forall_mem_cons.mp h
    refine (Slice.release_keepsWindow hy).trans (Slice.foldl_release_keepsWindow ys _ (fun z hz x hx => hys z hz x ?_))
    rw [Slice.release_lines] at hx
    exact (List.mem_filter.mp hx).1

/-- R96a: in a slice whose lines each serve one owner, the release of lines that are no window lines leaves the window lines. -/
theorem Slice.releaseWhere_keepsWindow {sl : Slice} (h : (sl.lines.map (·.1)).Pairwise (· < ·)) {p : LineOwner → Bool}
    (hp : ∀ k n, p (.window k n) = false) : sl.KeepsWindow (sl.releaseWhere p) := by
  refine Slice.foldl_release_keepsWindow _ sl (fun y hy x hx hxy k n howner => ?_)
  obtain ⟨hmem, hpy⟩ := List.mem_filter.mp hy
  obtain rfl := eq_of_rising h hx hmem hxy
  rw [howner, hp] at hpy
  cases hpy

theorem State.TileEmpty.releaseCommitted {s : State} {c n : Nat} {release : Bool} (h : s.TileEmpty c n release)
    (hlines : ∀ i, ((s.slice i).lines.map (·.1)).Pairwise (· < ·)) (d upTo : Nat) : (s.releaseCommitted d upTo).TileEmpty c n release := by
  refine h.of_keepsWindow rfl (fun _ => rfl) (fun i => ?_)
  rw [State.releaseCommitted_slice]
  exact Slice.releaseWhere_keepsWindow (hlines i) (fun _ _ => rfl)

/-! ### The commit -/

/-- R88, R254: the structural writes that a ZRT or an RLS stages, one for each tile of its range. -/
def structuralRange (p : List Byte) (release : Bool) : List StagedTile :=
  (List.range (byteAt p 50 + 1)).map (fun d => { tile := byteAt p 48 + d, structural := true, release := release })

theorem structuralRange_structural {p : List Byte} {release : Bool} :
    ∀ x ∈ structuralRange p release, x.line = none ∧ x.release = release := by
  intro x hx
  obtain ⟨d, -, rfl⟩ := List.mem_map.mp hx
  exact ⟨rfl, rfl⟩

theorem mem_structuralRange {p : List Byte} {d : Nat} (h : d ≤ byteAt p 50) (release : Bool) :
    byteAt p 48 + d ∈ (structuralRange p release).map (·.tile) :=
  List.mem_map.mpr ⟨_, List.mem_map.mpr ⟨d, List.mem_range.mpr (Nat.lt_succ_of_le h), rfl⟩, rfl⟩

/-- R88, R89, R119, R254: at the commit of a ZRT or an RLS every tile of its range is empty, and no transfer is posted. -/
theorem State.commitSegment_empties {s : State} {q held : Nat} {j : Job} {op : Op} (hkind : j.kind = .op)
    (hyield : j.yielding = false) (hrebind : (s.entry j.ctx).rebindTo = none) (hop : (s.entry j.ctx).headOp = some op)
    (hopc : opcOf op.pkt = 0x13 ∨ opcOf op.pkt = 0x14) (howner : ∀ i, (s.slice i).OneOwner) {release : Bool}
    (hstaged : j.staged = structuralRange op.pkt release) :
    (∀ k, ((s.commitSegment q held j).quarter k).lanes = (s.quarter k).lanes) ∧
      ((s.commitSegment q held j).entry j.ctx).slot = (s.entry j.ctx).slot ∧
      ∀ d, d ≤ byteAt op.pkt 50 → (s.commitSegment q held j).TileEmpty j.ctx (byteAt op.pkt 48 + d) release := by
  obtain ⟨u, hu, -, hcommit⟩ := State.commitSegment_keepsStore (q := q) (held := held) hkind hyield hrebind hop (by omega)
  have hempties := State.foldl_commitTile_empties j.ctx u (structuralRange_structural (p := op.pkt) (release := release))
  rw [State.commitStore, if_neg (by omega), if_neg (by omega), hstaged] at hcommit
  refine ⟨fun k => ?_, ?_, fun d hd => State.TileEmpty.after (State.TileEmpty.releaseCommitted ?_ (fun i => ?_) _ _) hcommit⟩
  · exact (hcommit.quarter_eq k Quarter.lanes).trans ((hempties.lanes k).trans (hu.quarter_eq k Quarter.lanes))
  · refine (hcommit.entry_eq j.ctx Entry.slot).trans ((congrArg Entry.slot ?_).trans (hu.entry_eq j.ctx Entry.slot))
    exact congrArg (fun es => (assocGet es j.ctx).getD {}) hempties.entries
  · exact hempties.empty _ (.inl (mem_structuralRange hd release))
  · rw [hempties.lines, hu.slice]
    exact (howner i).1

/-- Settles O43: the plane is reset as it is closed; the tiles of the range are empty. -/
theorem releasedPlanesAndTilesAreEmpty : Obligations.ReleasedPlanesAndTilesAreEmpty := by
  unfold Obligations.ReleasedPlanesAndTilesAreEmpty
  intro s q tr held j op hq htr hfind hkind hyield hrebind hop
  have hexec := exec_segmentCommit_of_job (held := held) hq htr hfind
  refine ⟨fun hopc hplanes => ?_, fun hopc howner hstaged => ?_⟩
  · have hreset := State.commitSegment_planeReset (q := q) (held := held) hkind hyield hrebind hop (.inr hopc) hplanes
    refine ⟨_, hexec, ?_, hreset.holder, hreset.lines⟩
    rw [hreset.plane, hopc]
    rfl
  · obtain ⟨hlanes, hslot, hempty⟩ := State.commitSegment_empties (q := q) (held := held) hkind hyield hrebind hop hopc howner hstaged
    refine ⟨_, hexec, hlanes, fun d hd => ?_⟩
    obtain ⟨⟨hzero, hzsrc, hlive⟩, hpegs⟩ := hempty d hd
    refine ⟨State.readTile_of_zsrc hzsrc, hzero, hzsrc, fun hrls => hlive (beq_iff_eq.mpr hrls), fun k g hg hvalid hg' => ?_⟩
    exact hpegs k g hg hvalid (by rw [hslot]; exact hg')

end Sys2Proof.Machine
end

section
/-! SUPPORT. Proofs of the state after reset (R350, R815, R817, R862): every part that exists is as its fresh value and a read beyond the
parts answers that value too, so what holds of one fresh quarter, slice or port holds at every index. -/
namespace Sys2Proof.Machine

/-! ### The parts of the reset state -/

/-- A list of one value, read with that value as the default, reads as it at every index, be it within the list or beyond. -/
theorem getD_replicate_default {α : Type} (d : α) (n i : Nat) : (List.replicate n d).getD i d = d := by
  rw [List.getD_eq_getElem?_getD, List.getElem?_replicate]
  split
  · rfl
  · rfl

@[simp] theorem State.reset_quarter (q : Nat) : State.reset.quarter q = {} :=
  getD_replicate_default _ 4 q

@[simp] theorem State.reset_slice (i : Nat) : State.reset.slice i = {} :=
  getD_replicate_default _ 4 i

@[simp] theorem State.reset_fport (n : Nat) : State.reset.fport n = {} :=
  getD_replicate_default _ 16 n

/-- R96a: a line map without entries names no line and no owner twice. -/
theorem Slice.oneOwner_of_lines_nil {sl : Slice} (h : sl.lines = []) : sl.OneOwner := by
  unfold Slice.OneOwner
  rw [h]
  exact ⟨.nil, .nil⟩

/-! ### The invariant and the quiet of the reset state -/

theorem State.reset_shape : State.reset.Shape where
  quarters := List.length_replicate
  slices := List.length_replicate
  ports := List.length_replicate
  hbmStacks := List.length_replicate
  fports := List.length_replicate

/-- R815: no content of HBM is defined, and the TRNG pool is within its bound (R557). -/
theorem State.reset_inv : State.reset.Inv where
  shape := State.reset_shape
  mem := Memory.wf_nil
  pool := by decide

/-- R350, R817: every context is DETACHED, no routine or transaction is left, both links are DOWN and there is no seal. -/
theorem State.reset_quiet : State.reset.Quiet where
  entries := rfl
  internal := rfl
  jobs q := by rw [State.reset_quarter]
  txns := rfl
  host := rfl
  fports n := by rw [State.reset_fport]
  sealKey := rfl

theorem State.reset_oneOwner (i : Nat) : (State.reset.slice i).OneOwner :=
  Slice.oneOwner_of_lines_nil (by rw [State.reset_slice])

/-- Settles O4: the shape and the quiet of each part are those of its fresh value; the pins, the memory and the queue are literal. -/
theorem resetIsQuietAndWellShaped : Obligations.ResetIsQuietAndWellShaped := by
  unfold Obligations.ResetIsQuietAndWellShaped
  exact ⟨State.reset_inv, State.reset_quiet, rfl, rfl, rfl, rfl, State.reset_oneOwner⟩

end Sys2Proof.Machine
end

section
/-! SUPPORT. Proofs of the obligation on PERIOD_START and FRAME_DEADLINE: what claims, suspensions and preemptions leave of memory and time,
and what the deadline of a frame leaves of its context. -/
namespace Sys2Proof.Machine

/-! ### Memory and time -/

/-- Memory, own time, and the number of the period in progress. -/
def State.clock (s : State) : Hbm × Nat × Nat := (s.hbm, s.now, s.period)

theorem State.clock_eq_iff {s t : State} : t.clock = s.clock ↔ t.hbm = s.hbm ∧ t.now = s.now ∧ t.period = s.period := by
  simp only [State.clock, Prod.mk.injEq]

/-- A run of steps that each leave the clock. -/
theorem foldl_clock {α : Type} {f : State → α → State} (hf : ∀ s a, (f s a).clock = s.clock) :
    ∀ (l : List α) (s : State), (l.foldl f s).clock = s.clock
  | [], _ => rfl
  | a :: l, s => (foldl_clock hf l (f s a)).trans (hf s a)

@[simp] theorem State.putEntry_clock (s : State) (c : Nat) (e : Entry) : (s.putEntry c e).clock = s.clock := rfl

@[simp] theorem State.modEntry_clock (s : State) (c : Nat) (f : Entry → Entry) : (s.modEntry c f).clock = s.clock := by simp [State.clock]

@[simp] theorem State.modHeadOp_clock (s : State) (c : Nat) (f : Op → Op) : (s.modHeadOp c f).clock = s.clock := s.modEntry_clock c _

@[simp] theorem State.settle_clock (s : State) (c : Nat) : (s.settle c).clock = s.clock := s.modEntry_clock c _

@[simp] theorem State.modQuarter_clock (s : State) (q : Nat) (f : Quarter → Quarter) : (s.modQuarter q f).clock = s.clock := rfl

@[simp] theorem State.modPlane_clock (s : State) (q p : Nat) (f : PhysPlane → PhysPlane) : (s.modPlane q p f).clock = s.clock := rfl

@[simp] theorem State.modJob_clock (s : State) (q c : Nat) (f : Job → Job) : (s.modJob q c f).clock = s.clock := rfl

@[simp] theorem State.dropJob_clock (s : State) (q c : Nat) : (s.dropJob q c).clock = s.clock := rfl

@[simp] theorem State.endClaims_clock (s : State) : s.endClaims.clock = s.clock := rfl

@[simp] theorem State.withdraw_clock (s : State) (c : Nat) : (s.withdraw c).clock = s.clock := rfl

@[simp] theorem State.releaseStaged_clock (s : State) (c : Nat) : (s.releaseStaged c).clock = s.clock := rfl

/-! ### Reports and charges -/

@[simp] theorem State.recordLost_clock (s : State) (n : Nat) : (s.recordLost n).clock = s.clock := by
  simp [State.recordLost, State.clock]

@[simp] theorem State.writeRecord_clock (s : State) (master : Nat) (owner : TxnOwner) (spa : Nat) (bytes : List Byte) (after : List Nat) :
    (s.writeRecord master owner spa bytes after).clock = s.clock := by
  unfold State.writeRecord
  split
  · rfl
  · exact s.recordLost_clock 1

@[simp] theorem State.contextEvent_clock (s : State) (c code : Nat) (payload : List Byte) :
    (s.contextEvent c code payload).clock = s.clock := by
  unfold State.contextEvent
  dsimp only
  split <;> simp

/-- An event of a context counts a record of its ring, and leaves the rest of its entry. -/
theorem State.contextEvent_leaves {α : Type} (s : State) {g : Entry → α} (c code d : Nat) (payload : List Byte)
    (hg : ∀ e n r, g { e with ringCount := n, lastRecord := r } = g e := by intro _ _ _; rfl) :
    g ((s.contextEvent c code payload).entry d) = g (s.entry d) := by
  have hwritten : ∀ master owner spa bytes after, (s.writeRecord master owner spa bytes after).entry d = s.entry d :=
    fun _ _ _ _ _ => by unfold State.writeRecord; split <;> rfl
  unfold State.contextEvent
  dsimp only
  split
  · rw [State.modEntry_leaves _ g d c (fun e => hg e _ _), hwritten]
  · rfl

@[simp] theorem State.chargeDl_clock (s : State) (c period n : Nat) (frame : Option Int) : (s.chargeDl c period n frame).clock = s.clock :=
  s.modEntry_clock c _

@[simp] theorem State.chargeHeld_clock (s : State) (j : Job) : (s.chargeHeld j).clock = s.clock := by
  unfold State.chargeHeld State.chargeSegment
  dsimp only
  split
  · split <;> simp
  · split <;> simp
  · rfl

@[simp] theorem State.noteOverrun_clock (s : State) (c p : Nat) : (s.noteOverrun c p).clock = s.clock := by
  unfold State.noteOverrun
  dsimp only
  split
  · split <;> simp
  · rfl

@[simp] theorem State.suspend_clock (s : State) (q cause : Nat) : (s.suspend q cause).clock = s.clock := by
  unfold State.suspend State.suspendIn
  exact (foldl_clock (fun t p => by simp) _ _).trans (s.modQuarter_clock q _)

/-! ### Preemption and claims -/

@[simp] theorem State.abortSegment_clock (s : State) (q : Nat) (j : Job) : (s.abortSegment q j).clock = s.clock := by
  unfold State.abortSegment
  extract_lets s0 s1 e s2 s3
  have hwithdrawn : s1.clock = s.clock := by
    unfold s1
    split <;> simp [s0]
  have hrestored : s2.clock = s1.clock := by
    unfold s2
    split
    · split
      · dsimp only
        split <;> simp
      · rfl
    · rfl
  have hfreed : s3.clock = s2.clock := by
    unfold s3
    split
    · split
      · split <;> simp
      · rfl
    · rfl
  have hended : (if j.started = 0 then s3 else s3.modQuarter q (fun u => { u with rotation := { u.rotation with shadowRan := false } })).clock
      = s3.clock := by split <;> simp
  rw [State.dropJob_clock, hended, hfreed, hrestored, hwithdrawn]

/-- R332, R335: a preemption aborts the segment of its routine, or has the routine yield. -/
@[simp] theorem State.preemptJob_clock (s : State) (q : Nat) (j : Job) (src : PreemptSource) (displacing : Bool) :
    (s.preemptJob q j src displacing).clock = s.clock := by
  unfold State.preemptJob
  split
  · rfl
  · split
    · dsimp only
      split <;> simp
    · simp

@[simp] theorem State.noteLatency_clock (s : State) (q least : Nat) : (s.noteLatency q least).clock = s.clock := by
  unfold State.noteLatency State.endLatency
  split
  · split
    · rfl
    · exact (foldl_clock (fun t c => by simp) _ _).trans (s.modQuarter_clock q _)
  · rfl

@[simp] theorem State.raiseClaim_clock (s : State) (q : Nat) : (s.raiseClaim q).clock = s.clock := by
  unfold State.raiseClaim
  dsimp only
  rw [State.noteLatency_clock, foldl_clock (fun t j => by simp), foldl_clock (fun t j => by simp), State.modQuarter_clock]

/-! ### PERIOD_START -/

theorem State.periodSuspensions_clock (s : State) (q : Nat) : (s.periodSuspensions q).clock = s.clock := by
  have hstep : ∀ t : State, (t.overcommitStep q).clock = t.clock := fun t => by
    unfold State.overcommitStep
    split
    · rfl
    · split <;> simp
  unfold State.periodSuspensions
  dsimp only
  rw [hstep]
  split <;> split <;> simp

theorem State.takeRate_of_none {s : State} (h : s.oldHz = none) : s.takeRate = s := by rw [State.takeRate, h]

theorem State.nextPeriod_of_eq {s : State} (h : s.periodNow = s.period) :
    s.nextPeriod.hbm = s.hbm ∧ s.nextPeriod.period = s.period + 1 ∧ s.nextPeriod.oldHz = s.oldHz ∧
      s.nextPeriod.now = max s.now (s.ownInstant (periodStart s.frameHz (Int.ofNat s.period + 1))) := by
  rw [State.nextPeriod, if_neg (fun hne => hne h)]
  exact ⟨rfl, rfl, rfl, rfl⟩

theorem State.nextPeriod_of_ne {s : State} (h : s.periodNow ≠ s.period) :
    s.nextPeriod.hbm = s.hbm ∧ s.nextPeriod.period = s.periodNow ∧ s.nextPeriod.now = s.now := by
  rw [State.nextPeriod, if_pos h]
  exact ⟨rfl, rfl, rfl⟩

/-- R429: with no change of rate pending, PERIOD_START leaves memory and time as the step to the next period does. -/
theorem exec_periodStart_clock {s : State} (hrunning : s.running = true) (happlied : s.boot.applied = true) (hrate : s.oldHz = none) :
    Completes .periodStart s (fun t => t.clock = s.nextPeriod.clock) := by
  have hstart : (if s.periodNow ≠ s.period then s.nextPeriod else s.nextPeriod.takeRate) = s.nextPeriod := by
    by_cases h : s.periodNow = s.period
    · obtain ⟨-, -, hkept, -⟩ := State.nextPeriod_of_eq h
      rw [if_neg (fun hne => hne h)]
      exact State.takeRate_of_none (hkept.trans hrate)
    · exact if_pos h
  refine ⟨_, rfl, ?_⟩
  simp only [hrunning, happlied, hstart, Bool.not_true, Bool.or_self, Bool.false_eq_true, if_false]
  rw [foldl_clock (fun t q => by split <;> simp), foldl_clock State.periodSuspensions_clock, State.endClaims_clock]

/-! ### FRAME_DEADLINE -/

/-- R460: the refusals of a missed frame's operations leave the base. -/
theorem State.dropMissed_base : ∀ (n : Nat) (s : State) (c : Nat), (State.dropMissed n s c).base = s.base
  | 0, _, _ => rfl
  | n + 1, s, c => by
    unfold State.dropMissed
    dsimp only
    split
    · rfl
    · next op hhead =>
      split
      · rfl
      · exact (State.dropMissed_base n _ c).trans (State.refuse_keeps hhead _).1.base

theorem State.dropFrames_base (s : State) (c : Nat) : (s.dropFrames c).base = s.base := by
  unfold State.dropFrames
  split
  · exact State.dropMissed_base _ s c
  · rfl

theorem State.claimMissed_clock (s : State) (c : Nat) (f : Frame) : (s.claimMissed c f).clock = s.clock := by
  unfold State.claimMissed
  split
  · split <;> simp
  · rfl

theorem State.missFrame_clock (s : State) (c : Nat) (f : Frame) : (s.missFrame c f).clock = s.clock := by
  unfold State.missFrame
  dsimp only
  split
  · rfl
  · split <;> simp

/-- R457, R459 to R461: whatever a miss entails, memory stays, and time goes on to the deadline alone. -/
theorem State.deadlinePasses_clock (s : State) (c : Nat) (f : Frame) :
    (s.deadlinePasses c f).hbm = s.hbm ∧ (s.deadlinePasses c f).now = max s.now f.deadline := by
  have hpast : ∀ g, (((s.advanceTo f.deadline).modEntry c g).missFrame c f).clock = (s.advanceTo f.deadline).clock :=
    fun g => (State.missFrame_clock _ c f).trans (State.modEntry_clock _ c g)
  unfold State.deadlinePasses
  dsimp only
  generalize hv : ((s.advanceTo f.deadline).modEntry c _).missFrame c f = v
  obtain ⟨hhbm, hnow, -⟩ := State.clock_eq_iff.mp (hv ▸ hpast _)
  split
  · obtain ⟨hclaimHbm, hclaimNow, -⟩ := State.clock_eq_iff.mp (v.claimMissed_clock c f)
    have hdrop := (v.claimMissed c f).dropFrames_base c
    generalize (v.claimMissed c f).dropFrames c = w at hdrop
    obtain ⟨hdropHbm, hdropNow, -⟩ : _ ∧ _ ∧ _ := by simpa only [State.base, Prod.mk.injEq] using hdrop
    obtain ⟨hendHbm, hendNow, -⟩ := State.clock_eq_iff.mp ((w.settle c).endClaims_clock.trans (w.settle_clock c))
    exact ⟨hendHbm.trans (hdropHbm.trans (hclaimHbm.trans hhbm)), hendNow.trans (hdropNow.trans (hclaimNow.trans hnow))⟩
  · exact ⟨hhbm, hnow⟩

/-- Entry `e'` has the queue of `e` and frames of the same periods, and of those each of period `p` is past its deadline. -/
def PassesFrame (p : Int) (e e' : Entry) : Prop :=
  e'.queue = e.queue ∧ e'.frames.map (·.period) = e.frames.map (·.period) ∧ ∀ x ∈ e'.frames, x.period = p → x.past = true

/-- An update that marks the frames of a period as past. -/
theorem passesFrame_mark {p : Int} {e0 e : Entry} {g : Frame → Frame} (hqueue : e.queue = e0.queue)
    (hperiods : e.frames.map (·.period) = e0.frames.map (·.period)) (hperiod : ∀ x, (g x).period = x.period := by intro _; rfl)
    (hpast : ∀ x, (g x).past = true := by intro _; rfl) :
    PassesFrame p e0 { e with frames := e.frames.map (fun x => if x.period = p then g x else x) } := by
  refine ⟨hqueue, (map_reading (fun x => ?_) e.frames).trans hperiods, fun x hx hp => ?_⟩
  · split
    · exact hperiod x
    · rfl
  · obtain ⟨y, -, rfl⟩ := List.mem_map.mp hx
    by_cases hy : y.period = p
    · rw [if_pos hy]
      exact hpast y
    · rw [if_neg hy] at hp
      exact absurd hp hy

/-- R458: the report of a miss leaves the queue, and the frames of its period past. -/
theorem State.missFrame_passes {s : State} {c : Nat} {f : Frame} {e0 : Entry} (h : PassesFrame f.period e0 (s.entry c)) :
    PassesFrame f.period e0 ((s.missFrame c f).entry c) := by
  unfold State.missFrame
  dsimp only
  split
  · exact h
  · split
    · exact h
    · refine (State.contextEvent_leaves _ (g := PassesFrame f.period e0) c _ c _).mpr ?_
      have ⟨hqueue, hperiods, _⟩ := h
      obtain he | he := s.modEntry_entry c c _
      · exact he ▸ h
      · exact he ▸ passesFrame_mark hqueue hperiods

theorem State.missFrame_profile (s : State) (c : Nat) (f : Frame) : (s.missFrame c f).profile = s.profile :=
  congrArg Prod.fst ((State.missFrame_stays c f (.refl true s)).setup rfl)

/-- A context with a deadline to come has an attach entry. -/
theorem State.attached_of_nextDeadline {s : State} {c : Nat} {f : Frame} (h : (s.entry c).nextDeadline = some f) : s.Attached c := by
  unfold State.Attached
  cases he : assocGet s.entries c with
  | some e => rfl
  | none => simp [State.entry, he, Entry.nextDeadline] at h

/-- R457, R459: where misses are only reported, a deadline that passes leaves the queue, and its frame past. -/
theorem State.deadlinePasses_passes {s : State} {c : Nat} (hattached : s.Attached c) (f : Frame) (hreport : s.profile.missDrop = false) :
    PassesFrame f.period (s.entry c) ((s.deadlinePasses c f).entry c) := by
  have hadvanced : (s.advanceTo f.deadline).Attached c := hattached
  unfold State.deadlinePasses
  dsimp only
  rw [State.missFrame_profile, State.modEntry_profile, State.advanceTo_profile, hreport, if_neg Bool.false_ne_true]
  refine State.missFrame_passes ?_
  rw [hadvanced.modEntry_entry]
  exact passesFrame_mark rfl rfl

theorem exec_frameDeadline_of_some {s : State} {c : Nat} {f : Frame} (hc : c < 512) (hrunning : s.running = true)
    (hnext : (s.entry c).nextDeadline = some f) : exec (.frameDeadline c) s = .next (s.deadlinePasses c f) := by
  change execFrameDeadline c s = _
  simp [execFrameDeadline, Nat.not_le.mpr hc, hrunning, hnext]

theorem exec_frameDeadline_of_none {s : State} {c : Nat} (hc : c < 512) (hnone : (s.entry c).nextDeadline = none) :
    exec (.frameDeadline c) s = .next s := by
  change execFrameDeadline c s = _
  simp [execFrameDeadline, Nat.not_le.mpr hc, hnone]

/-- Settles O50: what a period and a deadline set off leaves memory and time, and where misses are only reported a deadline leaves the
queue. -/
theorem periodsAndDeadlinesPass : Obligations.PeriodsAndDeadlinesPass := by
  unfold Obligations.PeriodsAndDeadlinesPass
  intro s
  refine ⟨fun hrunning happlied hrate => ?_, fun c f hc hrunning hnext => ?_, fun c hc hnone => exec_frameDeadline_of_none hc hnone⟩
  · obtain ⟨t, hexec, hclock⟩ := exec_periodStart_clock hrunning happlied hrate
    obtain ⟨hhbm, hnow, hperiod⟩ := State.clock_eq_iff.mp hclock
    by_cases h : s.periodNow = s.period
    · obtain ⟨hnextHbm, hnextPeriod, -, hnextNow⟩ := State.nextPeriod_of_eq h
      exact ⟨t, hexec, hhbm.trans hnextHbm, fun _ => ⟨hperiod.trans hnextPeriod, hnow.trans hnextNow⟩, fun hne => absurd h hne⟩
    · obtain ⟨hnextHbm, hnextPeriod, hnextNow⟩ := State.nextPeriod_of_ne h
      exact ⟨t, hexec, hhbm.trans hnextHbm, fun heq => absurd heq h, fun _ => ⟨hperiod.trans hnextPeriod, hnow.trans hnextNow⟩⟩
  · obtain ⟨hhbm, hnow⟩ := s.deadlinePasses_clock c f
    exact ⟨s.deadlinePasses c f, exec_frameDeadline_of_some hc hrunning hnext, hhbm, hnow,
      s.deadlinePasses_passes (State.attached_of_nextDeadline hnext) f⟩

end Sys2Proof.Machine
end

section
/-! SUPPORT. Proofs of the obligation on the atomics of the HBM controller: a word reads as the number last put there (R526, R527). -/
namespace Sys2Proof.Machine

/-! ### Numbers as bytes -/

@[simp] theorem natLe_length : ∀ n x : Nat, (natLe n x).length = n
  | 0, _ => rfl
  | n + 1, x => congrArg Nat.succ (natLe_length n (x / 256))

/-- R8: the bytes that spell a number spell it back, as far as they go. -/
theorem leNat_natLe : ∀ n x : Nat, leNat (natLe n x) = x % 256 ^ n
  | 0, x => (Nat.mod_one x).symm
  | n + 1, x => by
    have hbyte : (BitVec.ofNat 8 (x % 256)).toNat = x % 256 := by rw [BitVec.toNat_ofNat]; omega
    rw [natLe, leNat, hbyte, leNat_natLe n, Nat.pow_succ', Nat.mod_mul]

/-- A run of bytes written with every byte enabled reads back. -/
theorem Memory.readN_writeN_same {m : List Host.Cell} (h : Memory.wf m = true) (a : Nat) (bs : List Byte) :
    Memory.readN (Memory.writeN m a bs []) a bs.length = bs := by
  refine List.ext_getElem (by simp [Memory.readN]) (fun i hi hbs => ?_)
  simp only [Memory.readN, List.getElem_map, List.getElem_range]
  rw [Memory.read_writeN_same a i bs h hbs, List.getD_eq_getElem?_getD, List.getElem?_eq_getElem hbs, Option.getD_some]

/-! ### A word of the local HBM -/

/-- The number that the 8-byte word at `a` holds. -/
def Hbm.word (h : Hbm) (a : Nat) : Nat := leNat (Memory.readN h.mem a 8)

/-- A number put into the word at `a`, which leaves a single-bit error there corrected (R571). -/
def Hbm.putWord (h : Hbm) (a v : Nat) : Hbm :=
  { h with mem := Memory.writeN h.mem a (natLe 8 v) [], ceWords := h.ceWords.filter (· != a) }

theorem Hbm.putWord_word {h : Hbm} (hwf : Memory.wf h.mem = true) (a v : Nat) : (h.putWord a v).word a = v % 2 ^ 64 := by
  have hread := Memory.readN_writeN_same hwf a (natLe 8 v)
  rw [natLe_length] at hread
  have hpow : 256 ^ 8 = 2 ^ 64 := by decide
  rw [Hbm.word, Hbm.putWord, hread, leNat_natLe, hpow]

theorem Hbm.putWord_read_other {h : Hbm} (hwf : Memory.wf h.mem = true) {a b : Nat} (v : Nat) (hb : b < a ∨ a + 8 ≤ b) :
    Memory.read (h.putWord a v).mem b = Memory.read h.mem b :=
  Memory.read_writeN_other a b _ [] hwf (by rwa [natLe_length])

/-! ### The atomics on a good word -/

theorem Hbm.atomic_fetchAdd {h : Hbm} {a : Nat} (hgood : a ∉ h.badWords) (x : Nat) :
    h.atomic a (.fetchAdd x) = (h.putWord a ((h.word a + x) % 2 ^ 64), some (h.word a)) := by
  rw [Hbm.atomic, if_neg (by simpa using hgood)]
  rfl

theorem Hbm.atomic_compareSwap {h : Hbm} {a : Nat} (hgood : a ∉ h.badWords) (c w : Nat) :
    h.atomic a (.compareSwap c w) = (if h.word a = c then h.putWord a w else h, some (h.word a)) := by
  rw [Hbm.atomic, if_neg (by simpa using hgood)]
  rfl

/-- Settles O31: each atomic answers the old number, and what it writes is a number put into its word. -/
theorem atomicsActOnOneWord : Obligations.AtomicsActOnOneWord := by
  unfold Obligations.AtomicsActOnOneWord
  intro h a hwf hgood
  refine ⟨fun x => ?_, fun c w hw => ?_⟩
  · rw [Hbm.atomic_fetchAdd hgood]
    have hword := Hbm.putWord_word hwf a ((h.word a + x) % 2 ^ 64)
    rw [Nat.mod_mod] at hword
    exact ⟨rfl, hword, fun b hb => Hbm.putWord_read_other hwf _ hb⟩
  · rw [Hbm.atomic_compareSwap hgood]
    refine ⟨rfl, fun heq => ?_, fun hne => ?_⟩
    · rw [if_pos (show h.word a = c from heq)]
      exact ⟨(Hbm.putWord_word hwf a w).trans (Nat.mod_eq_of_lt hw), fun b hb => Hbm.putWord_read_other hwf w hb⟩
    · rw [if_neg (show h.word a ≠ c from hne)]

end Sys2Proof.Machine
end

section
/-! SUPPORT. Proofs of the obligation on TRANSLATION_WALK: the command comes down to what the walk comes to, and the fills of the caches leave
the leaf in the quarter's cache (R495, R503). -/
namespace Sys2Proof.Machine

/-! ### The caches -/

theorem mem_fillCache {α : Type} (n pick : Nat) (xs : List α) (x : α) : x ∈ fillCache n pick xs x := by
  unfold fillCache
  split <;> exact List.mem_append_right _ (List.mem_singleton_self x)

/-- R494: the TLB of a quarter that takes an entry holds it. -/
theorem State.mem_fillTlb {s : State} {q : Nat} (hq : q < s.quarters.length) (e : TlbEntry) : e ∈ ((s.fillTlb q e).quarter q).tlb := by
  have hquarter : (s.fillTlb q e).quarter q = { s.quarter q with tlb := fillCache 256 s.free.picks (s.quarter q).tlb e } :=
    (s.modQuarter_quarter q _ hq).trans (if_pos rfl)
  rw [hquarter]
  exact mem_fillCache _ _ _ e

/-- The table cache takes an entry. -/
def State.fillTable (s : State) (x : TableEntry) : State :=
  { s with
    fabric := { s.fabric with tableCache := fillCache 512 s.free.picks s.fabric.tableCache x }
    free := { s.free with picks := s.free.picks + 1 } }

theorem State.foldl_fillTable : ∀ (tables : List TableEntry) (s : State), ∃ f r,
    tables.foldl State.fillTable s = { s with fabric := f, free := r } ∧ f.walks = s.fabric.walks ∧ f.txns = s.fabric.txns
  | [], s => ⟨s.fabric, s.free, rfl, rfl, rfl⟩
  | x :: tables, s => State.foldl_fillTable tables (s.fillTable x)

/-- R495: beside the fill of the quarter's TLB, a walk's fills leave all but the shared caches and the count of free values. -/
theorem State.fillFromWalk_eq (s : State) (w : Walk) (e : TlbEntry) (tables : List TableEntry) : ∃ f r,
    s.fillFromWalk w e tables = { s.fillTlb w.quarter e with fabric := f, free := r } ∧ f.walks = s.fabric.walks ∧ f.txns = s.fabric.txns :=
  State.foldl_fillTable tables _

/-! ### The command -/

/-- The walk of context `c` in flight for the page of an address. -/
def State.walkOf (s : State) (c va : Nat) : Option Walk := s.fabric.walks.find? (fun w => w.ctx == c && w.va / 4096 == va / 4096)

/-- What the walk of context `c` comes to with the entries that have been read. -/
def State.walkRes (s : State) (c : Nat) (w : Walk) : WalkRes := s.walkFrom w [4, 3, 2, 1] (s.entry c).desc.troot []

/-- R503: the read of a table entry that a walk of context `c` asks for. -/
def State.walkRead (s : State) (c : Nat) (w : Walk) (lvl a : Nat) : Txn :=
  { id := 0, master := masterPwk, target := s.targetOf a, owner := .walk c w.va, kind := .read, spa := a, len := 8, seq := lvl, va := w.va }

section
variable {s : State} {c va : Nat} {w : Walk} (hc : c < 512)
include hc

theorem exec_translationWalk_of_none (h : s.walkOf c va = none) : exec (.translationWalk c va) s = .next s := by
  unfold State.walkOf at h
  change execTranslationWalk c va s = _
  simp [execTranslationWalk, Nat.not_le.mpr hc, h]

theorem exec_translationWalk_of_need {lvl a : Nat} (h : s.walkOf c va = some w) (hres : s.walkRes c w = .need lvl a) :
    exec (.translationWalk c va) s =
      .next (if s.fabric.txns.any (fun x => x.owner == .walk c w.va) then s else s.post (s.walkRead c w lvl a)) := by
  unfold State.walkOf at h
  unfold State.walkRes at hres
  change execTranslationWalk c va s = _
  simp [execTranslationWalk, Nat.not_le.mpr hc, h, hres, State.walkRead]

theorem exec_translationWalk_of_leaf {e : TlbEntry} {tables : List TableEntry} (h : s.walkOf c va = some w)
    (hres : s.walkRes c w = .leaf e tables) : exec (.translationWalk c va) s = .next ((s.endWalk w).fillFromWalk w e tables) := by
  unfold State.walkOf at h
  unfold State.walkRes at hres
  change execTranslationWalk c va s = _
  simp [execTranslationWalk, Nat.not_le.mpr hc, h, hres]

theorem exec_translationWalk_of_bad {i : FaultInfo} (h : s.walkOf c va = some w) (hres : s.walkRes c w = .bad i) :
    exec (.translationWalk c va) s = .next ((s.endWalk w).faultContext c i) := by
  unfold State.walkOf at h
  unfold State.walkRes at hres
  change execTranslationWalk c va s = _
  simp [execTranslationWalk, Nat.not_le.mpr hc, h, hres, State.routineFault]

end

/-- Settles O30: the command does what the walk comes to, and the fill of the quarter's TLB stands beside those of the shared caches. -/
theorem walksReadTheirTables : Obligations.WalksReadTheirTables := by
  unfold Obligations.WalksReadTheirTables
  intro s c va hc
  refine ⟨fun w hw => ⟨fun lvl a hres => ?_, fun e tables hres => ?_, fun i hres => ?_⟩, fun h => exec_translationWalk_of_none hc h⟩
  · have hexec := exec_translationWalk_of_need hc hw hres
    refine ⟨fun hfresh => ⟨s.post (s.walkRead c w lvl a), ?_, rfl, _, s.post_txns _, rfl, rfl, rfl, rfl, rfl, rfl⟩, fun hasked => ?_⟩
    · rw [hexec, hfresh, if_neg Bool.false_ne_true]
    · rw [hexec, hasked, if_pos rfl]
  · obtain ⟨f, r, hfill, hwalks, htxns⟩ := (s.endWalk w).fillFromWalk_eq w e tables
    refine ⟨_, (exec_translationWalk_of_leaf hc hw hres).trans (congrArg _ hfill), rfl, hwalks, htxns, fun hq => ?_⟩
    exact State.mem_fillTlb (s := s.endWalk w) hq e
  · exact ⟨_, exec_translationWalk_of_bad hc hw hres, rfl⟩

end Sys2Proof.Machine
end

section
/-! SUPPORT. Proofs of the obligation on the memory requests that arrive: a lawful one for backed memory comes down to its transaction, and an
RWR from the host to the records of a violation (R475, R487, R622, R638, R733). -/
namespace Sys2Proof.Machine

/-! ### What leaves memory, and posts records of this device alone -/

/-- Memory stays, and what is posted are records of this device. -/
structure PostsRecords (s t : State) : Prop where
  hbm : t.hbm = s.hbm
  txns : ∀ x ∈ t.fabric.txns, x ∈ s.fabric.txns ∨ x.owner = .device

namespace PostsRecords

variable {r s t : State}

theorem refl (s : State) : PostsRecords s s := ⟨rfl, fun _ hx => .inl hx⟩

theorem trans (h : PostsRecords r s) (k : PostsRecords s t) : PostsRecords r t :=
  ⟨k.hbm.trans h.hbm, fun x hx => (k.txns x hx).elim (h.txns x) .inr⟩

/-- An update of other parts of the state. -/
theorem update (h : PostsRecords r s) (hhbm : t.hbm = s.hbm) (hfabric : t.fabric = s.fabric) : PostsRecords r t :=
  h.trans ⟨hhbm, fun _ hx => .inl (hfabric ▸ hx)⟩

theorem ite {a : Prop} {_ : Decidable a} (h : PostsRecords r s) (k : PostsRecords r t) : PostsRecords r (if a then s else t) := by
  split
  · exact h
  · exact k

theorem modLykel (h : PostsRecords r s) (link : Nat) (f : Lykel → Lykel) : PostsRecords r (s.modLykel link f) :=
  ite (h.update rfl rfl) (h.update rfl rfl)

theorem bump (h : PostsRecords r s) (page off w n : Nat) : PostsRecords r (s.bump page off w n) := h.update rfl rfl

theorem writeDevice (h : PostsRecords r s) (master spa : Nat) (bytes : List Byte) (after : List Nat) :
    PostsRecords r (s.writeRecord master .device spa bytes after) := by
  unfold State.writeRecord
  refine ite (h.trans ⟨rfl, fun x hx => ?_⟩) (h.bump _ _ _ _)
  rw [State.post_txns, List.mem_append, List.mem_singleton] at hx
  obtain hold | rfl := hx
  · exact .inl hold
  · exact .inr rfl

theorem devicePart (h : PostsRecords r s) (code : Nat) (handle : Option Nat) (parts : Nat) (x : Nat × List Byte) :
    PostsRecords r (s.devicePart code handle parts x) := by
  have hwritten := fun spa bytes after => h.writeDevice masterEvw spa bytes after
  exact (h.bump _ _ _ _).ite (ite ((hwritten _ _ _).update rfl rfl) (h.bump _ _ _ _))

theorem foldl {α : Type} {f : State → α → State} (hf : ∀ s a, PostsRecords r s → PostsRecords r (f s a)) :
    ∀ (l : List α) {s : State}, PostsRecords r s → PostsRecords r (l.foldl f s)
  | [], _, h => h
  | a :: l, s, h => foldl hf l (hf s a h)

theorem deviceEvent (h : PostsRecords r s) (code : Nat) (handle : Option Nat) (payload : List Byte) :
    PostsRecords r (s.deviceEvent code handle payload) := foldl (fun _ _ k => k.devicePart _ _ _ _) _ h

theorem refreshStat (h : PostsRecords r s) : PostsRecords r s.refreshStat := ite (h.update (by simp) (by simp)) h

/-! ### Violations on the host link -/

theorem countViolation (h : PostsRecords r s) (link code ptype tag : Nat) : PostsRecords r (s.countViolation link code ptype tag) :=
  h.update rfl rfl

theorem modHost (h : PostsRecords r s) (f : HostLink → HostLink) : PostsRecords r (s.modHost f) := h.update rfl rfl

theorem enterRetrain (h : PostsRecords r s) : PostsRecords r (s.enterRetrain 0) := by
  unfold State.enterRetrain
  rw [if_pos rfl]
  exact ite (((h.modHost _).bump _ _ _ _).deviceEvent _ _ _).refreshStat h

theorem violate (h : PostsRecords r s) (code ptype tag : Nat) : PostsRecords r (s.violate 0 code ptype tag) := by
  have hcount := h.countViolation 0 code ptype tag
  have hstorm := fun l => hcount.update (t := { s.countViolation 0 code ptype tag with
    links := { (s.countViolation 0 code ptype tag).links with storm := l } }) rfl rfl
  exact ite ((hstorm _).countViolation _ _ _ _).enterRetrain (hstorm _)

theorem lnak (h : PostsRecords r s) (link code : Nat) (p : List Byte) : PostsRecords r (s.lnak link code p) :=
  (h.bump _ _ _ _).ite (h.modLykel _ _)

/-- R638: a packet that only a device may send is refused with an LNAK. -/
theorem discardPvDir (h : PostsRecords r s) (p : List Byte) : PostsRecords r (s.discard 0 Code.pvDir p) := by
  have hanswer : (isRequest p && Code.pvDir != Code.pvDir) = false := by simp
  rw [State.discard, hanswer, if_neg Bool.false_ne_true]
  exact (h.violate _ _ _).lnak _ _ _

end PostsRecords

/-! ### A packet is taken -/

theorem State.modLykel_frame (s : State) (link : Nat) (f : Lykel → Lykel) : ∃ l, s.modLykel link f = { s with links := l } := by
  unfold State.modLykel
  split
  · exact ⟨_, rfl⟩
  · exact ⟨_, rfl⟩

/-- R592: the taking of a packet is an update of the links. -/
theorem State.takePacket_frame (s : State) (link : Nat) (p : List Byte) : ∃ l, s.takePacket link p = { s with links := l } := by
  unfold State.takePacket
  dsimp only
  split
  · split
    · obtain ⟨l, hl⟩ := s.modLykel_frame link (fun lk => { lk with rxq := lk.rxq.erase _ })
      rw [hl]
      exact State.modLykel_frame _ link _
    · exact ⟨s.links, rfl⟩
  · exact ⟨s.links, rfl⟩

/-! ### A request -/

/-- The five commands that take a request, each with its packet type (Table 12.5). -/
def TakesRequest (i : Instr) (link : Nat) (p : List Byte) (k : Nat) : Prop :=
  (i = .mrd link p ∧ k = tMrd) ∨ (i = .mwr link p ∧ k = tMwr) ∨ (i = .mfa link p ∧ k = tMfa) ∨ (i = .mcs link p ∧ k = tMcs) ∨
    (i = .rwr link p ∧ k = tRwr)

theorem exec_of_takesRequest {i : Instr} {link k : Nat} {p : List Byte} (h : TakesRequest i link p k) (hlink : link < 17) (s : State) :
    exec i s = .next (s.takeRequest link k p) := by
  have hguard : exec i s = guardLink link (.next (s.takeRequest link k p)) := by
    obtain ⟨rfl, rfl⟩ | ⟨rfl, rfl⟩ | ⟨rfl, rfl⟩ | ⟨rfl, rfl⟩ | ⟨rfl, rfl⟩ := h <;> rfl
  exact hguard.trans (if_neg (Nat.not_le.mpr hlink))

/-- The device that asks, as a completion names it: none for the host. -/
def requester (link : Nat) (p : List Byte) : Nat := if link = 0 then 0 else reqSdev p

/-- A request that passes the checks of Table 12.13. -/
structure LawfulRequest (s : State) (link k : Nat) (p : List Byte) : Prop where
  length : p.length = 16 * (1 + pktNsl p)
  slots : pktNsl p = nslExpected p
  reserved : reqReserved link p = false
  size : reqSizeOk p = true
  aligned : k = tMfa ∨ k = tMcs → reqSpa p % 8 = 0
  host : link = 0 → pktTag p ≤ 255 ∧ k ≠ tRwr
  sender : link ≠ 0 → reqSdev p ≠ s.devId
  tag : s.tagBusy link (requester link p) (pktTag p) = false

section
variable {s : State} {link k : Nat} {p : List Byte}

theorem State.takeRequest_of_not_mine (h : pktType p ≠ k ∨ s.inTurn link p = false) : s.takeRequest link k p = s := by
  unfold State.takeRequest
  refine if_pos ?_
  obtain h | h := h <;> simp [h]

/-- R638: an RWR from the host is discarded in its turn. -/
theorem State.takeRequest_rwr_of_host (hrunning : s.running = true) (htype : pktType p = tRwr) :
    s.takeRequest 0 tRwr p = if s.inTurn 0 p then (s.takePacket 0 p).discard 0 Code.pvDir p else s := by
  unfold State.takeRequest
  cases s.inTurn 0 p <;> simp [hrunning, htype]

/-- R475, R487: a lawful request for an address of this device that no switch holds is served. -/
theorem State.takeRequest_of_lawful (h : LawfulRequest s link k p) (hlink : link < 17) (htype : pktType p = k) (hrunning : s.running = true)
    (hturn : s.inTurn link p = true) (hswitch : s.inSwitchRange (reqSpa p) = false) (hdev : spaDev (reqSpa p) = s.devId) :
    s.takeRequest link k p = (s.takePacket link p).serveRequest link p := by
  obtain ⟨hlen, hslots, hrsvd, hsize, halign, hhost, hsender, htag⟩ := h
  have hturned : ¬(pktType p ≠ k || !s.running || decide (16 < link) || !s.inTurn link p) = true := by
    simp [htype, hrunning, hturn, Nat.le_of_lt_succ hlink]
  have hrwr : ¬(link = 0 ∧ k = tRwr) := fun ⟨h0, hk⟩ => (hhost h0).2 hk
  have hhere : ¬(link ≠ 0 ∧ spaDev (reqSpa p) ≠ s.devId ∧ reqSdev p ≠ s.devId) := fun ⟨_, hne, _⟩ => hne hdev
  have hown : ¬(link ≠ 0 ∧ reqSdev p = s.devId) := fun ⟨h0, he⟩ => hsender h0 he
  have htagLow : ¬(link = 0 ∧ 255 < pktTag p) := fun ⟨h0, hlt⟩ => Nat.not_lt.mpr (hhost h0).1 hlt
  have haligned : ¬((k = tMfa ∨ k = tMcs) ∧ reqSpa p % 8 ≠ 0) := fun ⟨hk, hne⟩ => hne (halign hk)
  have hlength : ¬(p.length ≠ 16 * (1 + pktNsl p) ∨ pktNsl p ≠ nslExpected p) := by simp [hlen, hslots]
  unfold requester at htag
  unfold State.takeRequest
  rw [if_neg hturned, if_neg hrwr]
  simp only [decide_eq_false hhere, hswitch, if_neg hlength, if_neg hown, hrsvd, if_neg htagLow, hsize, if_neg haligned, htag,
    Bool.not_false, Bool.not_true, Bool.and_false, Bool.false_eq_true, if_false]

/-- R475: a request for backed memory of this device is posted at the stack that holds its address. -/
theorem State.serveRequest_of_backed (hdev : spaDev (reqSpa p) = s.devId) (hlocal : bitAt (reqSpa p) 51 = false)
    (hbacked : spaOff (reqSpa p) < Config.backedEnd) :
    s.serveRequest link p = s.postInbound link p (stackOf (spaOff (reqSpa p))) false := by
  simp [State.serveRequest, hdev, hlocal, hbacked]

end

/-- Settles O54: the checks that a lawful request passes leave its transaction; the RWR of the host leaves the records of a violation. -/
theorem requestsEnterTheFabric : Obligations.RequestsEnterTheFabric := by
  unfold Obligations.RequestsEnterTheFabric
  intro s i k link p hcommand hlink
  have hexec := exec_of_takesRequest hcommand hlink s
  refine ⟨fun htype hrunning hturn hswitch hlen hslots hrsvd hsize halign hhost hsender htag hdev hlocal hbacked => ?_, fun h => ?_,
    fun h0 hk htype hrunning => ?_⟩
  · have hlawful : LawfulRequest s link k p := ⟨hlen, hslots, hrsvd, hsize, halign, hhost, hsender, htag⟩
    rw [State.takeRequest_of_lawful hlawful hlink htype hrunning hturn hswitch hdev] at hexec
    obtain ⟨l, hl⟩ := s.takePacket_frame link p
    rw [hl, State.serveRequest_of_backed (s := { s with links := l }) hdev hlocal hbacked] at hexec
    subst htype
    exact ⟨_, hexec, rfl, _, State.post_txns _ _, rfl, rfl, rfl, rfl, rfl, rfl, rfl⟩
  · rw [hexec, State.takeRequest_of_not_mine h]
  · subst h0 hk
    rw [State.takeRequest_rwr_of_host hrunning htype] at hexec
    obtain ⟨l, hl⟩ := s.takePacket_frame 0 p
    have htaken : PostsRecords s (s.takePacket 0 p) := hl ▸ (PostsRecords.refl s).update rfl rfl
    obtain ⟨hhbm, htxns⟩ := (htaken.discardPvDir p).ite (a := s.inTurn 0 p = true) (PostsRecords.refl s)
    exact ⟨_, hexec, hhbm, htxns⟩

end Sys2Proof.Machine
end

section
/-! SUPPORT. Proofs about a grant of the memory fabric: its answers leave memory, time, tiles and planes, and its access changes the bytes
that its request names (R514, R526, R536, R566, R567). -/
namespace Sys2Proof.Machine

/-! ### What answers and outgoing requests leave -/

namespace KeepsBooks

variable {p : Prop} {r s : State}

theorem bump (h : KeepsBooks p r s) (page off w n : Nat) : KeepsBooks p r (s.bump page off w n) := h.update rfl (fun _ => rfl) rfl rfl

theorem chargeCore (h : KeepsBooks p r s) (n : Nat) : KeepsBooks p r (s.chargeCore n) := h.update rfl (fun _ => rfl) rfl rfl

theorem chargeFixed (h : KeepsBooks p r s) (n : Nat) : KeepsBooks p r (s.chargeFixed n) :=
  h.update (by simp [State.base]) (fun _ => by simp) (by simp) (by simp)

theorem links (h : KeepsBooks p r s) (l : Links) : KeepsBooks p r { s with links := l } := h.update rfl (fun _ => rfl) rfl rfl

theorem enqueue (h : KeepsBooks p r s) (link ch : Nat) (bytes : List Byte) : KeepsBooks p r (s.enqueue link ch bytes) :=
  ite (h.links _) (h.links _)

theorem countStatus (h : KeepsBooks p r s) (st : Nat) : KeepsBooks p r (s.countStatus st) := h.ite (h.bump _ _ _ _)

theorem sendToRequester (h : KeepsBooks p r s) (link sdev : Nat) (bytes : List Byte) : KeepsBooks p r (s.sendToRequester link sdev bytes) :=
  (h.enqueue _ _ _).ite (h.links _)

theorem answerCpl (h : KeepsBooks p r s) (link tag sdev st : Nat) : KeepsBooks p r (s.answerCpl link tag sdev st) :=
  (h.countStatus st).sendToRequester _ _ _

theorem answerRead (h : KeepsBooks p r s) (link tag sdev spa : Nat) (data : List Byte) (bad : List Nat) :
    KeepsBooks p r (s.answerRead link tag sdev spa data bad) :=
  foldl (fun _ _ k => (k.countStatus _).sendToRequester _ _ _) _ h

/-- R547: whoever asked for a transaction, its end leaves memory, time, tiles and planes. -/
theorem endTxn (h : KeepsBooks p r s) (x : Txn) (data : List Byte) (bad : List Nat) (st : Nat) :
    KeepsBooks p r (s.endTxn x data bad st) := by
  unfold State.endTxn
  extract_lets isRead s1 data1 bad1 got
  have hended : KeepsBooks p r s1 := (h.modFabric _).chargeCore _
  have hgot := hended.modFabric (fun f => { f with got := f.got ++ [got] })
  split
  · exact hgot.ite (hended.ite (hended.contextEvent _ _ _))
  · exact hgot
  · exact hgot.ite (hended.ite (hended.recordLost 1))
  · exact hended.ite (hended.recordLost 1)
  · exact hended
  · exact hended
  · refine ite (hended.answerCpl _ _ _ _) ?_
    split
    · exact hended.answerRead _ _ _ _ _ _
    · exact hended.answerCpl _ _ _ _
    · exact hended.sendToRequester _ _ _

theorem modStream (h : KeepsBooks p r s) (d : Nat) (f : Stream → Stream) : KeepsBooks p r (s.modStream d f) := h.links _

theorem sendPart (h : KeepsBooks p r s) (x : Txn) (link vn : Nat) (turn : Bool) (part : Nat × Nat) :
    KeepsBooks p r (s.sendPart x link vn turn part) := by
  unfold State.sendPart
  split
  · exact h
  · exact ite (((h.enqueue _ _ _).links _).modStream _ _) ((h.enqueue _ _ _).links _)

theorem sendTxn (h : KeepsBooks p r s) (x : Txn) (link vn : Nat) (turn : Bool) : KeepsBooks p r (s.sendTxn x link vn turn) :=
  foldl (fun _ _ k => k.sendPart _ _ _ _ _) _ (h.modFabric _)

/-- R475, R670, R720: a grant at HLO or FPO leaves memory, time, tiles and planes. -/
theorem grantOut (h : KeepsBooks p r s) (x : Txn) : KeepsBooks p r (s.grantOut x) := by
  unfold State.grantOut
  refine ite (ite (h.endTxn _ _ _ _) (h.sendTxn _ _ _ _)) ?_
  split
  · exact (h.modFabric _).links _
  · split
    · exact (h.bump _ _ _ _).endTxn _ _ _ _
    · exact h.sendTxn _ _ _ _

theorem countEcc (h : KeepsBooks p r s) (stack ce ue : Nat) (fs : List HbmFound) : KeepsBooks p r (s.countEcc stack ce ue fs) :=
  ((h.bump _ _ _ _).bump _ _ _ _).bump _ _ _ _

/-- The same local HBM put into both states. -/
theorem putHbm (h : KeepsBooks p r s) (m : Hbm) : KeepsBooks p { r with hbm := m } { s with hbm := m } := by
  obtain ⟨⟨hbase, hslices, hquarters⟩, hentry⟩ := h
  exact ⟨⟨congrArg (fun b => (m, b.2)) hbase, hslices, hquarters⟩, hentry⟩

end KeepsBooks

/-! ### What an access changes -/

/-- Reading back a byte of a write with enables: what was written where it is enabled, and what was there elsewhere (R536). -/
theorem Memory.read_writeN_at : ∀ {m : List Host.Cell} (a i : Nat) (bs : List Byte) (es : List Bool), Memory.wf m = true → i < bs.length →
    Memory.read (Memory.writeN m a bs es) (a + i) = if enabledAt es i then bs.getD i 0 else Memory.read m (a + i)
  | _, a, i, bs, [], h, hi => by
    rw [Memory.read_writeN_same a i bs h hi]
    exact (if_pos rfl).symm
  | _, a, 0, b :: bs, e :: es, h, _ => by
    cases e with
    | false => exact Memory.read_writeN_other (a + 1) a bs es h (.inl (Nat.lt_succ_self a))
    | true =>
      have hrest := Memory.read_writeN_other (a + 1) a bs es (Memory.write_wf a b h) (.inl (Nat.lt_succ_self a))
      exact hrest.trans (Memory.read_write_same a b h)
  | m, a, i + 1, b :: bs, e :: es, h, hi => by
    have hwf : Memory.wf (if e then Memory.write m a b else m) = true := by
      split
      · exact Memory.write_wf a b h
      · exact h
    have hsame : Memory.read (if e then Memory.write m a b else m) (a + 1 + i) = Memory.read m (a + 1 + i) := by
      split
      · exact Memory.read_write_other b h (by omega)
      · rfl
    have hnext : a + (i + 1) = a + 1 + i := by omega
    rw [hnext, Memory.writeN, Memory.read_writeN_at (a + 1) i bs es hwf (Nat.lt_of_succ_lt_succ hi), hsame]
    rfl

/-- What a request admitted at an HBM target makes of the bytes of memory (R514, R526, R527, R536). -/
structure Txn.TakesEffect (x : Txn) (m m' : List Host.Cell) : Prop where
  read : x.kind = .read → m' = m
  write : x.kind = .write → m' = Memory.writeN m (spaOff x.spa) x.data x.enables
  atomic : x.kind ≠ .read → x.kind ≠ .write → m' = m ∨ ∃ v, m' = Memory.writeN m (spaOff x.spa) (natLe 8 v) []

/-- Byte `a` is none that a request may change. -/
def Txn.Spares (x : Txn) (a : Nat) : Prop := x.kind ≠ .read → a < spaOff x.spa ∨ spaOff x.spa + max 8 x.data.length ≤ a

namespace Txn.TakesEffect

variable {x : Txn} {m m' : List Host.Cell}

theorem wf (h : x.TakesEffect m m') (hwf : Memory.wf m = true) : Memory.wf m' = true := by
  by_cases hread : x.kind = .read
  · exact h.read hread ▸ hwf
  by_cases hwrite : x.kind = .write
  · exact h.write hwrite ▸ Memory.writeN_wf _ _ _ hwf
  obtain rfl | ⟨v, rfl⟩ := h.atomic hread hwrite
  · exact hwf
  · exact Memory.writeN_wf _ _ _ hwf

theorem read_spared (h : x.TakesEffect m m') (hwf : Memory.wf m = true) {a : Nat} (ha : x.Spares a) : Memory.read m' a = Memory.read m a := by
  by_cases hread : x.kind = .read
  · rw [h.read hread]
  have hout := ha hread
  by_cases hwrite : x.kind = .write
  · rw [h.write hwrite]
    exact Memory.read_writeN_other _ a _ _ hwf (by omega)
  obtain rfl | ⟨v, rfl⟩ := h.atomic hread hwrite
  · rfl
  · exact Memory.read_writeN_other _ a _ [] hwf (by rw [natLe_length]; omega)

end Txn.TakesEffect

/-- R526 to R529: an atomic leaves memory, or puts a number into its word. -/
theorem Hbm.atomic_mem (h : Hbm) (a : Nat) (k : TxnKind) :
    (h.atomic a k).1.mem = h.mem ∨ ∃ v, (h.atomic a k).1.mem = Memory.writeN h.mem a (natLe 8 v) [] := by
  unfold Hbm.atomic
  split
  · exact .inl rfl
  · dsimp only
    split
    · exact .inr ⟨_, rfl⟩
    · split
      · exact .inr ⟨_, rfl⟩
      · exact .inl rfl
    · exact .inl rfl

/-! ### A grant -/

/-- What a granted request leaves, and what it makes of memory. -/
structure Granted (x : Txn) (s t : State) : Prop where
  slices : t.slices = s.slices
  planes : ∀ q, (t.quarter q).planes = (s.quarter q).planes
  now : x.target ≠ 6 → t.now = s.now
  far : 4 ≤ x.target → t.hbm.mem = s.hbm.mem
  effect : x.target < 4 → x.TakesEffect s.hbm.mem t.hbm.mem

namespace Granted

variable {x : Txn} {s t u : State}

/-- A grant at a stack is an access, and answers that leave what it made of memory. -/
theorem of_hbm {h : Hbm} (hk : KeepsBooks True { s with hbm := h } t) (hstack : x.target < 4) (heffect : x.TakesEffect s.hbm.mem h.mem) :
    Granted x s t where
  slices := hk.slices trivial
  planes := hk.planes
  now _ := hk.now
  far h4 := absurd hstack (Nat.not_lt.mpr h4)
  effect _ := by rw [hk.hbm]; exact heffect

/-- A grant at another target takes no time but at SLOW. -/
theorem of_now {n : Nat} (hk : KeepsBooks True { s with now := n } t) (hfar : 4 ≤ x.target) (hn : x.target ≠ 6 → n = s.now) :
    Granted x s t where
  slices := hk.slices trivial
  planes := hk.planes
  now h6 := hk.now.trans (hn h6)
  far _ := congrArg Hbm.mem hk.hbm
  effect h4 := absurd h4 (Nat.not_lt.mpr hfar)

theorem after (hk : KeepsBooks True s u) (h : Granted x u t) : Granted x s t where
  slices := h.slices.trans (hk.slices trivial)
  planes q := (h.planes q).trans (hk.planes q)
  now h6 := (h.now h6).trans hk.now
  far h4 := (h.far h4).trans (congrArg Hbm.mem hk.hbm)
  effect h4 := hk.hbm ▸ h.effect h4

end Granted

/-- R564, R565: an entry is taken by an update of the fabric, and the pieces of its burst wait. -/
theorem State.takeEntry_frame (s : State) (x : Txn) (got : List Byte) (bad : List Nat) (st : Nat) : ∃ f,
    s.takeEntry x got bad st =
      { s.modFabric f with hbm := { s.hbm with pieces := s.hbm.pieces ++ dramPieces x.id x.burstOff x.burstLen } } := ⟨_, rfl⟩

theorem State.admitRead_granted (s : State) {x : Txn} (hstack : x.target < 4) (hread : x.kind = .read) : Granted x s (s.admitRead x) := by
  obtain ⟨f, hentry⟩ := s.takeEntry_frame x (s.hbm.read (spaOff x.spa) x.len)
    ((s.hbm.badChunks (spaOff x.spa) x.len).map (fun c => x.spa - spaOff x.spa + c)) 0
  rw [State.admitRead, hentry]
  exact .of_hbm (((KeepsBooks.refl True s).modFabric f).putHbm _) hstack
    ⟨fun _ => rfl, fun hwrite => (nomatch hread.symm.trans hwrite), fun hne _ => absurd hread hne⟩

theorem State.admitWrite_granted (s : State) {x : Txn} (hstack : x.target < 4) (hwrite : x.kind = .write) (fs : List HbmFound) :
    Granted x s (s.admitWrite x fs) := by
  unfold State.admitWrite
  extract_lets a part ce ue path s1 s2 h2 s3
  have hcounted : KeepsBooks True s s1 := ((KeepsBooks.refl True s).countEcc _ _ _ _).bump _ _ _ _
  have hwritten : KeepsBooks True { s with hbm := s3.hbm } s3 := hcounted.putHbm _
  exact .of_hbm ((hwritten.modFabric _).endTxn _ _ _ _) hstack
    ⟨fun hread => (nomatch hread.symm.trans hwrite), fun _ => rfl, fun _ hne => absurd hwrite hne⟩

theorem State.admitAtomic_granted (s : State) {x : Txn} (hstack : x.target < 4) (hread : x.kind ≠ .read) (hwrite : x.kind ≠ .write)
    (fs : List HbmFound) : Granted x s (s.admitAtomic x fs) := by
  unfold State.admitAtomic
  extract_lets a h0 h ce r s1
  have hmem : h.mem = s.hbm.mem := by
    unfold h
    split <;> rfl
  have heffect : x.TakesEffect s.hbm.mem r.1.mem :=
    ⟨fun hr => absurd hr hread, fun hw => absurd hw hwrite, fun _ _ => hmem ▸ h.atomic_mem a x.kind⟩
  clear_value r
  have hdone : KeepsBooks True { s with hbm := r.1 } s1 := (KeepsBooks.refl True _).countEcc _ _ _ _
  have hentered : ∀ u got st, KeepsBooks True { s with hbm := r.1 } u → u.hbm.mem = r.1.mem → Granted x s (u.takeEntry x got [] st) :=
    fun u got st hk hu => by
      obtain ⟨f, hentry⟩ := u.takeEntry_frame x got [] st
      rw [hentry]
      exact .of_hbm ((hk.modFabric f).putHbm _) hstack (hu ▸ heffect)
  split
  · exact hentered _ _ _ (hdone.modFabric _) (congrArg Hbm.mem hdone.hbm)
  · exact hentered _ _ _ hdone (congrArg Hbm.mem hdone.hbm)

/-- R565 to R567: a grant at a stack admits its request, which takes effect. -/
theorem State.grantHbm_granted (s : State) {x : Txn} (hstack : x.target < 4) (fs : List HbmFound) : Granted x s (s.grantHbm x fs) := by
  have hcharged := (KeepsBooks.refl True s).chargeFixed (6 * (chunksOf x.spa x.len).length)
  refine .after hcharged ?_
  unfold State.grantHbm
  dsimp only
  split
  · next hread => exact State.admitRead_granted _ hstack hread
  · next hwrite => exact State.admitWrite_granted _ hstack hwrite fs
  · next hread hwrite => exact State.admitAtomic_granted _ hstack hread hwrite fs

/-! ### The stamp of a response -/

theorem State.stamped_eq (s : State) (x : Txn) : s.stamped x = { x with data := (s.stamped x).data } := by
  unfold State.stamped
  split <;> rfl

theorem State.stamped_target (s : State) (x : Txn) : (s.stamped x).target = x.target := by rw [State.stamped_eq]

theorem State.stamped_of_read (s : State) {x : Txn} (h : x.kind = .read) : s.stamped x = x := by
  simp [State.stamped, Txn.isWrite, h]

/-- R215: whatever the time, the stamp is of eight bytes. -/
theorem State.stamped_data_length (s u : State) (x : Txn) : (s.stamped x).data.length = (u.stamped x).data.length := by
  unfold State.stamped
  split
  · simp
  · rfl

theorem State.stamped_spares_iff (s : State) (x : Txn) (a : Nat) : (s.stamped x).Spares a ↔
    (x.kind ≠ .read → a < spaOff x.spa ∨ spaOff x.spa + max 8 (s.stamped x).data.length ≤ a) := by
  rw [Txn.Spares, s.stamped_eq x]

/-- What a request spares does not depend on when it is stamped. -/
theorem State.stamped_spares {s u : State} {x : Txn} {a : Nat} (h : (s.stamped x).Spares a) : (u.stamped x).Spares a := by
  rw [State.stamped_spares_iff] at h ⊢
  rwa [State.stamped_data_length u s x]

/-- R543: a grant at a target. -/
theorem State.grant_granted (s : State) (x : Txn) (fs : List HbmFound) : Granted (s.stamped x) s (s.grant x fs) := by
  have hcharged := (KeepsBooks.refl True s).chargeCore (8 * (s.stamped x).requestCycles)
  refine .after hcharged ?_
  unfold State.grant
  dsimp only
  split
  · next hstack => exact State.grantHbm_granted _ hstack fs
  · next hfar =>
    split
    · next hslow =>
      exact .of_now ((KeepsBooks.refl _ _).endTxn _ _ _ _) (Nat.not_lt.mp hfar) (fun hne => absurd hslow hne)
    · exact .of_now ((KeepsBooks.refl _ _).grantOut _) (Nat.not_lt.mp hfar) (fun _ => rfl)

/-- R566: the data of a read that is admitted are the bytes of memory. -/
theorem State.mem_admitRead_txns {s : State} {x y : Txn} (hy : y ∈ (s.admitRead x).fabric.txns) (hid : y.id = x.id) :
    y.state = .admitted ∧ y.got = Memory.readN s.hbm.mem (spaOff x.spa) x.len := by
  obtain ⟨z, -, rfl⟩ := List.mem_map.mp hy
  split at hid
  · next hz => exact if_pos hz ▸ ⟨rfl, rfl⟩
  · next hz => exact absurd hid hz

theorem State.grant_of_read (s : State) {x : Txn} (hstack : x.target < 4) (hread : x.kind = .read) (fs : List HbmFound) :
    s.grant x fs = ((s.chargeCore (8 * x.requestCycles)).chargeFixed (6 * (chunksOf x.spa x.len).length)).admitRead x := by
  simp only [State.grant, s.stamped_of_read hread, if_pos hstack, State.grantHbm, hread]

end Sys2Proof.Machine
end

section
/-! SUPPORT. Proofs of the obligation on the rounds of the fabric's targets: a round grants requests that are posted, and a lone one in any
case; what it leaves is what each grant leaves (R543, R550, R552). -/
namespace Sys2Proof.Machine

/-! ### The requests that a round grants -/

/-- R543, R546: what a master posts at a target is of that master and for that target. -/
theorem State.mem_postedAt {s : State} {k : Nat} {x : Txn} (h : x ∈ s.postedAt k) : x.target = k ∧ x.master < 10 := by
  obtain ⟨m, hm, hx⟩ := List.mem_filterMap.mp h
  obtain ⟨hposted, hreach⟩ := Option.filter_eq_some_iff.mp hx
  simp only [Bool.and_eq_true, beq_iff_eq] at hreach
  have hmaster : x.master = m := by
    unfold State.postedBy at hposted
    split at hposted
    · next t ht =>
      cases hposted
      have hfound := List.find?_some ht
      simp only [Bool.and_eq_true, beq_iff_eq] at hfound
      exact hfound.1.1
    · split at hposted
      · cases hposted
      · have hfound := List.find?_some hposted
        simp only [Bool.and_eq_true, beq_iff_eq] at hfound
        exact hfound.1
  exact ⟨hreach.1, hmaster ▸ List.mem_range.mp hm⟩

/-- The requests of a list in the order of a list of masters. -/
def inOrder (ms : List Nat) (ts : List Txn) : List Txn := ms.filterMap (fun m => ts.find? (fun t => t.master == m))

theorem roundWinners_eq (ptr : Nat) (fixed : Bool) (prio : Txn → Nat) (e : List Txn) : roundWinners ptr fixed prio e =
    if !(e.filter (fun t => decide (16 ≤ t.lost))).isEmpty then inOrder (masterRotation ptr) (e.filter (fun t => decide (16 ≤ t.lost)))
    else if fixed then (inOrder fixedOrder e).take 1
    else (inOrder (masterRotation ptr) (e.filter (fun t => prio t == e.foldl (fun n t => max n (prio t)) 0))).take 1 := rfl

theorem mem_of_mem_inOrder {ms : List Nat} {ts : List Txn} {x : Txn} (h : x ∈ inOrder ms ts) : x ∈ ts := by
  obtain ⟨m, -, hfind⟩ := List.mem_filterMap.mp h
  exact List.mem_of_find?_eq_some hfind

/-- R550, R551: a round grants requests that are eligible. -/
theorem mem_of_mem_roundWinners {ptr : Nat} {fixed : Bool} {prio : Txn → Nat} {e : List Txn} {x : Txn}
    (h : x ∈ roundWinners ptr fixed prio e) : x ∈ e := by
  rw [roundWinners_eq] at h
  split at h
  · exact (List.mem_filter.mp (mem_of_mem_inOrder h)).1
  · split at h
    · exact mem_of_mem_inOrder (List.mem_of_mem_take h)
    · exact (List.mem_filter.mp (mem_of_mem_inOrder (List.mem_of_mem_take h))).1

/-- In an order of masters, a lone request comes where its master is named. -/
theorem inOrder_cons_singleton (m : Nat) (ms : List Nat) (x : Txn) :
    inOrder (m :: ms) [x] = if x.master = m then x :: inOrder ms [x] else inOrder ms [x] := by
  by_cases h : x.master = m <;> simp [inOrder, h]

theorem inOrder_singleton_of_not_mem {x : Txn} : ∀ {ms : List Nat}, x.master ∉ ms → inOrder ms [x] = []
  | [], _ => rfl
  | m :: ms, h => by
    rw [List.mem_cons, not_or] at h
    obtain ⟨hne, hrest⟩ := h
    rw [inOrder_cons_singleton, if_neg hne, inOrder_singleton_of_not_mem hrest]

theorem inOrder_singleton {x : Txn} : ∀ {ms : List Nat}, ms.Nodup → x.master ∈ ms → inOrder ms [x] = [x]
  | m :: ms, hnodup, hmem => by
    obtain ⟨hnew, hnodup⟩ := List.nodup_cons.mp hnodup
    rw [inOrder_cons_singleton]
    split
    · next h => rw [inOrder_singleton_of_not_mem (h ▸ hnew)]
    · next h => exact inOrder_singleton hnodup (List.mem_of_ne_of_mem h hmem)

theorem masterRotation_nodup (ptr : Nat) : (masterRotation ptr).Nodup := by
  refine List.pairwise_map.mpr (List.nodup_range.imp_of_mem (fun hi hj hne => ?_))
  rw [List.mem_range] at hi hj
  omega

theorem mem_masterRotation (ptr : Nat) {m : Nat} (h : m < 10) : m ∈ masterRotation ptr :=
  List.mem_map.mpr ⟨(m + 10 - ptr % 10) % 10, List.mem_range.mpr (by omega), by omega⟩

/-- R550: a lone eligible request is granted, whatever the arbitration. -/
theorem roundWinners_singleton (ptr : Nat) (fixed : Bool) (prio : Txn → Nat) {x : Txn} (hmaster : x.master < 10) :
    roundWinners ptr fixed prio [x] = [x] := by
  have hrotated := inOrder_singleton (masterRotation_nodup ptr) (mem_masterRotation ptr hmaster)
  have hfixed : inOrder fixedOrder [x] = [x] :=
    inOrder_singleton (by decide) (by simp only [fixedOrder, List.mem_cons, List.not_mem_nil, or_false]; omega)
  rw [roundWinners_eq]
  by_cases hlost : 16 ≤ x.lost
  · simp [hlost, hrotated]
  · cases fixed
    · simp [hlost, hrotated]
    · simp [hlost, hfixed]

/-! ### A round -/

/-- What a round that grants requests of a target leaves, and the bytes that it may change. -/
structure RoundKeeps (k : Nat) (won : List Txn) (s t : State) : Prop where
  slices : t.slices = s.slices
  planes : ∀ q, (t.quarter q).planes = (s.quarter q).planes
  now : k ≠ 6 → t.now = s.now
  far : 4 ≤ k → t.hbm.mem = s.hbm.mem
  bytes : ∀ a, (∀ x ∈ won, (s.stamped x).Spares a) → Memory.read t.hbm.mem a = Memory.read s.hbm.mem a

/-- Grants one after another. -/
theorem State.foldl_grant_keeps {k : Nat} (errs : Txn → List HbmFound) : ∀ (won : List Txn) (s : State), (∀ x ∈ won, x.target = k) →
    Memory.wf s.hbm.mem = true → RoundKeeps k won s (won.foldl (fun s w => s.grant w (errs w)) s)
  | [], s, _, _ => ⟨rfl, fun _ => rfl, fun _ => rfl, fun _ => rfl, fun _ _ => rfl⟩
  | x :: won, s, htarget, hwf => by
    obtain ⟨hslices, hplanes, hnow, hfar, heffect⟩ := s.grant_granted x (errs x)
    rw [s.stamped_target x, htarget x List.mem_cons_self] at hnow hfar heffect
    have hwf' : Memory.wf (s.grant x (errs x)).hbm.mem = true := by
      obtain hstack | h4 := Nat.lt_or_ge k 4
      · exact (heffect hstack).wf hwf
      · exact hfar h4 ▸ hwf
    have hspared : ∀ a, (s.stamped x).Spares a → Memory.read (s.grant x (errs x)).hbm.mem a = Memory.read s.hbm.mem a := fun a ha => by
      obtain hstack | h4 := Nat.lt_or_ge k 4
      · exact (heffect hstack).read_spared hwf ha
      · rw [hfar h4]
    have hrest := State.foldl_grant_keeps errs won (s.grant x (errs x)) (fun y hy => htarget y (List.mem_cons_of_mem x hy)) hwf'
    exact
      { slices := hrest.slices.trans hslices
        planes := fun q => (hrest.planes q).trans (hplanes q)
        now := fun h6 => (hrest.now h6).trans (hnow h6)
        far := fun h4 => (hrest.far h4).trans (hfar h4)
        bytes := fun a ha => (hrest.bytes a (fun y hy => State.stamped_spares (ha y (List.mem_cons_of_mem x hy)))).trans
          (hspared a (ha x List.mem_cons_self)) }

/-- R550: the requests that a round of a target grants, in order. -/
def State.winnersAt (s : State) (k : Nat) : List Txn :=
  roundWinners (s.fabric.ptrs.getD k 0) s.profile.fabArbFixed (fun t => s.profile.fabPrio.getD (7 * t.master + k) 0)
    ((s.postedAt k).filter s.eligibleAt)

/-- R552: the grants of a round start from an update of the fabric. -/
theorem State.targetRound_frame (s : State) (k : Nat) (errs : List (Nat × HbmFound)) : ∃ f,
    s.targetRound k errs = (s.winnersAt k).foldl (fun s w => s.grant w (errsOf errs w.master)) { s with fabric := f } := ⟨_, rfl⟩

theorem State.targetRound_keeps {s : State} (hwf : Memory.wf s.hbm.mem = true) (k : Nat) (errs : List (Nat × HbmFound)) :
    RoundKeeps k (s.postedAt k) s (s.targetRound k errs) := by
  have hposted : ∀ x ∈ s.winnersAt k, x ∈ s.postedAt k := fun x hx => (List.mem_filter.mp (mem_of_mem_roundWinners hx)).1
  obtain ⟨f, hround⟩ := s.targetRound_frame k errs
  obtain ⟨hslices, hplanes, hnow, hfar, hbytes⟩ := State.foldl_grant_keeps (fun w => errsOf errs w.master) (s.winnersAt k)
    { s with fabric := f } (fun x hx => (State.mem_postedAt (hposted x hx)).1) hwf
  rw [hround]
  exact ⟨hslices, hplanes, hnow, hfar, fun a ha => hbytes a (fun x hx => ha x (hposted x hx))⟩

/-- R550: a round with one eligible request is its grant. -/
theorem State.targetRound_of_lone {s : State} {k : Nat} {x : Txn} (h : (s.postedAt k).filter s.eligibleAt = [x])
    (errs : List (Nat × HbmFound)) : ∃ f, s.targetRound k errs = ({ s with fabric := f } : State).grant x (errsOf errs x.master) := by
  have hmem : x ∈ (s.postedAt k).filter s.eligibleAt := h ▸ List.mem_singleton_self x
  have hwon : s.winnersAt k = [x] := by
    rw [State.winnersAt, h]
    exact roundWinners_singleton _ _ _ (State.mem_postedAt (List.mem_filter.mp hmem).1).2
  obtain ⟨f, hround⟩ := s.targetRound_frame k errs
  exact ⟨f, by rw [hround, hwon]; rfl⟩

/-! ### FABRIC_TARGET_ROUND -/

/-- R577: a write at the head of its queue is done by an update of the queues and the open rows. -/
theorem State.drainWrite_frame (s : State) (p : DramPiece) : ∃ h, s.drainWrite p = { s with hbm := h } ∧ h.mem = s.hbm.mem := by
  unfold State.drainWrite
  split
  · exact ⟨_, rfl, rfl⟩
  · exact ⟨s.hbm, rfl, rfl⟩

theorem State.foldl_drainWrite_frame : ∀ (ps : List DramPiece) (s : State), ∃ h,
    ps.foldl State.drainWrite s = { s with hbm := h } ∧ h.mem = s.hbm.mem
  | [], s => ⟨s.hbm, rfl, rfl⟩
  | p :: ps, s => by
    obtain ⟨h, hone, hmem⟩ := s.drainWrite_frame p
    obtain ⟨h', hrest, hmem'⟩ := State.foldl_drainWrite_frame ps { s with hbm := h }
    exact ⟨h', by rw [List.foldl_cons, hone, hrest], hmem'.trans hmem⟩

theorem State.drainWrites_frame (s : State) (stack : Nat) : ∃ h, s.drainWrites stack = { s with hbm := h } ∧ h.mem = s.hbm.mem :=
  State.foldl_drainWrite_frame _ s

/-- A round of a running device is one with the writes at the heads of its stack's queues done, which leaves the bytes of memory. -/
theorem exec_fabricTargetRound {s : State} {k : Nat} (hk : k < 7) (hrunning : s.running = true) (path : List (Nat × Nat))
    (words : List (Nat × HbmFound)) : ∃ h errs, h.mem = s.hbm.mem ∧
      exec (.fabricTargetRound k path words) s = .next (({ s with hbm := h } : State).targetRound k errs) := by
  have hexec : exec (.fabricTargetRound k path words) s =
      .next ((if k < 4 then s.drainWrites k else s).targetRound k (path.map (fun x => (x.1, .path x.2)) ++ words)) := by
    change execFabricTargetRound k path words s = _
    rw [execFabricTargetRound, if_neg (Nat.not_le.mpr hk), hrunning]
    rfl
  obtain ⟨h, hdrained, hmem⟩ := s.drainWrites_frame k
  by_cases hstack : k < 4
  · rw [if_pos hstack, hdrained] at hexec
    exact ⟨h, _, hmem, hexec⟩
  · rw [if_neg hstack] at hexec
    exact ⟨s.hbm, _, rfl, hexec⟩

/-- R514, R536: a granted write leaves its enabled bytes in memory, and only them. -/
theorem State.stamped_takesEffect_write {s : State} {x : Txn} {m m' : List Host.Cell} (h : (s.stamped x).TakesEffect m m')
    (hwrite : x.kind = .write) (hwf : Memory.wf m = true) {i : Nat} (hi : i < (s.stamped x).data.length) :
    Memory.read m' (spaOff x.spa + i) =
      if enabledAt x.enables i then (s.stamped x).data.getD i 0 else Memory.read m (spaOff x.spa + i) := by
  have hm' : m' = Memory.writeN m (spaOff x.spa) (s.stamped x).data x.enables := by
    rw [s.stamped_eq x] at h
    exact h.write hwrite
  rw [hm']
  exact Memory.read_writeN_at _ i _ _ hwf hi

/-- Settles O27: a round is its grants, each of which leaves all but the bytes that its request names; that of a lone request is its access. -/
theorem fabricRoundsWriteOnlyPostedBytes : Obligations.FabricRoundsWriteOnlyPostedBytes := by
  unfold Obligations.FabricRoundsWriteOnlyPostedBytes
  intro s k path words hk hrunning hwf
  obtain ⟨h, errs, hmem, hexec⟩ := exec_fabricTargetRound hk hrunning path words
  obtain ⟨hslices, hplanes, hnow, hfar, hbytes⟩ :=
    State.targetRound_keeps (s := { s with hbm := h }) (hmem.symm ▸ hwf) k errs
  refine ⟨_, hexec, hslices, hplanes, hnow, fun h4 => (hfar h4).trans hmem, fun a ha => ?_, fun x hstack hlone => ?_⟩
  · exact (hbytes a (fun x hx => (s.stamped_spares_iff x a).mpr (ha x hx))).trans (congrArg (Memory.read · a) hmem)
  · obtain ⟨f, hround⟩ := State.targetRound_of_lone (s := { s with hbm := h }) hlone errs
    have htarget : x.target < 4 :=
      (State.mem_postedAt (List.mem_filter.mp (hlone ▸ List.mem_singleton_self x)).1).1.symm ▸ hstack
    have heffect := (State.grant_granted { s with hbm := h, fabric := f } x (errsOf errs x.master)).effect
      ((State.stamped_target _ x).symm ▸ htarget)
    rw [show ({ s with hbm := h, fabric := f } : State).hbm.mem = s.hbm.mem from hmem] at heffect
    rw [hround]
    refine ⟨fun hwrite => ⟨fun i hi hon => ?_, fun i hi hoff => ?_⟩, fun hread => ⟨?_, fun y hy hid => ?_⟩⟩
    · exact (State.stamped_takesEffect_write heffect hwrite hwf hi).trans (if_pos hon)
    · exact (State.stamped_takesEffect_write heffect hwrite hwf hi).trans (if_neg (by simp [hoff]))
    · rw [State.stamped_of_read _ hread] at heffect
      exact heffect.read hread
    · rw [State.grant_of_read _ htarget hread] at hy
      obtain ⟨hstate, hgot⟩ := State.mem_admitRead_txns hy hid
      rw [State.chargeFixed_hbm, State.chargeCore_hbm] at hgot
      exact ⟨hstate, hgot.trans (congrArg (Memory.readN · (spaOff x.spa) x.len) hmem)⟩

end Sys2Proof.Machine
end

section
/-! SUPPORT. Proofs of the obligation on the invariant of the machine: what every command leaves is enough for it, and the queue, which a
step shortens, is no part of it (R530, R557). -/
namespace Sys2Proof.Machine

/-- A step idles on an empty queue, or runs the command at its front with the rest of the queue. -/
theorem step_next {s t : State} (h : step s = .next t) :
    t = s ∨ ∃ c rest, s.pending = c :: rest ∧ exec c { s with pending := rest } = .next t := by
  unfold step at h
  split at h
  · cases h
    exact .inl rfl
  · next c rest hqueue => exact .inr ⟨c, rest, hqueue, h⟩

theorem Stays.shape {b : Bool} {s t : State} (h : Stays b s t) (hs : s.Shape) : t.Shape where
  quarters := h.quarters hs.quarters
  slices := h.slices hs.slices
  ports := h.ports hs.ports
  hbmStacks := h.hbmStacks hs.hbmStacks
  fports := h.fports hs.fports

/-- What a command leaves carries the invariant over. -/
theorem Stays.inv {b : Bool} {s t : State} (h : Stays b s t) (hs : s.Inv) : t.Inv where
  shape := h.shape hs.shape
  mem := h.mem hs.mem
  pool := h.pool hs.pool

/-- The invariant does not ask what waits in the queue. -/
theorem State.Inv.setPending {s : State} (h : s.Inv) (queue : List Instr) : ({ s with pending := queue } : State).Inv :=
  have ⟨⟨hquarters, hslices, hports, hstacks, hfports⟩, hmem, hpool⟩ := h
  ⟨⟨hquarters, hslices, hports, hstacks, hfports⟩, hmem, hpool⟩

/-- Settles O5: a step that does not idle runs a command, and every command keeps the shape, the form of memory and the bound of the pool. -/
theorem stepKeepsInvariant : Obligations.StepKeepsInvariant := by
  unfold Obligations.StepKeepsInvariant
  intro s t hs hstep
  obtain rfl | ⟨c, rest, -, hexec⟩ := step_next hstep
  · exact hs
  · exact (exec_stays hexec).inv (hs.setPending rest)

end Sys2Proof.Machine
end

section
/-! SUPPORT. Proofs about what the device reports of itself: an event or a count changes the fabric, the ring and the HEALTH counters alone. -/
namespace Sys2Proof.Machine

/-- From `s` to `t` only the fabric, the device ring and the HEALTH counters change: what a device event does (R648, R649, R913). -/
def Reports (s t : State) : Prop := t = { s with fabric := t.fabric, ring := t.ring, health := t.health }

namespace Reports

variable {r s t : State}

theorem refl (s : State) : Reports s s := rfl

theorem trans (h : Reports r s) (k : Reports s t) : Reports r t :=
  Eq.trans k (congrArg (fun v : State => { v with fabric := t.fabric, ring := t.ring, health := t.health }) h)

theorem ite {a : Prop} {_ : Decidable a} (h : Reports r s) (k : Reports r t) : Reports r (if a then s else t) := by
  split
  · exact h
  · exact k

theorem foldl {α : Type} {f : State → α → State} (hf : ∀ s a, Reports r s → Reports r (f s a)) :
    ∀ (l : List α) {s : State}, Reports r s → Reports r (l.foldl f s)
  | [], _, h => h
  | a :: l, s, h => foldl hf l (hf s a h)

theorem bump (h : Reports r s) (page off w n : Nat) : Reports r (s.bump page off w n) := h.trans rfl

theorem writeRecord (h : Reports r s) (master : Nat) (owner : TxnOwner) (spa : Nat) (bytes : List Byte) (after : List Nat) :
    Reports r (s.writeRecord master owner spa bytes after) :=
  ite (h.trans rfl) (h.bump _ _ _ _)

theorem devicePart (h : Reports r s) (code : Nat) (handle : Option Nat) (parts : Nat) (x : Nat × List Byte) :
    Reports r (s.devicePart code handle parts x) := by
  have hwritten := fun spa bytes after => h.writeRecord masterEvw .device spa bytes after
  exact ite (h.bump _ _ _ _) (ite ((hwritten _ _ _).trans rfl) (h.bump _ _ _ _))

theorem deviceEvent (h : Reports r s) (code : Nat) (handle : Option Nat) (payload : List Byte) :
    Reports r (s.deviceEvent code handle payload) := foldl (fun _ _ k => k.devicePart _ _ _ _) _ h

theorem sensorFail (h : Reports r s) (group index working : Nat) : Reports r (s.sensorFail group index working) := h.deviceEvent _ _ _

/-- A reading that asks none of the three parts. -/
theorem reads {α : Type} (h : Reports s t) (g : State → α)
    (hg : ∀ (v : State) f r c, g { v with fabric := f, ring := r, health := c } = g v := by intro _ _ _ _; rfl) : g t = g s :=
  (congrArg g h).trans (hg s _ _ _)

end Reports

end Sys2Proof.Machine
end

section
/-! SUPPORT. Proofs of the obligation on the temperature sensors: a sample sets the readings, and what they set off leaves time, memory and the
phase but for the thermal shutdown; each stack takes its reading and the refresh interval that goes with it (R576, R960, R964). -/
namespace Sys2Proof.Machine

/-! ### A sample of the on-die sensors -/

/-- R958, R960: the next sample instant, with the readings and the failures of the 28 sensors. -/
def State.sampled (s : State) (rs : List Int) (fs : List Bool) : State :=
  { s with
    now := max s.now ((s.now / 10000 + 1) * 10000)
    thermal := { s.thermal with
      readings := (List.range 28).map (fun i => rs.getD i 0)
      failed := (List.range 28).map (fun i => fs.getD i false) } }

/-- A sample is taken ahead of own time. -/
theorem State.sampled_now (s : State) (rs : List Int) (fs : List Bool) : (s.sampled rs fs).now = (s.now / 10000 + 1) * 10000 := by
  simp only [State.sampled]
  omega

/-- What a reaction to the sensors short of the shutdown leaves: memory, time, the bring-up, and the readings and failures. -/
def State.sensed (s : State) : Hbm × Nat × Boot × List Int × List Bool := (s.hbm, s.now, s.boot, s.thermal.readings, s.thermal.failed)

theorem State.sensed_eq_iff {s t : State} : t.sensed = s.sensed ↔ t.hbm = s.hbm ∧ t.now = s.now ∧ t.boot = s.boot ∧
    t.thermal.readings = s.thermal.readings ∧ t.thermal.failed = s.thermal.failed := by
  simp only [State.sensed, Prod.mk.injEq]

/-- R959: the hottest junction is read from the readings and the failures. -/
theorem Thermal.junction_congr {x y : Thermal} (hreadings : y.readings = x.readings) (hfailed : y.failed = x.failed) :
    y.junction = x.junction := by
  have hworking : ∀ lo n, y.working lo n = x.working lo n := fun lo n => by rw [Thermal.working, Thermal.working, hreadings, hfailed]
  rw [Thermal.junction, Thermal.junction, hworking, hworking, hworking]

theorem Reports.sensed {s t : State} (h : Reports s t) : t.sensed = s.sensed := h.reads State.sensed

theorem State.deviceEvent_sensed (s : State) (code : Nat) (handle : Option Nat) (payload : List Byte) :
    (s.deviceEvent code handle payload).sensed = s.sensed := ((Reports.refl s).deviceEvent code handle payload).sensed

theorem State.sweepStep_sensed (s : State) : s.sweepStep.sensed = s.sensed := rfl

theorem State.alarmStep_sensed (s : State) (h : Int) : (s.alarmStep h).sensed = s.sensed := by
  unfold State.alarmStep
  split
  · exact State.deviceEvent_sensed _ _ _ _
  · split <;> rfl

theorem State.holdStep_sensed (s : State) (h : Int) : (s.holdStep h).sensed = s.sensed := by
  unfold State.holdStep
  split
  · exact State.deviceEvent_sensed _ _ _ _
  · split <;> rfl

/-- R963, R964: the sensors that fail are reported, and a junction of 115 °C or more shuts the device down instead. -/
theorem exec_sensorSample {s : State} (hrunning : s.running = true) (hphase : 2 ≤ s.boot.phase) (rs : List Int) (fs : List Bool) :
    ∃ u, exec (.sensorSample rs fs) s = .next (
      if 115 * 16 ≤ u.thermal.junction then (s.sampled rs fs).goShutdown
      else (u.sweepStep.alarmStep u.thermal.junction).holdStep u.thermal.junction) ∧ Reports (s.sampled rs fs) u := by
  have hexec : exec (.sensorSample rs fs) s = execSensorSample rs fs s := rfl
  rw [hexec, execSensorSample, hrunning, decide_eq_false (Nat.not_lt.mpr hphase)]
  exact ⟨_, rfl, Reports.foldl (fun _ _ k => k.sensorFail _ _ _) _ (Reports.refl _)⟩

theorem exec_sensorSample_of_stopped {s : State} (hstopped : s.running = false) (rs : List Int) (fs : List Bool) :
    exec (.sensorSample rs fs) s = .next s := by
  have hexec : exec (.sensorSample rs fs) s = execSensorSample rs fs s := rfl
  rw [hexec, execSensorSample, hstopped]
  rfl

/-! ### The thermal shutdown -/

theorem State.showStat_phase (s : State) (v : Nat) : (s.showStat v).boot.phase = s.boot.phase := by
  unfold State.showStat
  split
  · rfl
  · split <;> rfl

/-- R964: nothing runs, the seal is lost, and STAT 0xE and VID 0x50 stand. -/
theorem State.goShutdown_stopped (s : State) : s.goShutdown.boot.phase = 0xE ∧ s.goShutdown.thermal.shutdown = true ∧
    s.goShutdown.power.taken = 0x50 ∧ s.goShutdown.sealKey = none ∧ s.goShutdown.internal = [] := by
  unfold State.goShutdown
  simp only [State.showStat_phase, State.showStat_thermal, State.showStat_power, State.showStat_sealKey, State.showStat_internal]
  exact ⟨rfl, rfl, rfl, rfl, rfl⟩

/-- The shutdown takes no time and keeps the readings and failures that brought it. -/
theorem State.goShutdown_sample (s : State) : s.goShutdown.now = s.now ∧ s.goShutdown.thermal.readings = s.thermal.readings ∧
    s.goShutdown.thermal.failed = s.thermal.failed := by
  unfold State.goShutdown
  simp only [State.showStat_now, State.showStat_thermal]
  exact ⟨rfl, rfl, rfl⟩

/-! ### The sensors of the stacks -/

/-- R576: a stack at a temperature, with the refresh interval that goes with it. -/
def Stack.heated (k : Stack) (temp : Int) : Stack := { k with temp := temp, refInterval := if 85 * 16 < temp then 1950 else 3900 }

/-- R960: the temperature that stack number `i` shows: 104 °C when the sensors of all four fail, its last one when its own does. -/
def Stack.shows (k : Stack) (rs : List Int) (fs : List Bool) (i : Nat) : Int :=
  if (List.range 4).all (fun j => fs.getD j false) then failedGroup else if fs.getD i false then k.temp else rs.getD i 0

/-- The next instant of the stacks' sensors, with each stack at the temperature that it shows. -/
def State.stacksRead (s : State) (rs : List Int) (fs : List Bool) : State :=
  { s with
    now := max s.now (s.thermal.stacksAt + 1000000)
    thermal := { s.thermal with
      hbmFailed := (List.range 4).map (fun i => fs.getD i false), stacksAt := max s.now (s.thermal.stacksAt + 1000000) }
    hbm := { s.hbm with hbmStacks := s.hbm.hbmStacks.zipIdx.map (fun p => p.1.heated (p.1.shows rs fs p.2)) } }

/-- A member of a list changed by its place. -/
theorem getD_zipIdx_map {α : Type} (f : α × Nat → α) (d : α) {l : List α} {k : Nat} (hk : k < l.length) :
    (l.zipIdx.map f).getD k d = f (l.getD k d, k) := by
  simp [List.getD_eq_getElem?_getD, List.getElem?_map, List.getElem?_zipIdx, List.getElem?_eq_getElem hk]

theorem State.stacksRead_stack {s : State} (rs : List Int) (fs : List Bool) {k : Nat} (hk : k < s.hbm.hbmStacks.length) :
    (s.stacksRead rs fs).hbm.hbmStacks.getD k {} =
      (s.hbm.hbmStacks.getD k {}).heated ((s.hbm.hbmStacks.getD k {}).shows rs fs k) :=
  getD_zipIdx_map _ _ hk

theorem exec_hbmTemperatureRead {s : State} (hrunning : s.running = true) (rs : List Int) (fs : List Bool) :
    ∃ t, exec (.hbmTemperatureRead rs fs) s = .next t ∧ Reports (s.stacksRead rs fs) t := by
  have hexec : exec (.hbmTemperatureRead rs fs) s = execHbmTemperatureRead rs fs s := rfl
  rw [hexec, execHbmTemperatureRead, hrunning]
  exact ⟨_, rfl, Reports.foldl (fun _ _ k => k.sensorFail _ _ _) _ (Reports.refl _)⟩

theorem exec_hbmTemperatureRead_of_stopped {s : State} (hstopped : s.running = false) (rs : List Int) (fs : List Bool) :
    exec (.hbmTemperatureRead rs fs) s = .next s := by
  have hexec : exec (.hbmTemperatureRead rs fs) s = execHbmTemperatureRead rs fs s := rfl
  rw [hexec, execHbmTemperatureRead, hstopped]
  rfl

/-! ### The obligation -/

/-- Settles O19: a sample ends in the shutdown or in reactions that leave what was sampled; the stacks' sensors set the stacks one by one. -/
theorem sensorsSetThresholdsAndRefresh : Obligations.SensorsSetThresholdsAndRefresh := by
  unfold Obligations.SensorsSetThresholdsAndRefresh
  intro s
  refine ⟨fun rs fs hrunning hphase => ?_, fun rs fs hrunning hfour => ?_, fun hstopped =>
    ⟨exec_sensorSample_of_stopped hstopped, exec_hbmTemperatureRead_of_stopped hstopped⟩⟩
  · obtain ⟨u, hexec, hu⟩ := exec_sensorSample hrunning hphase rs fs
    have hheat : u.thermal.junction = (s.sampled rs fs).thermal.junction := hu.reads (·.thermal.junction)
    by_cases hhot : 115 * 16 ≤ u.thermal.junction
    · rw [if_pos hhot] at hexec
      obtain ⟨hnow, hreadings, hfailed⟩ := (s.sampled rs fs).goShutdown_sample
      have hjunction := Thermal.junction_congr hreadings hfailed
      refine ⟨_, hexec, hnow.trans (s.sampled_now rs fs), hreadings, hfailed, fun _ => State.goShutdown_stopped _, fun hcool => ?_⟩
      exact absurd hcool (Int.not_lt.mpr (hjunction.trans hheat.symm ▸ hhot))
    · rw [if_neg hhot] at hexec
      obtain ⟨hhbm, hnow, hboot, hreadings, hfailed⟩ := State.sensed_eq_iff.mp
        ((State.holdStep_sensed _ u.thermal.junction).trans ((State.alarmStep_sensed _ u.thermal.junction).trans
          (u.sweepStep_sensed.trans hu.sensed)))
      have hjunction := Thermal.junction_congr hreadings hfailed
      refine ⟨_, hexec, hnow.trans (s.sampled_now rs fs), hreadings, hfailed, fun hover => ?_, fun _ =>
        ⟨congrArg Hbm.mem hhbm, congrArg Boot.phase hboot⟩⟩
      exact absurd (hjunction.trans hheat.symm ▸ hover) hhot
  · obtain ⟨t, hexec, ht⟩ := exec_hbmTemperatureRead hrunning rs fs
    have hhbm : t.hbm = (s.stacksRead rs fs).hbm := ht.reads State.hbm
    have hnow : t.now = (s.stacksRead rs fs).now := ht.reads State.now
    have hthermal : t.thermal = (s.stacksRead rs fs).thermal := ht.reads State.thermal
    refine ⟨t, hexec, ht.reads (·.hbm.mem), hnow, (congrArg Thermal.stacksAt hthermal).trans hnow.symm, ht.reads State.slices, fun k hk => ?_⟩
    rw [hhbm, State.stacksRead_stack rs fs (hfour.symm ▸ hk)]
    exact ⟨rfl, rfl⟩

end Sys2Proof.Machine
end

section
/-! SUPPORT. Proofs of the obligation on the upkeep of the local HBM: pieces that are served move time and open rows alone, a burst that
returns touches the marks of its words and the books of the fabric, and an upkeep command changes what its rule names (R568, R577 to R583). -/
namespace Sys2Proof.Machine

/-! ### Pieces that are served -/

/-- From `s` to `t` only time, the queued pieces and the open rows change: what serving pieces does (R568, R577). -/
def Serves (s t : State) : Prop :=
  t = { s with now := t.now, hbm := { s.hbm with pieces := t.hbm.pieces, openRows := t.hbm.openRows } }

namespace Serves

variable {r s t : State}

theorem refl (s : State) : Serves s s := rfl

theorem trans (h : Serves r s) (k : Serves s t) : Serves r t :=
  Eq.trans k (congrArg
    (fun v : State => { v with now := t.now, hbm := { v.hbm with pieces := t.hbm.pieces, openRows := t.hbm.openRows } }) h)

theorem foldl {α : Type} {f : State → α → State} (hf : ∀ s a, Serves s (f s a)) : ∀ (l : List α) (s : State), Serves s (l.foldl f s)
  | [], s => refl s
  | a :: l, s => (hf s a).trans (foldl hf l (f s a))

/-- A reading that asks neither time, nor the pieces, nor the open rows. -/
theorem reads {α : Type} (h : Serves s t) (g : State → α)
    (hg : ∀ (v : State) n p o, g { v with now := n, hbm := { v.hbm with pieces := p, openRows := o } } = g v := by intro _ _ _ _; rfl) :
    g t = g s :=
  (congrArg g h).trans (hg s _ _ _)

end Serves

theorem State.servePiece_serves (s : State) (p : DramPiece) (older : List DramPiece) : Serves s (s.servePiece p older) := rfl

theorem State.serveChannel_serves : ∀ (n : Nat) (s : State) (txn pc : Nat), Serves s (State.serveChannel n s txn pc)
  | 0, s, _, _ => .refl s
  | n + 1, s, txn, pc => by
    unfold State.serveChannel
    split
    · exact .refl s
    · next p older _ => exact (s.servePiece_serves p older).trans (State.serveChannel_serves n _ txn pc)

theorem State.serveTxn_serves (s : State) (txn : Nat) : Serves s (s.serveTxn txn) :=
  Serves.foldl (fun s pc => s.serveChannel_serves _ txn pc) _ s

theorem State.clearChannel_serves (s : State) (pc : Nat) : Serves s (s.clearChannel pc) :=
  Serves.foldl (fun s p => s.servePiece_serves p []) _ s

/-! ### A burst that returns -/

/-- R538, R547: the end of an operation's read takes it out of the fabric and leaves its data for the routine. -/
theorem State.endTxn_of_op (s : State) {x : Txn} {c : Nat} (howner : x.owner = .op c) (hread : x.kind = .read) (data : List Byte)
    (bad : List Nat) : ∃ f p, s.endTxn x data bad 0 = { s with fabric := f, power := p } ∧
      f.txns = s.fabric.txns.filter (fun y => y.id != x.id) ∧
      f.got = s.fabric.got ++ [{ owner := .op c, spa := x.spa, data := data, bad := bad, st := 0 }] := by
  unfold State.endTxn
  simp only [howner, hread]
  exact ⟨_, _, rfl, rfl, rfl⟩

theorem State.bump_frame (s : State) (page off w n : Nat) : ∃ h, s.bump page off w n = { s with health := h } := ⟨_, rfl⟩

theorem State.countEcc_frame (s : State) (stack ce ue : Nat) (fs : List HbmFound) : ∃ h, s.countEcc stack ce ue fs = { s with health := h } := by
  obtain ⟨h1, hce⟩ := s.bump_frame 3 (24 + 8 * stack) 4 ce
  obtain ⟨h2, hue⟩ := ({ s with health := h1 } : State).bump_frame 3 (28 + 8 * stack) 2 ue
  obtain ⟨h3, hsevere⟩ := ({ s with health := h2 } : State).bump_frame 3 (30 + 8 * stack) 2 (fs.filter (· == .severity)).length
  exact ⟨h3, by rw [State.countEcc, hce, hue, hsevere]⟩

/-- R572, R573: the return of a read with no error met marks and counts what its words show, and only a chunk that its admission found bad
is marked in its data. -/
theorem State.returnBurst_of_read (s : State) {x : Txn} (hread : x.kind = .read) : ∃ h c bad,
    s.returnBurst x [] = ({ s with hbm := h, health := c } : State).endTxn x x.got bad 0 ∧ h.mem = s.hbm.mem ∧ (x.bad = [] → bad = []) := by
  unfold State.returnBurst
  simp only [hread]
  obtain ⟨n, hcounted⟩ := State.countEcc_frame _ x.target _ _ []
  rw [hcounted]
  obtain ⟨m, hpath⟩ := State.bump_frame _ 2 36 2 (x.pathChunks []).length
  rw [hpath]
  refine ⟨_, _, _, rfl, rfl, fun hgood => ?_⟩
  rw [hgood]
  rfl

/-- R540, R544: with a burst ready on the response channel of its master, HBM_READ_RETURN serves the pieces and returns that burst. -/
theorem exec_hbmReadReturn {s : State} {r x : Txn} (hfind : s.fabric.txns.find? (fun y => y.id == r.id && y.state == .admitted) = some r)
    (hnext : (s.serveTxn (s.firstOfId r).id).nextResponse r.master = some x) (errs : List HbmFound) :
    exec (.hbmReadReturn r.id errs) s = .next ((s.serveTxn (s.firstOfId r).id).returnBurst x errs) := by
  have hexec : exec (.hbmReadReturn r.id errs) s = execHbmReadReturn r.id errs s := rfl
  rw [hexec, execHbmReadReturn, hfind]
  simp only [hnext]

/-! ### Scrubbing -/

theorem mem_insertRising_of_mem {x w : Nat} : ∀ {l : List Nat}, w ∈ l → w ∈ insertRising x l
  | y :: l, h => by
    unfold insertRising
    split
    · exact List.mem_cons_of_mem x h
    · split
      · exact h
      · obtain rfl | h := List.mem_cons.mp h
        · exact List.mem_cons_self
        · exact List.mem_cons_of_mem y (mem_insertRising_of_mem h)

theorem mem_insertAll_of_mem {w : Nat} : ∀ (xs : List Nat) {l : List Nat}, w ∈ l → w ∈ insertAll xs l
  | [], _, h => h
  | x :: xs, _, h => mem_insertAll_of_mem xs (mem_insertRising_of_mem (x := x) h)

theorem Stack.scrubbed_scrubAt (k : Stack) (now hours : Nat) : (k.scrubbed now hours).scrubAt = (k.scrubAt + 1) % stackUnits := by
  unfold Stack.scrubbed
  dsimp only

/-- What a scrub read leaves but for its reports: the bytes, tiles, quarters and entries, and every word that was bad; its stack has gone on
by one unit (R582, R584). -/
structure Scrubs (k : Nat) (s t : State) : Prop where
  mem : t.hbm.mem = s.hbm.mem
  unit : (t.hbm.hbmStacks.getD k {}).scrubAt = ((s.hbm.hbmStacks.getD k {}).scrubAt + 1) % stackUnits
  bad : ∀ w ∈ s.hbm.badWords, w ∈ t.hbm.badWords
  slices : t.slices = s.slices
  quarters : t.quarters = s.quarters
  entries : t.entries = s.entries

theorem Scrubs.report {k : Nat} {s t u : State} (h : Scrubs k s t) (hu : Reports t u) : Scrubs k s u where
  mem := (hu.reads (·.hbm.mem)).trans h.mem
  unit := (hu.reads (fun v => (v.hbm.hbmStacks.getD k {}).scrubAt)).trans h.unit
  bad w hw := (hu.reads (·.hbm.badWords)).symm ▸ h.bad w hw
  slices := (hu.reads State.slices).trans h.slices
  quarters := (hu.reads State.quarters).trans h.quarters
  entries := (hu.reads State.entries).trans h.entries

/-- R571, R582: the next unit of stack `k` is read, with `hours` the scrub period in force: `words` are its bad ones, `ce` those left with a
single-bit error, and `reads` the instants of the last scrub reads. -/
def State.readUnit (s : State) (k hours : Nat) (words ce : List Nat) (reads : List (Nat × Nat)) : State :=
  (({ s with hbm := { s.hbm with badWords := insertAll words s.hbm.badWords, ceWords := ce, scrubbed := reads } } : State).modStack k
    (fun x => x.scrubbed s.now hours)).chargeFixed 24

theorem State.readUnit_scrubs {s u : State} {k : Nat} (hu : Serves s u) (hk : k < s.hbm.hbmStacks.length) (hours : Nat)
    (words ce : List Nat) (reads : List (Nat × Nat)) : Scrubs k s (u.readUnit k hours words ce reads) where
  mem := hu.reads (·.hbm.mem)
  unit := by
    have hsame : u.hbm.hbmStacks = s.hbm.hbmStacks := hu.reads (·.hbm.hbmStacks)
    have hunit : (u.readUnit k hours words ce reads).hbm.hbmStacks.getD k {} = (u.hbm.hbmStacks.getD k {}).scrubbed u.now hours :=
      (getD_modAt _ _ _ _ _ (hsame.symm ▸ hk)).trans (if_pos rfl)
    rw [hunit, Stack.scrubbed_scrubAt, hsame]
  bad w hw := mem_insertAll_of_mem words ((hu.reads (·.hbm.badWords)).symm ▸ hw)
  slices := hu.reads State.slices
  quarters := hu.reads State.quarters
  entries := hu.reads State.entries

/-- R582, R584: the pieces of the unit's pseudo channel are served before it, and each word that it finds bad is reported after it. -/
theorem exec_hbmScrubRead {s : State} {k : Nat} (hk : k < 4) (hfour : s.hbm.hbmStacks.length = 4) (hready : s.ready = true)
    (corrected bad : List Nat) : Completes (.hbmScrubRead k corrected bad) s (Scrubs k s) := by
  have hexec : exec (.hbmScrubRead k corrected bad) s = execHbmScrubRead k corrected bad s := rfl
  unfold Completes
  rw [hexec, execHbmScrubRead, if_neg (Nat.not_le.mpr hk), hready]
  refine ⟨_, rfl, Scrubs.report (State.readUnit_scrubs (u := (s.clearChannel _).advanceTo _) ?_ (hfour.symm ▸ hk) _ _ _ _)
    (Reports.foldl (fun _ _ h => (h.bump _ _ _ _).deviceEvent _ _ _) _ ((Reports.refl _).bump _ _ _ _))⟩
  exact (s.clearChannel_serves _).trans rfl

/-! ### Refresh, retraining and the TRNG pool -/

/-- R577, R580: the instant at which a bank whose last refresh was an interval ago is refreshed. -/
def State.refreshAt (s : State) (pc bank : Nat) : Nat :=
  max (max s.now (((assocGet s.hbm.refreshed (bankKey pc bank)).map (· + (s.hbm.hbmStacks.getD (pc / 32) {}).refInterval)).getD 0))
    (s.channelFree pc)

theorem State.refreshAt_interval {s : State} {pc bank a : Nat} (h : assocGet s.hbm.refreshed (bankKey pc bank) = some a) :
    a + (s.hbm.hbmStacks.getD (pc / 32) {}).refInterval ≤ s.refreshAt pc bank := by
  unfold State.refreshAt
  rw [h]
  exact (Nat.le_max_right _ _).trans (Nat.le_max_left _ _)

theorem exec_hbmBankRefresh {s : State} {pc sid b : Nat} (hpc : pc < 128) (hsid : sid < 3) (hb : b < 16) (hrunning : s.running = true)
    (hup : s.stackUp (pc / 32) = true) : exec (.hbmBankRefresh ⟨pc, sid, b⟩) s = .next { s with
      now := max s.now (s.refreshAt pc (16 * sid + b))
      hbm := { s.hbm with
        refreshed := assocPut s.hbm.refreshed (bankKey pc (16 * sid + b)) (max s.now (s.refreshAt pc (16 * sid + b)))
        openRows := assocDel s.hbm.openRows (bankKey pc (16 * sid + b)) } } := by
  have hexec : exec (.hbmBankRefresh ⟨pc, sid, b⟩) s = execHbmBankRefresh ⟨pc, sid, b⟩ s := rfl
  have hthere : ¬(128 ≤ pc ∨ 3 ≤ sid ∨ 16 ≤ b) := by omega
  rw [hexec, execHbmBankRefresh, if_neg hthere, hrunning, hup]
  rfl

/-- R578, R579: the instant at which the next channel is retrained: when it is due, after the one before it. -/
def State.retrainTime (s : State) : Nat := max (s.retrainDue s.hbm.retrainAt) ((s.hbm.retraining.map (·.2)).getD 0)

theorem exec_hbmRetrain {s : State} (hrunning : s.running = true) (hup : s.stackUp (s.hbm.retrainAt / 16) = true) :
    ∃ a x h f, exec .hbmRetrain s = .next { s with
      now := max s.now s.retrainTime, health := h, free := f
      hbm := { s.hbm with
        retraining := some (s.hbm.retrainAt, max s.now s.retrainTime + retrainNs), retrainAt := (s.hbm.retrainAt + 1) % 64
        retrainFrom := a, retrainMs := if s.hbm.retrainAt = 63 then s.profile.rtMs else s.hbm.retrainMs, hbmStacks := x } } := by
  have hexec : exec .hbmRetrain s = execHbmRetrain s := rfl
  rw [hexec, execHbmRetrain, hrunning, hup]
  exact ⟨_, _, _, _, rfl⟩

theorem exec_hbmRetrain_of_stopped {s : State} (hstopped : s.running = false) : exec .hbmRetrain s = .next s := by
  have hexec : exec .hbmRetrain s = execHbmRetrain s := rfl
  rw [hexec, execHbmRetrain, hstopped]
  rfl

/-- R557: the pool gains its bits, 10 µs after the last refill. -/
theorem exec_trngRefill {s : State} (hrunning : s.running = true) : exec .trngRefill s = .next { s with
    now := max s.now (s.hbm.trngAt + 10000)
    hbm := { s.hbm with pool := min 1024 (s.hbm.pool + 256), trngAt := max s.now (s.hbm.trngAt + 10000) } } := by
  have hexec : exec .trngRefill s = execTrngRefill s := rfl
  rw [hexec, execTrngRefill, hrunning]
  rfl

theorem exec_trngRefill_of_stopped {s : State} (hstopped : s.running = false) : exec .trngRefill s = .next s := by
  have hexec : exec .trngRefill s = execTrngRefill s := rfl
  rw [hexec, execTrngRefill, hstopped]
  rfl

/-! ### The obligation -/

/-- Settles O28: a read's pieces and burst leave memory, and so does every upkeep command, by its equation. -/
theorem hbmUpkeepLeavesMemory : Obligations.HbmUpkeepLeavesMemory := by
  unfold Obligations.HbmUpkeepLeavesMemory
  intro s
  refine ⟨fun r x u c hfind hu hnext howner hread => ?_, fun pc sid b hpc hsid hb hrunning hup => ?_, fun hrunning hup => ?_,
    fun k corrected bad hk hfour hready => ?_, fun hrunning => ?_, fun hstopped => ?_⟩
  · subst hu
    have hserved := s.serveTxn_serves (s.firstOfId r).id
    obtain ⟨h, n, bad, hreturn, hmem, hgood⟩ := State.returnBurst_of_read (s.serveTxn (s.firstOfId r).id) hread
    obtain ⟨f, p, hend, htxns, hgot⟩ := State.endTxn_of_op { s.serveTxn (s.firstOfId r).id with hbm := h, health := n } howner hread x.got bad
    refine ⟨_, (exec_hbmReadReturn hfind hnext []).trans (congrArg _ (hreturn.trans hend)),
      congrArg (fun v : State => { v with hbm := h, fabric := f, power := p, health := n }) hserved,
      hmem.trans (hserved.reads (·.hbm.mem)), htxns.trans (hserved.reads (·.fabric.txns.filter (fun y => y.id != x.id))), fun hx => ?_⟩
    rw [hgood hx] at hgot
    exact hgot.trans (hserved.reads (·.fabric.got ++ _))
  · refine ⟨_, exec_hbmBankRefresh hpc hsid hb hrunning hup, rfl, rfl, Nat.le_max_left _ _,
      (Nat.le_max_right _ _).trans (Nat.le_max_right _ _), ?_, fun a ha => (State.refreshAt_interval ha).trans (Nat.le_max_right _ _)⟩
    rw [assocGet_put, if_pos rfl]
  · obtain ⟨_, _, _, _, hexec⟩ := exec_hbmRetrain hrunning hup
    exact ⟨_, hexec, rfl, rfl, rfl, rfl, max_le_max le_rfl (Nat.le_max_left _ _), rfl⟩
  · obtain ⟨t, hexec, hscrubs⟩ := exec_hbmScrubRead hk hfour hready corrected bad
    exact ⟨t, hexec, hscrubs.mem, hscrubs.unit, hscrubs.bad, hscrubs.slices, hscrubs.quarters, hscrubs.entries⟩
  · exact ⟨_, exec_trngRefill hrunning, rfl, rfl, rfl, rfl, rfl⟩
  · exact ⟨exec_trngRefill_of_stopped hstopped, exec_hbmRetrain_of_stopped hstopped⟩

end Sys2Proof.Machine
end

section
/-! SUPPORT. Proofs of the obligations on what every command leaves (R651, R816, R821) and on the commands that stop (R25, R674). -/
namespace Sys2Proof.Machine

/-! ### Time runs on -/

/-- Time does not run back from `s` to `t`, whatever becomes of the set-up. -/
structure Onward (s t : State) : Prop where
  now : s.now ≤ t.now

namespace Onward

variable {r s t : State}

theorem refl (s : State) : Onward s s := ⟨Nat.le_refl _⟩

/-- What leaves the set-up does not turn time back. -/
theorem after (h : Onward r s) (k : Stays true s t) : Onward r t := ⟨Nat.le_trans h.now (k.time rfl)⟩

/-- An update of other parts of the state. -/
theorem update (h : Onward r s) (hnow : t.now = s.now := by rfl) : Onward r t := ⟨hnow ▸ h.now⟩

theorem ite {a : Prop} {_ : Decidable a} (h : Onward r s) (k : Onward r t) : Onward r (if a then s else t) := by
  split
  · exact h
  · exact k

theorem advanceTo (h : Onward r s) (n : Nat) : Onward r (s.advanceTo n) := ⟨Nat.le_trans h.now (Nat.le_max_left _ _)⟩

theorem goFatal (h : Onward r s) (code : Nat) : Onward r (s.goFatal code) := h.after (State.goFatal_stays code (.refl true s))

theorem enterPhase (h : Onward r s) (p : Nat) : Onward r (s.enterPhase p) := h.after (State.enterPhase_stays p (.refl true s))

theorem appliedEvent (h : Onward r s) (rinse : Bool) (n : Nat) : Onward r (s.appliedEvent rinse n) :=
  h.after (State.appliedEvent_stays rinse n (.refl true s))

theorem assertReset (h : Onward r s) (powerLost : Bool) : Onward r (s.assertReset powerLost) := h.update

/-! ### The applies -/

/-- R832: the apply at bring-up takes no time. -/
theorem applyAtBringUp (h : Onward r s) (p : Profile) (num : Nat) (rom : Bool) : Onward r (s.applyAtBringUp p num rom) := by
  have hstart : ∀ {u : State}, Onward r u → Onward r (((u.newSweep s.now).setPartitions p).powerStart) := fun hu =>
    hu.after (State.powerStart_stays (State.setPartitions_stays p (State.newSweep_stays s.now (.refl true _))))
  exact ite ((hstart h.update).after (State.sendVid_stays (vidOf p.cclkMhz) (.refl true _))).update
    (ite (hstart h.update).update (hstart h.update))

/-- R797: every staged field takes effect at one edge. -/
theorem installProfile (h : Onward r s) : Onward r s.installProfile := by
  unfold State.installProfile
  dsimp only
  refine after (s := { s with
    profile := s.switch.staged, profNum := s.switch.number, profRom := false
    pepoch := if s.pepoch = 0xFFFFFFFF then 1 else s.pepoch + 1 }) (h.update) ?_
  refine Stays.foldl _ (fun u c hu => .ite (State.rebindAway_stays c hu) hu) _ _ ?_
  refine Stays.foldl _ (fun u x hu => State.returnQuarter_stays x hu) _ _ ?_
  refine Stays.foldl _ (fun u n hu => State.reconfigurePort_stays _ n hu) _ _ ?_
  refine Stays.foldl _ (fun u d hu => State.advanceEpoch_stays d hu) _ _ ?_
  exact State.cutHolds_stays (State.rebalance_stays (State.cutPower_stays _ _ (State.applyClock_stays _ (State.applyRate_stays _ (.refl true _)))))

theorem applySwitch (h : Onward r s) : Onward r s.applySwitch := by
  have hedge := fun w : Switch => (h.after (State.suspendProfile_stays (.refl true s))).installProfile.update
    (t := { s.suspendProfile.installProfile with switch := w }) (by dsimp only)
  have hheld := fun (w : Switch) (held : List Txn) => ((hedge w).after (State.spilledToCandidates_stays (.refl true _))).after
    (Stays.foldl (fun s t => if s.inFlight t.id then s.reclassify t else s) (fun _ t k => .ite (State.reclassify_stays t k) k) held _ (.refl true _))
  exact (((hheld _ _).update (by dsimp only)).appliedEvent _ _).after (State.refreshStat_stays (.refl true _))

end Onward

/-! ### The commands that change the set-up -/

theorem execPwrgoodFall_onward {s t : State} (h : execPwrgoodFall s = .next t) : Onward s t := by
  unfold execPwrgoodFall at h
  cases h
  exact ((Onward.refl s).assertReset true).ite (.refl s)

theorem execResetAssert_onward {s t : State} (h : execResetAssert s = .next t) : Onward s t := by
  unfold execResetAssert at h
  cases h
  exact ((Onward.refl s).assertReset false).ite (.refl s)

/-- R739: the straps are latched no earlier than the third edge. -/
theorem execStrapLatch_onward {boot : Nat} {remapEn sealLocal pselLink testmode fuseOk trngOk : Bool} {s t : State}
    (h : execStrapLatch boot remapEn sealLocal pselLink testmode fuseOk trngOk s = .next t) : Onward s t := by
  unfold execStrapLatch at h
  cases h
  have hlatch := (Onward.refl s).advanceTo 30
  exact (Onward.refl s).ite (Onward.ite (hlatch.update.enterPhase 1) ((hlatch.update.enterPhase 1).goFatal _))

/-- R749: the level pins have been measured 260 µs into their phase. -/
theorem execLevelPinMeasure_onward {samples : List (List Nat)} {s t : State} (h : execLevelPinMeasure samples s = .next t) : Onward s t := by
  unfold execLevelPinMeasure at h
  cases h
  have hmeasure := (Onward.refl s).advanceTo (s.boot.phaseAt + 260000)
  exact (Onward.refl s).ite (Onward.ite (hmeasure.update.goFatal _) (hmeasure.update.enterPhase _))

theorem execBringupApply_onward {reached romReached : Bool} {s t : State} (h : execBringupApply reached romReached s = .next t) :
    Onward s t := by
  have happly : ∀ {u : State} p n rom, Onward s u → Onward s (((u.applyAtBringUp p n rom).appliedEvent false 0).enterHbm) :=
    fun p n rom hu => ((hu.applyAtBringUp p n rom).appliedEvent false 0).after (State.enterHbm_stays (.refl true _))
  unfold execBringupApply at h
  cases h
  refine (Onward.refl s).ite ((Onward.refl s).ite ?_)
  dsimp only
  split
  · exact happly _ _ _ (.refl s)
  · have hrejected := fun n r => (Onward.refl s).after (State.rejectEvent_stays n r (.refl true s))
    exact Onward.ite (happly _ _ _ (hrejected _ _).update) ((hrejected _ _).update.goFatal _)

theorem execProfileApply_onward {s t : State} (h : execProfileApply s = .next t) : Onward s t := by
  have hrinse := (Onward.refl s).after (State.rinseProgress_stays (.refl true s))
  unfold execProfileApply at h
  cases h
  refine (Onward.refl s).ite (hrinse.ite ?_)
  split
  · exact hrinse.after (State.abandonSwitch_stays _ (.refl true _))
  · exact hrinse.applySwitch

/-- R651: no command but the release of RESET_N turns time back. -/
theorem exec_onward {c : Instr} {s t : State} (h : exec c s = .next t) (hrelease : ∀ b, c ≠ .resetRelease b) : Onward s t := by
  cases hk : keepsSetup c with
  | true => exact ⟨(exec_stays h).time hk⟩
  | false =>
    unfold keepsSetup at hk
    split at hk
    · exact execPwrgoodFall_onward h
    · exact execResetAssert_onward h
    · exact absurd rfl (hrelease _)
    · exact execStrapLatch_onward h
    · exact execLevelPinMeasure_onward h
    · exact execBringupApply_onward h
    · exact execProfileApply_onward h
    · cases hk

/-- Settles O2: what every command leaves is the queue and the fuses, and time runs on. -/
theorem commandsLeaveQueueFusesAndTime : Obligations.CommandsLeaveQueueFusesAndTime := by
  unfold Obligations.CommandsLeaveQueueFusesAndTime
  exact fun c s t h => ⟨(exec_stays h).queue, (exec_stays h).fuses, fun hrelease => (exec_onward h hrelease).now⟩

/-! ### Commands stop for absent units alone -/

/-- What the naming of a list of units asks of an answer: a next state where the part has all of them, and else the stop noSuchUnit. -/
structure Answers (us : List Unit_) (o : Out) : Prop where
  next : us.all Unit_.present = true → ∃ t, o = .next t
  fault : us.all Unit_.present = false → ∃ what index, o = .fault (.noSuchUnit what index)

namespace Answers

variable {us vs : List Unit_} {o : Out} {what : String} {index : Nat}

theorem done (t : State) : Answers [] (.next t) := ⟨fun _ => ⟨t, rfl⟩, fun h => absurd h (by simp)⟩

/-- A check that stops where the part lacks one of the units `vs`. -/
theorem check {p : Prop} {_ : Decidable p} (hp : p ↔ vs.all Unit_.present = false) (h : Answers us o) :
    Answers (vs ++ us) (if p then .fault (.noSuchUnit what index) else o) := by
  constructor
  · intro hall
    rw [List.all_append, Bool.and_eq_true] at hall
    rw [if_neg (by rw [hp, hall.1]; exact Bool.noConfusion)]
    exact h.next hall.2
  · intro hall
    rw [List.all_append, Bool.and_eq_false_iff] at hall
    split
    · exact ⟨_, _, rfl⟩
    · next hnot => exact h.fault (hall.resolve_left (fun hvs => hnot (hp.mpr hvs)))

/-- The check of one unit by its number. -/
theorem unit {u : Unit_} {n bound : Nat} (h : Answers us o) (hu : u.present = decide (n < bound) := by rfl) :
    Answers (u :: us) (if bound ≤ n then .fault (.noSuchUnit what index) else o) :=
  h.check (vs := [u]) (by simp [hu])

/-- The check of two units at once. -/
theorem pair {u v : Unit_} {n m bound limit : Nat} (h : Answers us o) (hu : u.present = decide (n < bound) := by rfl)
    (hv : v.present = decide (m < limit) := by rfl) :
    Answers (u :: v :: us) (if bound ≤ n ∨ limit ≤ m then .fault (.noSuchUnit what index) else o) :=
  h.check (vs := [u, v]) (by simp [hu, hv]; omega)

/-- R916: the check of the units in which errors are found. -/
theorem errors (fs : List Found) (t : State) : Answers (fs.map .found) (guardFound fs (.next t)) := by
  have hall : (fs.map .found).all Unit_.present = fs.all Found.wf := by
    rw [List.all_map]
    rfl
  constructor
  · intro h
    rw [hall, List.all_eq_true] at h
    have hnone : fs.find? (fun f => !f.wf) = none := List.find?_eq_none.mpr (fun f hf => by simp [h f hf])
    exact ⟨t, by rw [guardFound, hnone]⟩
  · intro h
    rw [hall, List.all_eq_false] at h
    obtain ⟨f, hf, hbad⟩ := h
    have hsome : (fs.find? (fun f => !f.wf)).isSome = true := List.find?_isSome.mpr ⟨f, hf, by simpa using hbad⟩
    obtain ⟨g, hg⟩ := Option.isSome_iff_exists.mp hsome
    exact ⟨_, _, by rw [guardFound, hg]⟩

theorem op (c : Nat) (fs : List Found) (t : State) : Answers (.context c :: fs.map .found) (opCommand c fs t) := (errors fs t).unit

theorem link (n : Nat) (t : State) : Answers [.link n] (guardLink n (.next t)) := (done t).unit

theorem port (n : Nat) (t : State) : Answers [.port n] (guardPort n (.next t)) := (done t).unit

theorem swap {u v : Unit_} (h : Answers [u, v] o) : Answers [v, u] o := by
  have hall : [u, v].all Unit_.present = [v, u].all Unit_.present := by simp [Bool.and_comm]
  exact ⟨fun k => h.next (hall.trans k), fun k => h.fault (hall.trans k)⟩

end Answers

/-- R25: every command answers as the units that it names ask. -/
theorem exec_answers (c : Instr) (s : State) : Answers c.units (exec c s) := by
  cases c with
  | pwrgoodFall | resetAssert | pllsLocked | holdCleared | microRamRemap | hbmInitialise | fabricTrainingEnd | readiness
  | bringupPhaseTimeout | statHoldExpiry | energyInterval | imonTripHoldExpiry | thermalCeilingUpdate | staticBandEval
  | vidSettleTimeout | vidLowerCode | refIntervalChange | hbmRetrain | trngRefill | candidateSlot | periodStart | linkStateTimeout
  | haltCack | linkViolationReport | packetForward | forwardHoldExpiry | pselDebounceDone | profileSwitchStart | rinseTimeout
  | profileApply | healthRecord | pwrgoodRise | handshakeEntry => exact .done _
  | resetRelease _ | levelPinMeasure _ | flashSfdpRead _ | bist _ | pllLockLoss _ | powerStepDecision _ | imonSample _
  | moduleActiveChange _ | hostCompletionTimeout _ | pinLapse _ | pselSample _ | rinseStart _ | debugBist _ => exact .done _
  | imageCopyVerify _ _ | bringupApply _ _ | hbmTraining _ _ | sensorSample _ _ | hbmTemperatureRead _ _ | hbmReadReturn _ _
  | jtagHaltInstrument _ _ => exact .done _
  | strapLatch _ _ _ _ _ _ _ => exact .done _
  | sdrefclkLoss _ => exact (Answers.done _).unit
  | bankHandoverSwap _ | allocatorRound _ => exact (Answers.done _).unit
  | arrayStepStart _ | shadowStep _ => exact (Answers.done _).unit
  | rotationBoundary _ _ | shadowCompare _ _ | quarterRemove _ _ => exact (Answers.done _).unit
  | fabricTargetRound _ _ _ => exact (Answers.done _).unit
  | hbmScrubRead _ _ _ => exact (Answers.done _).unit
  | saltDrawResume _ | operationComplete _ | contextRebind _ | frameDeadline _ => exact (Answers.done _).unit
  | translationWalk _ _ => exact (Answers.done _).unit
  | moduleRetrain _ => exact (Answers.done _).unit
  | streamEpochResume _ => exact (Answers.done _).unit
  | trfRefresh _ _ found | trfRefreshUrgent _ _ found => exact (Answers.errors found _).pair
  | portRound _ _ found => exact (Answers.errors found.errors _).pair
  | bankRetire _ _ _ | bankMarch _ _ _ => exact (Answers.done _).pair
  | bankEvacuate _ _ | bankReinstate _ _ => exact (Answers.done _).pair
  | debugTransfer _ _ => exact (Answers.done _).pair
  | segmentCommit _ _ _ => exact (Answers.done _).unit.unit
  | hbmBankRefresh dram =>
    exact (Answers.done _).check (vs := [.pseudoChannel dram.pseudo, .stackId dram.sid, .dramBank dram.bank])
      (by simp [Unit_.present]; omega)
  | storeScrub found => exact .errors found _
  | nop ctx found | det ctx found | spl ctx found | frm ctx found | fnc ctx found | ntf ctx found | ldt ctx found | stt ctx found
  | cpt ctx found | zrt ctx found | rls ctx found | aop ctx found | acl ctx found | mma ctx found | mms ctx found | asd ctx found
  | adr ctx found | vad ctx found | vmu ctx found | vmx ctx found | vmn ctx found | vsc ctx found | vex ctx found | vrc ctx found
  | vrs ctx found | vrr ctx found | vtr ctx found | vrq ctx found | smx ctx found | nrm ctx found => exact .op ctx found _
  | att ctx found | park ctx found | unpark ctx found | evict ctx found | restore ctx found | ismove ctx found => exact .op ctx found _
  | flitTransmit link | retryReqRepeat link | idleFlitSend link | replayTimeout link | replayLimit link | creditStallTimeout link =>
    exact .link link _
  | oprReceive link _ | flitReceive link _ | retryReqReceive link _ | initReceive link _ | initDoneReceive link _ | mrd link _
  | mwr link _ | mfa link _ | mcs link _ | rwr link _ | cpldReceive link _ | cplReceive link _ | fabricCompletionTimeout link _
  | tagHoldExpiry link _ | sealPacket link _ | ringPacket link _ | profilePacket link _ | timePacket link _ | haltPacket link _
  | resumePacket link _ => exact .link link _
  | fpCodedStreamStart port | fpStateChange port | fpStateTimeout port | fpFailedRetry port | widthSwitch port => exact .port port _
  | fpTrainingFrame port _ | fpMarkerLock port _ | width port _ => exact .port port _
  | fpUeRateRetrain port _ _ => exact .port port _
  | fpLaneFail port _ | fpLaneBerRemove port _ => exact (Answers.port port _).unit.swap
  | fpLaneRetrain port _ _ => exact (Answers.port port _).unit.swap

/-- Settles O3: a command is well-formed when the part has every unit that it names. -/
theorem commandsStopOnlyForAbsentUnits : Obligations.CommandsStopOnlyForAbsentUnits := by
  unfold Obligations.CommandsStopOnlyForAbsentUnits
  exact fun c s => ⟨(exec_answers c s).next, (exec_answers c s).fault⟩

end Sys2Proof.Machine
end
section
/-! SUPPORT. Proofs about what the links, their violations and the ends of requests leave, and the obligation on the completions that arrive
or fail to (R613, R627, R628, R630, R633, R736). -/
namespace Sys2Proof.Machine

/-! ### What the links and the ends of requests leave -/

/-- The host link but for its Lykel layer. -/
def HostLink.unqueued (h : HostLink) : HostLink := { h with lk := {} }

/-- Memory, time, the outstanding requests and the held tags are left, and where `p` holds the quarters and the state of the host link. -/
structure KeepsRequests (p : Prop) (s t : State) : Prop where
  hbm : t.hbm = s.hbm
  now : t.now = s.now
  out : t.links.out = s.links.out
  tagHold : t.links.tagHold = s.links.tagHold
  quarters : p → t.quarters = s.quarters
  host : p → t.links.host.unqueued = s.links.host.unqueued

namespace KeepsRequests

variable {p : Prop} {r s t : State}

theorem refl (p : Prop) (s : State) : KeepsRequests p s s := ⟨rfl, rfl, rfl, rfl, fun _ => rfl, fun _ => rfl⟩

theorem trans (h : KeepsRequests p r s) (k : KeepsRequests p s t) : KeepsRequests p r t :=
  ⟨k.hbm.trans h.hbm, k.now.trans h.now, k.out.trans h.out, k.tagHold.trans h.tagHold, fun hp => (k.quarters hp).trans (h.quarters hp),
    fun hp => (k.host hp).trans (h.host hp)⟩

/-- An update of other parts of the state. -/
theorem update (h : KeepsRequests p r s) (hhbm : t.hbm = s.hbm := by rfl) (hnow : t.now = s.now := by rfl)
    (hout : t.links.out = s.links.out := by rfl) (htagHold : t.links.tagHold = s.links.tagHold := by rfl)
    (hquarters : p → t.quarters = s.quarters := by intro _; rfl)
    (hhost : p → t.links.host.unqueued = s.links.host.unqueued := by intro _; rfl) : KeepsRequests p r t :=
  h.trans ⟨hhbm, hnow, hout, htagHold, hquarters, hhost⟩

/-- An update that leaves the links. -/
theorem inside (h : KeepsRequests p r s) (hlinks : t.links = s.links) (hhbm : t.hbm = s.hbm) (hnow : t.now = s.now)
    (hquarters : p → t.quarters = s.quarters) : KeepsRequests p r t :=
  h.update hhbm hnow (by rw [hlinks]) (by rw [hlinks]) hquarters (fun _ => by rw [hlinks])

theorem ite {a : Prop} {_ : Decidable a} (h : KeepsRequests p r s) (k : KeepsRequests p r t) : KeepsRequests p r (if a then s else t) := by
  split
  · exact h
  · exact k

theorem foldl {α : Type} {f : State → α → State} (hf : ∀ s a, KeepsRequests p r s → KeepsRequests p r (f s a)) :
    ∀ (l : List α) {s : State}, KeepsRequests p r s → KeepsRequests p r (l.foldl f s)
  | [], _, h => h
  | a :: l, s, h => foldl hf l (hf s a h)

theorem modFabric (h : KeepsRequests p r s) (f : Fabric → Fabric) : KeepsRequests p r (s.modFabric f) := h.update

theorem modEntry (h : KeepsRequests p r s) (c : Nat) (f : Entry → Entry) : KeepsRequests p r (s.modEntry c f) :=
  h.inside (s.modEntry_links c f) (s.modEntry_hbm c f) (s.modEntry_now c f) (fun _ => s.modEntry_quarters c f)

theorem modFport (h : KeepsRequests p r s) (n : Nat) (f : FabricPort → FabricPort) : KeepsRequests p r (s.modFport n f) := h.update

theorem modLykel (h : KeepsRequests p r s) (link : Nat) (f : Lykel → Lykel) : KeepsRequests p r (s.modLykel link f) :=
  ite h.update (h.modFport _ _)

theorem bump (h : KeepsRequests p r s) (page off w n : Nat) : KeepsRequests p r (s.bump page off w n) := h.update

theorem chargeFlit (h : KeepsRequests p r s) (link : Nat) : KeepsRequests p r (s.chargeFlit link) :=
  h.inside (s.chargeFixed_links _) (s.chargeFixed_hbm _) (s.chargeFixed_now _) (fun _ => s.chargeFixed_quarters _)

/-! ### Reports, and the states of links -/

theorem reports (h : KeepsRequests p r s) (k : Reports s t) : KeepsRequests p r t :=
  h.inside (k.reads (·.links)) (k.reads (·.hbm)) (k.reads (·.now)) (fun _ => k.reads (·.quarters))

theorem deviceEvent (h : KeepsRequests p r s) (code : Nat) (handle : Option Nat) (payload : List Byte) :
    KeepsRequests p r (s.deviceEvent code handle payload) := h.reports ((Reports.refl s).deviceEvent _ _ _)

theorem showStat (h : KeepsRequests p r s) (v : Nat) : KeepsRequests p r (s.showStat v) := by
  rw [State.showStat_eq]
  exact h.update

theorem refreshStat (h : KeepsRequests p r s) : KeepsRequests p r s.refreshStat := (h.showStat _).ite h

theorem enterPhase (h : KeepsRequests p r s) (n : Nat) : KeepsRequests p r (s.enterPhase n) := ite (h.update.showStat _) h.update

theorem countViolation (h : KeepsRequests p r s) (link code ptype tag : Nat) : KeepsRequests p r (s.countViolation link code ptype tag) :=
  h.update

theorem advanceStream (h : KeepsRequests p r s) (d : Nat) : KeepsRequests p r (s.advanceStream d) := h.update

theorem advanceEpoch (h : KeepsRequests p r s) (d : Nat) : KeepsRequests p r (s.advanceEpoch d) := h.update

theorem requeue (h : KeepsRequests p r s) (n : Nat) : KeepsRequests p r (s.requeue n) := h.update

/-- R699, R700: the states of the fabric ports are of other parts. -/
theorem setPortState (h : KeepsRequests p r s) (n : Nat) (st : PortState) : KeepsRequests p r (s.setPortState n st) := by
  unfold State.setPortState
  extract_lets was s1 s2 s3 s4
  have h1 : KeepsRequests p r s1 := h.modFport n _
  have h2 : KeepsRequests p r s2 := h1.ite (foldl (fun _ _ k => k.advanceEpoch _) _ h1)
  have h3 : KeepsRequests p r s3 := (h2.requeue n).ite h2
  have h4 : KeepsRequests p r s4 := (h3.deviceEvent _ _ _).ite h3
  exact h4.refreshStat

theorem beginTrain (h : KeepsRequests p r s) (n : Nat) (st : PortState) : KeepsRequests p r (s.beginTrain n st) :=
  (h.modFport n _).setPortState n st

/-- R848: bring-up goes on once the host link has settled. -/
theorem hostLinkSettled (h : KeepsRequests p r s) : KeepsRequests p r s.hostLinkSettled :=
  ite (ite (foldl (fun _ _ k => k.ite (k.beginTrain _ _)) _ (h.enterPhase _)) (h.enterPhase _)) h.refreshStat

/-- R658, R696: a link enters RETRAIN: for the host link that is a change of its state. -/
theorem enterRetrain (h : KeepsRequests p r s) {link : Nat} (hp : link = 0 → ¬ p) : KeepsRequests p r (s.enterRetrain link) := by
  unfold State.enterRetrain
  split
  · next h0 =>
    have hhost := fun f => h.update (t := s.modHost f) (hhost := fun hp' => absurd hp' (hp h0))
    exact ite (((hhost _).bump _ _ _ _).deviceEvent _ _ _).refreshStat h
  · exact ite (((h.modFport _ _).bump _ _ _ _).beginTrain _ _) h

/-- R671, R673: a violation may bring its link into RETRAIN. -/
theorem violate (h : KeepsRequests p r s) {link : Nat} (hp : link = 0 → ¬ p) (code ptype tag : Nat) :
    KeepsRequests p r (s.violate link code ptype tag) := by
  have hcount := h.countViolation link code ptype tag
  exact ite ((hcount.update.countViolation _ _ _ _).enterRetrain hp) hcount.update

/-! ### Packets and answers -/

theorem freeSlots (h : KeepsRequests p r s) (link ch n : Nat) : KeepsRequests p r (s.freeSlots link ch n) := h.modLykel _ _

theorem takePacket (h : KeepsRequests p r s) (link : Nat) (pkt : List Byte) : KeepsRequests p r (s.takePacket link pkt) := by
  unfold State.takePacket
  dsimp only
  split
  · exact ((h.modLykel _ _).freeSlots _ _ _).ite h
  · exact h

theorem enqueue (h : KeepsRequests p r s) (link ch : Nat) (bytes : List Byte) : KeepsRequests p r (s.enqueue link ch bytes) :=
  h.modLykel _ _

theorem countStatus (h : KeepsRequests p r s) (st : Nat) : KeepsRequests p r (s.countStatus st) := h.ite (h.bump _ _ _ _)

theorem sendToRequester (h : KeepsRequests p r s) (link sdev : Nat) (bytes : List Byte) :
    KeepsRequests p r (s.sendToRequester link sdev bytes) := (h.enqueue _ _ _).ite h.update

theorem answerCpl (h : KeepsRequests p r s) (link tag sdev st : Nat) : KeepsRequests p r (s.answerCpl link tag sdev st) :=
  (h.countStatus st).sendToRequester _ _ _

theorem answerRead (h : KeepsRequests p r s) (link tag sdev spa : Nat) (data : List Byte) (bad : List Nat) :
    KeepsRequests p r (s.answerRead link tag sdev spa data bad) := foldl (fun _ _ k => (k.countStatus _).sendToRequester _ _ _) _ h

/-! ### Records of a context -/

theorem writeRecord (h : KeepsRequests p r s) (master : Nat) (owner : TxnOwner) (spa : Nat) (bytes : List Byte) (after : List Nat) :
    KeepsRequests p r (s.writeRecord master owner spa bytes after) := (h.modFabric _).ite (h.bump _ _ _ _)

theorem contextEvent (h : KeepsRequests p r s) (c code : Nat) (payload : List Byte) : KeepsRequests p r (s.contextEvent c code payload) :=
  ((h.writeRecord _ _ _ _ _).modEntry _ _).ite (h.bump _ _ _ _)

theorem respond (h : KeepsRequests p r s) (c : Nat) (pkt : List Byte) (kind code count pepoch : Nat) (after : List Nat) :
    KeepsRequests p r (s.respond c pkt kind code count pepoch after) :=
  (h.writeRecord _ _ _ _ _).ite ((h.writeRecord _ _ _ _ _).modEntry _ _)

theorem writeProgress (h : KeepsRequests p r s) (c : Nat) (after : List Nat) : KeepsRequests p r (s.writeProgress c after) :=
  (h.writeRecord _ _ _ _ _).ite ((h.writeRecord _ _ _ _ _).modEntry _ _)

/-! ### The end of a transaction -/

/-- R547: whoever asked for a transaction, its end leaves the requests. -/
theorem endTxn (h : KeepsRequests p r s) (x : Txn) (data : List Byte) (bad : List Nat) (st : Nat) :
    KeepsRequests p r (s.endTxn x data bad st) := by
  unfold State.endTxn
  extract_lets isRead s1 data1 bad1 got
  have hended : KeepsRequests p r s1 := h.update
  have hgot := hended.modFabric (fun f => { f with got := f.got ++ [got] })
  have hlost := hended.bump 2 44 4 1
  split
  · exact hgot.ite (hended.ite (hended.contextEvent _ _ _))
  · exact hgot
  · exact hgot.ite (hended.ite hlost)
  · exact hended.ite hlost
  · exact hended
  · exact hended
  · refine ite (hended.answerCpl _ _ _ _) ?_
    split
    · exact hended.answerRead _ _ _ _ _ _
    · exact hended.answerCpl _ _ _ _
    · exact hended.sendToRequester _ _ _

theorem modStream (h : KeepsRequests p r s) (d : Nat) (f : Stream → Stream) : KeepsRequests p r (s.modStream d f) := h.update

/-! ### The fault of a context -/

/-- An update of the slices, the quarters and the ports of the TRF. -/
theorem within (h : KeepsRequests p r s) (hp : ¬ p) (hhbm : t.hbm = s.hbm := by rfl) (hnow : t.now = s.now := by rfl)
    (hlinks : t.links = s.links := by rfl) : KeepsRequests p r t :=
  h.inside hlinks hhbm hnow (fun hp' => absurd hp' hp)

theorem modQuarter (h : KeepsRequests p r s) (hp : ¬ p) (q : Nat) (f : Quarter → Quarter) : KeepsRequests p r (s.modQuarter q f) := h.within hp

theorem putEntry (h : KeepsRequests p r s) (c : Nat) (e : Entry) : KeepsRequests p r (s.putEntry c e) := h.update

theorem withdraw (h : KeepsRequests p r s) (hp : ¬ p) (c : Nat) : KeepsRequests p r (s.withdraw c) := h.within hp

theorem chargeDl (h : KeepsRequests p r s) (c period n : Nat) (frame : Option Int) : KeepsRequests p r (s.chargeDl c period n frame) :=
  h.modEntry _ _

theorem chargeHeld (h : KeepsRequests p r s) (j : Job) : KeepsRequests p r (s.chargeHeld j) := by
  unfold State.chargeHeld State.chargeSegment
  dsimp only
  split
  · exact (h.chargeDl _ _ _ _).ite h
  · exact (h.chargeDl _ _ _ _).ite h
  · exact h

/-- R331: an aborted segment leaves its tracks, lines and planes. -/
theorem abortSegment (h : KeepsRequests p r s) (hp : ¬ p) (q : Nat) (j : Job) : KeepsRequests p r (s.abortSegment q j) := by
  unfold State.abortSegment
  extract_lets s0 s1 e s2 s3
  have hwithdrawn : KeepsRequests p r s0 := ((h.withdraw hp j.ctx).within (t := State.releaseStaged _ _) hp).modEntry _ _
  have hforgotten : KeepsRequests p r s1 := ite (hwithdrawn.modEntry _ _) hwithdrawn
  have hrestored : KeepsRequests p r s2 := by
    unfold s2
    split
    · split
      · exact ite (putEntry (hforgotten.modQuarter hp _ _) _ _) hforgotten
      · exact hforgotten
    · exact hforgotten
  have hfreed : KeepsRequests p r s3 := by
    unfold s3
    split
    · split
      · exact ite (putEntry (hrestored.modQuarter hp _ _) _ _) hrestored
      · exact hrestored
    · exact hrestored
  exact (hfreed.ite (hfreed.modQuarter hp _ _)).modQuarter hp _ _

theorem dropMoves (h : KeepsRequests p r s) (hp : ¬ p) (f : MoveJob → Bool) : KeepsRequests p r (s.dropMoves f) := h.within hp

theorem dropFloors (h : KeepsRequests p r s) (hp : ¬ p) (k : Nat) (iso : Option Nat) : KeepsRequests p r (s.dropFloors k iso) := by
  unfold State.dropFloors
  dsimp only
  split
  · exact h.within hp
  · exact h.within hp

theorem freeSlot (h : KeepsRequests p r s) (hp : ¬ p) (c : Nat) : KeepsRequests p r (s.freeSlot c) := by
  unfold State.freeSlot
  extract_lets e s1
  have hcleared : KeepsRequests p r s1 := ((h.dropMoves hp (fun m => m.ctx == c)).withdraw hp c).within hp
  split
  · exact hcleared.within hp
  · next k _ =>
    extract_lets s2 s3 s4
    have hreleased : KeepsRequests p r s2 := hcleared.within hp
    have hfloors : KeepsRequests p r s3 := (hreleased.dropFloors hp k _).within hp
    have hclosed : KeepsRequests p r s4 := ite (hfloors.within hp) hfloors
    exact hclosed.modEntry c _

/-- R343: a context that faults loses its routine, its slot and its operations. -/
theorem faultContext (h : KeepsRequests p r s) (hp : ¬ p) (c : Nat) (i : FaultInfo) : KeepsRequests p r (s.faultContext c i) := by
  unfold State.faultContext
  split
  · exact h
  · refine h.ite ?_
    extract_lets i1 s0 s1 rec_ s2 s3 s4 s5
    have h0 : KeepsRequests p r s0 := by
      unfold s0
      split
      · exact (h.chargeHeld _).abortSegment hp _ _
      · exact h.withdraw hp c
    have h1 : KeepsRequests p r s1 := h0.contextEvent _ _ _
    have h2 : KeepsRequests p r s2 := by
      unfold s2
      split
      · exact (h1.respond _ _ _ _ _ _ _).ite h1
      · exact h1
    have h5 : KeepsRequests p r s5 := ((h2.freeSlot hp c).modEntry c _).update
    exact h5.writeProgress _ _

end KeepsRequests

/-! ### A request that is closed -/

/-- The outstanding requests without those of the tag of `r`. -/
def State.without (s : State) (r : OutReq) : State := { s with links := { s.links with out := s.links.out.filter (fun x => x.tag != r.tag) } }

theorem State.tag_ne_of_mem_without {s t : State} {r : OutReq} {p : Prop} (h : KeepsRequests p (s.without r) t) :
    ∀ x ∈ t.links.out, x.tag ≠ r.tag := by
  intro x hx
  rw [h.out] at hx
  simpa using (List.mem_filter.mp hx).2

theorem KeepsRequests.without {p : Prop} {s t : State} (h : KeepsRequests p s t) (r : OutReq) : KeepsRequests p (s.without r) (t.without r) :=
  ⟨h.hbm, h.now, congrArg (List.filter (fun x : OutReq => x.tag != r.tag)) h.out, h.tagHold, h.quarters, h.host⟩

/-- R627: the closing of a request, whatever becomes of its stream (R729). -/
theorem State.closeOut_keeps (p : Prop) (s : State) (r : OutReq) (st : Nat) : KeepsRequests p (s.without r) (s.closeOut r st) := by
  have hclosed := KeepsRequests.refl p (s.without r)
  unfold State.closeOut
  dsimp only
  split
  · exact hclosed
  · exact (hclosed.modStream _ _).ite ((hclosed.modStream _ _).advanceStream _)

/-- R547: the last completion closes its request. -/
theorem State.finishOut_keeps (p : Prop) (s : State) (r : OutReq) (data : List Byte) (bad : List Nat) (st : Nat) :
    KeepsRequests p (s.without r) (s.finishOut r data bad st) := by
  unfold State.finishOut
  extract_lets s1
  have hclosed : KeepsRequests p (s.without r) s1 := s.closeOut_keeps p r _
  split
  · exact hclosed
  · exact KeepsRequests.ite (KeepsRequests.ite (hclosed.modFabric _) (hclosed.endTxn _ _ _ _)) (hclosed.endTxn _ _ _ _)

/-- R1018: a failed request is closed, whoever faults for it. -/
theorem State.faultOut_keeps {p : Prop} (hp : ¬ p) (s : State) (r : OutReq) (code : Nat) :
    KeepsRequests p (s.without r) (s.faultOut r code) := by
  have hfault := fun c i => ((s.closeOut_keeps p r Code.stHostRefused).modFabric
    (fun f => { f with txns := f.txns.filter (fun x => x.id != r.txn) })).faultContext hp c i
  unfold State.faultOut
  dsimp only
  split
  · split
    · exact hfault _ _
    · exact hfault _ _
    · exact hfault _ _
    · exact s.finishOut_keeps p r _ _ _
  · exact s.closeOut_keeps p r _

theorem KeepsRequests.outOf {p : Prop} {s t : State} (h : KeepsRequests p s t) (link tag : Nat) : t.outOf link tag = s.outOf link tag := by
  rw [State.outOf, State.outOf, h.out]

theorem State.tag_of_outOf {s : State} {link tag : Nat} {r : OutReq} (h : s.outOf link tag = some r) : r.tag = tag := by
  have hfound := List.find?_some h
  rw [Bool.and_eq_true, beq_iff_eq] at hfound
  exact hfound.1

/-! ### Completions that arrive -/

/-- A completion for this device in its turn, of a lawful form (Tables 12.7, 12.13). -/
structure LawfulCompletion (s : State) (link t : Nat) (p : List Byte) : Prop where
  type : pktType p = t
  running : s.running = true
  turn : s.inTurn link p = true
  mine : link ≠ 0 → cplDdev p = s.devId
  length : p.length = 16 * (1 + pktNsl p)
  slots : t = tCpl → pktNsl p = 0
  reserved : cplReserved link p = false

/-- R613: a lawful completion is taken from its buffer. -/
theorem State.takeCompletion_of_lawful {s : State} {link t : Nat} {p : List Byte} (h : LawfulCompletion s link t p) (f : State → State) :
    s.takeCompletion link t p f = f (s.takePacket link p) := by
  obtain ⟨htype, hrunning, hturn, hmine, hlength, hslots, hreserved⟩ := h
  have hshape : ¬(p.length ≠ 16 * (1 + pktNsl p) ∨ (t = tCpl ∧ pktNsl p ≠ 0)) := by
    rintro (hne | ⟨ht, hne⟩)
    · exact hne hlength
    · exact hne (hslots ht)
  have hhere : ¬(link ≠ 0 ∧ cplDdev p ≠ s.devId) := fun ⟨h0, hne⟩ => hne (hmine h0)
  unfold State.takeCompletion
  rw [if_neg (by simp [htype, hrunning, hturn]), if_neg hshape, if_neg (by simp [hreserved]), if_neg hhere]

/-- R640: status OK is lawful on every link. -/
theorem State.takeStatus_of_ok {p : List Byte} (h : cplSt p = 0) (s : State) (link : Nat) : s.takeStatus link p = (s, 0) := by
  simp [State.takeStatus, h]

/-- R631: a CPL with status OK ends its write. -/
theorem State.takeCpl_of_ok {s : State} {link : Nat} {p : List Byte} {r : OutReq} (hout : s.outOf link (pktTag p) = some r)
    (hwrite : r.ptype = tMwr ∨ r.ptype = tRwr) (hlast : cplLast p = true) (hst : cplSt p = 0) :
    s.takeCpl link p = s.finishOut r [] [] 0 := by
  have hread : (r.ptype == tMwr || r.ptype == tRwr) = true := by simpa using hwrite
  have hnot : (r.ptype == tMrd) = false := by obtain h | h := hwrite <;> rw [h] <;> rfl
  simp [State.takeCpl, hout, State.takeStatus_of_ok hst, hread, hnot, hlast]

/-- R628: the bytes of a completion, found again by their offsets. -/
theorem find_zipIdx_getElem {α : Type} : ∀ (l : List α) (k i : Nat) (h : i < l.length),
    (l.zipIdx k).find? (fun x => x.2 == k + i) = some (l[i], k + i)
  | a :: l, k, 0, _ => by simp
  | a :: l, k, i + 1, h => by
    have hnext := find_zipIdx_getElem l (k + 1) i (Nat.lt_of_succ_lt_succ h)
    rw [Nat.add_right_comm, Nat.add_assoc] at hnext
    rw [List.zipIdx_cons, List.find?_cons_of_neg (by simp), hnext, List.getElem_cons_succ]

theorem gathered_eq (l : List Byte) : (List.range l.length).map (fun i => (l.zipIdx.find? (fun x => x.2 == i)).elim 0 (·.1)) = l := by
  refine List.ext_getElem (by simp) (fun i _ h => ?_)
  have hfound := find_zipIdx_getElem l 0 i h
  rw [Nat.zero_add] at hfound
  simp [hfound]

/-- R628: the one CPLD that carries all the data of a read ends it with its data. -/
theorem State.takeCpld_of_whole {s : State} {link : Nat} {p : List Byte} {r : OutReq} (hout : s.outOf link (pktTag p) = some r)
    (hread : r.ptype = tMrd) (hgot : r.got = []) (hbad : r.bad = []) (hst : cplSt p = 0) (hoff : cplBoff p = 0) (hcnt : cplCnt p = r.size)
    (hslots : pktNsl p = nslCpld r.spa 0 r.size) (hdata : (pktData p (r.spa % 16) r.size).length = r.size) (hlast : cplLast p = true) :
    s.takeCpld link p = s.finishOut r (pktData p (r.spa % 16) r.size) [] 0 := by
  have hall := gathered_eq (pktData p (r.spa % 16) r.size)
  rw [hdata] at hall
  simp [State.takeCpld, hout, hst, hoff, hcnt, hslots, hread, hgot, hbad, hlast, hdata, Code.stPoison]
  exact congrArg (fun d => s.finishOut r d [] 0) hall

/-- R547: a read of an operation ends with the bytes that it asked for at its routine. -/
theorem State.finishOut_of_opRead {s : State} {r : OutReq} {x : Txn} {c : Nat} (hstream : r.stream = none)
    (hfind : s.fabric.txns.find? (fun t => t.id == r.txn) = some x) (hread : x.kind = .read) (howner : x.owner = .op c) (data : List Byte) :
    (s.finishOut r data [] 0).fabric.txns = s.fabric.txns.filter (fun y => y.id != x.id) ∧
      (s.finishOut r data [] 0).fabric.got =
        s.fabric.got ++ [{ owner := .op c, spa := x.spa, data := bytesAt data (x.spa % 64) x.len, bad := [], st := 0 }] := by
  have hclosed : s.closeOut r 0 = s.without r := by
    unfold State.closeOut
    rw [hstream]
    rfl
  have hend : s.finishOut r data [] 0 = (s.without r).endTxn x (bytesAt data (x.spa % 64) x.len) [] 0 := by
    have hfind' : (s.without r).fabric.txns.find? (fun t => t.id == r.txn) = some x := hfind
    simp [State.finishOut, hclosed, hfind', Txn.isWrite, hread]
  obtain ⟨f, w, hended, htxns, hgot⟩ := State.endTxn_of_op (s.without r) howner hread (bytesAt data (x.spa % 64) x.len) []
  rw [hend, hended]
  exact ⟨htxns, hgot⟩

theorem exec_of_link {link : Nat} (h : link < 17) (t : State) : guardLink link (.next t) = .next t := if_neg (Nat.not_le.mpr h)

/-! ### Timeouts and holds -/

/-- R633, R736: a tag is held from a timeout on. -/
def State.holdTag (s : State) (link tag : Nat) (r : OutReq) : State :=
  { s with
    now := max s.now (r.sentAt + 50000000)
    links := { s.links with tagHold := s.links.tagHold ++ [(link, tag, max s.now (r.sentAt + 50000000) + 100000000)] } }

theorem exec_hostCompletionTimeout {s : State} {tag : Nat} {r : OutReq} (hout : s.outOf 0 tag = some r) (hwire : r.onWire = true) :
    Completes (.hostCompletionTimeout tag) s (KeepsRequests False ((s.holdTag 0 tag r).without r)) := by
  have hviolated := (KeepsRequests.refl False (s.holdTag 0 tag r)).violate (link := 0) (fun _ => id) Code.pvCplTimeout r.ptype tag
  refine ⟨_, rfl, ?_⟩
  simp only [hout, hwire, Bool.not_true, Bool.false_eq_true, if_false]
  exact (hviolated.without r).trans (State.faultOut_keeps id _ r _)

theorem exec_hostCompletionTimeout_of_none {s : State} {tag : Nat} (h : s.outOf 0 tag = none ∨ ∃ r, s.outOf 0 tag = some r ∧ r.onWire = false) :
    exec (.hostCompletionTimeout tag) s = .next s := by
  have hexec : exec (.hostCompletionTimeout tag) s = execHostCompletionTimeout tag s := rfl
  rw [hexec, execHostCompletionTimeout]
  obtain hnone | ⟨r, hr, hwire⟩ := h
  · rw [hnone]
  · simp only [hr, hwire, Bool.not_false, if_true]

theorem exec_fabricCompletionTimeout {s : State} {link tag : Nat} {r : OutReq} (hlink : link < 17)
    (hout : s.links.out.find? (fun r => r.tag == tag && r.link == link && link != 0) = some r) (hwire : r.onWire = true) :
    Completes (.fabricCompletionTimeout link tag) s (KeepsRequests False ((s.holdTag link tag r).without r)) := by
  have hcounted := (KeepsRequests.refl False (s.holdTag link tag r)).bump (6 + link) 40 2 1
  refine ⟨_, exec_of_link hlink _, ?_⟩
  simp only [hout, hwire, Bool.not_true, Bool.false_eq_true, if_false]
  exact (hcounted.without r).trans (State.finishOut_keeps False _ r _ _ _)

theorem exec_tagHoldExpiry {s : State} {link tag : Nat} (hlink : link < 17) :
    exec (.tagHoldExpiry link tag) s = .next (match s.links.tagHold.find? (fun h => h.1 == link && h.2.1 == tag) with
      | none => s
      | some h => { s with now := max s.now h.2.2, links := { s.links with tagHold := s.links.tagHold.erase h } }) :=
  exec_of_link hlink _

/-- Settles O55: a completion or a timeout closes its request, and leaves memory, time and the other requests. -/
theorem completionsCloseTheirRequests : Obligations.CompletionsCloseTheirRequests := by
  unfold Obligations.CompletionsCloseTheirRequests
  intro s link hlink
  refine ⟨?cpl, ?cpld, ?host, fun tag h => exec_hostCompletionTimeout_of_none h, ?fabric, ?hold, ?free⟩
  case cpl =>
    intro r p htype hrunning hturn hmine hlength hslots hreserved hout hwrite hlast _ _ hst
    have hlawful : LawfulCompletion s link tCpl p := ⟨htype, hrunning, hturn, hmine, by rw [hlength, hslots], fun _ => hslots, hreserved⟩
    have htaken := (KeepsRequests.refl False s).takePacket link p
    have hclosed := (htaken.without r).trans (State.finishOut_keeps False _ r [] [] 0)
    refine ⟨_, exec_of_link hlink _, ?_⟩
    rw [State.takeCompletion_of_lawful hlawful, State.takeCpl_of_ok ((htaken.outOf _ _).trans hout) hwrite hlast hst]
    exact ⟨hclosed.hbm, hclosed.now, State.tag_ne_of_mem_without hclosed⟩
  case cpld =>
    intro r p x c htype hrunning hturn hmine hlength hreserved hout hread hgot hbad hstream hst hoff hcnt _ _ hslots hdata hlast hfind hkind howner
    have hlawful : LawfulCompletion s link tCpld p := ⟨htype, hrunning, hturn, hmine, hlength, (fun h => absurd h (by decide)), hreserved⟩
    have htaken := (KeepsRequests.refl False s).takePacket link p
    have hclosed := (htaken.without r).trans (State.finishOut_keeps False _ r (pktData p (r.spa % 16) r.size) [] 0)
    refine ⟨_, exec_of_link hlink _, ?_⟩
    rw [State.takeCompletion_of_lawful hlawful,
      State.takeCpld_of_whole ((htaken.outOf _ _).trans hout) hread hgot hbad hst hoff hcnt hslots hdata hlast]
    obtain ⟨l, hl⟩ := s.takePacket_frame link p
    rw [hl] at hclosed ⊢
    exact ⟨hclosed.hbm, State.tag_ne_of_mem_without hclosed, State.finishOut_of_opRead (s := { s with links := l }) hstream hfind hkind howner _⟩
  case host =>
    intro tag r hout hwire
    obtain ⟨t, hexec, hkeeps⟩ := exec_hostCompletionTimeout hout hwire
    refine ⟨t, hexec, hkeeps.hbm, hkeeps.now, ?_, State.tag_of_outOf hout ▸ State.tag_ne_of_mem_without hkeeps⟩
    rw [hkeeps.tagHold, hkeeps.now]
    exact List.mem_append_right _ List.mem_cons_self
  case fabric =>
    intro tag r hout hwire
    obtain ⟨t, hexec, hkeeps⟩ := exec_fabricCompletionTimeout hlink hout hwire
    have htag : r.tag = tag := by
      have hfound := List.find?_some hout
      simp only [Bool.and_eq_true, beq_iff_eq] at hfound
      exact hfound.1.1
    refine ⟨t, hexec, hkeeps.hbm, hkeeps.now, ?_, htag ▸ State.tag_ne_of_mem_without hkeeps⟩
    rw [hkeeps.tagHold, hkeeps.now]
    exact List.mem_append_right _ List.mem_cons_self
  case hold =>
    intro tag a hfind
    exact ⟨_, exec_tagHoldExpiry hlink, by rw [hfind]⟩
  case free =>
    intro tag hfind
    rw [exec_tagHoldExpiry hlink, hfind]

end Sys2Proof.Machine
end
section
/-! SUPPORT. Proofs about the states of the host link, and the obligation on its handshake, its limits and the report of its violations
(R658, R659, R665, R666, R669, R673, R905). -/
namespace Sys2Proof.Machine

theorem State.refreshStat_eq (s : State) : s.refreshStat = { s with boot := s.refreshStat.boot } := by
  unfold State.refreshStat
  split
  · exact s.showStat_eq _
  · rfl

/-- Memory, time, the quarters and the state of the host link are left. -/
structure KeepsHost (s t : State) : Prop where
  hbm : t.hbm = s.hbm
  now : t.now = s.now
  quarters : t.quarters = s.quarters
  host : t.links.host.unqueued = s.links.host.unqueued

namespace KeepsHost

variable {r s t : State}

theorem of_keepsRequests (h : KeepsRequests True s t) : KeepsHost s t := ⟨h.hbm, h.now, h.quarters trivial, h.host trivial⟩

theorem trans (h : KeepsHost r s) (k : KeepsHost s t) : KeepsHost r t :=
  ⟨k.hbm.trans h.hbm, k.now.trans h.now, k.quarters.trans h.quarters, k.host.trans h.host⟩

theorem reports (k : Reports s t) : KeepsHost s t := of_keepsRequests ((KeepsRequests.refl True s).reports k)

theorem finishOut (h : KeepsHost r s) (o : OutReq) (data : List Byte) (bad : List Nat) (st : Nat) : KeepsHost r (s.finishOut o data bad st) :=
  have hclosed := s.finishOut_keeps True o data bad st
  h.trans ⟨hclosed.hbm, hclosed.now, hclosed.quarters trivial, hclosed.host trivial⟩

theorem foldl_finishOut (data : List Byte) (bad : List Nat) (st : Nat) :
    ∀ (l : List OutReq) {s : State}, KeepsHost r s → KeepsHost r (l.foldl (fun s o => s.finishOut o data bad st) s)
  | [], _, h => h
  | o :: l, _, h => foldl_finishOut data bad st l (h.finishOut o data bad st)

theorem hostLinkSettled (h : KeepsHost r s) : KeepsHost r s.hostLinkSettled :=
  h.trans (of_keepsRequests (KeepsRequests.refl True s).hostLinkSettled)

theorem st (h : KeepsHost s t) : t.links.host.st = s.links.host.st :=
  have hsame := congrArg HostLink.st h.host
  hsame

theorem attempts (h : KeepsHost s t) : t.links.host.attempts = s.links.host.attempts :=
  have hsame := congrArg HostLink.attempts h.host
  hsame

theorem wasActive (h : KeepsHost s t) : t.links.host.wasActive = s.links.host.wasActive :=
  have hsame := congrArg HostLink.wasActive h.host
  hsame

theorem gotInit (h : KeepsHost s t) : t.links.host.gotInit = s.links.host.gotInit :=
  have hsame := congrArg HostLink.gotInit h.host
  hsame

theorem mset (h : KeepsHost s t) : t.links.host.mset = s.links.host.mset :=
  have hsame := congrArg HostLink.mset h.host
  hsame

end KeepsHost

/-- Table 16.6: the event of a state of the host link reports, and changes none. -/
theorem State.hlinkEvent_reports (s : State) : Reports s s.hlinkEvent := (Reports.refl s).deviceEvent _ _ _

/-- R659, R670: the outcome of a failed attempt. -/
theorem State.hostAttemptFailed_outcome (s : State) :
    s.hostAttemptFailed.hbm = s.hbm ∧ s.hostAttemptFailed.now = s.now ∧
      s.hostAttemptFailed.links.host.attempts = s.links.host.attempts + 1 ∧
      s.hostAttemptFailed.links.host.st =
        (if 3 ≤ s.links.host.attempts + 1 then .failed else if s.links.host.wasActive then .retrain else .train) := by
  unfold State.hostAttemptFailed
  extract_lets h a s1 again s2
  by_cases hlast : 3 ≤ a
  · have hkept : KeepsHost (s.modHost (fun h => { h with st := .failed, attempts := a, since := s.now, mset := 0 }))
        ((s1.links.out.filter (fun r => r.link == 0)).foldl (fun s r => s.finishOut r [] [] Code.stHostRefused) s1).hostLinkSettled :=
      ((KeepsHost.reports (State.hlinkEvent_reports _)).foldl_finishOut _ _ _ _).hostLinkSettled
    rw [if_pos hlast, if_pos hlast]
    exact ⟨hkept.hbm, hkept.now, hkept.attempts, hkept.st⟩
  · rw [if_neg hlast, if_neg hlast]
    by_cases hwas : h.wasActive = true
    · have hkept : KeepsHost s2 (s2.bump 4 38 2 1).hlinkEvent :=
        KeepsHost.reports (((Reports.refl s2).bump 4 38 2 1).deviceEvent _ _ _)
      rw [if_pos hwas, if_pos hwas]
      exact ⟨hkept.hbm, hkept.now, hkept.attempts, hkept.st.trans (if_pos hwas)⟩
    · rw [if_neg hwas, if_neg hwas]
      exact ⟨rfl, rfl, rfl, if_neg hwas⟩

/-- R669: the host link in ACTIVE or RESYNC retrains. -/
theorem State.enterRetrain_host_st {s : State} (h : s.links.host.st = .active ∨ s.links.host.st = .resync) :
    (s.enterRetrain 0).links.host.st = .retrain := by
  unfold State.enterRetrain
  rw [if_pos rfl, if_pos h]
  extract_lets s1
  have hkept : KeepsHost s1 ((s1.bump 4 38 2 1).hlinkEvent).refreshStat :=
    .of_keepsRequests (((KeepsRequests.refl True s1).bump 4 38 2 1).deviceEvent _ _ _).refreshStat
  exact hkept.st

theorem exec_handshakeEntry (s : State) : exec .handshakeEntry s = execHandshakeEntry s := rfl

theorem exec_linkStateTimeout (s : State) : exec .linkStateTimeout s = execLinkStateTimeout s := rfl

theorem exec_moduleRetrain (m : Nat) (s : State) : exec (.moduleRetrain m) s = execModuleRetrain m s := rfl

theorem exec_linkViolationReport (s : State) : exec .linkViolationReport s = execLinkViolationReport s := rfl

/-- Settles O53: each case follows the state of the host link. -/
theorem hostLinkStatesAndViolations : Obligations.HostLinkStatesAndViolations := by
  unfold Obligations.HostLinkStatesAndViolations
  intro s
  refine ⟨?entry, ?shaking, ?active, ?modules, ?limit, ?resync, ?retrain, ?soon, ?report, ?silent⟩
  case entry =>
    intro hst hactive
    refine ⟨_, rfl, ?_⟩
    by_cases hall : s.links.host.active = 0xFF
    · simp [hst, hall, State.modHost]
    · simp [hst, hactive, hall, State.modHost, State.advanceTo]
  case shaking =>
    intro hst hactive
    refine ⟨_, rfl, ?_⟩
    simp [hst, hactive, State.modHost]
  case active =>
    intro hst
    rw [exec_handshakeEntry, exec_linkStateTimeout]
    simp [execHandshakeEntry, execLinkStateTimeout, hst]
  case modules =>
    intro m hdown hfailed
    refine ⟨_, rfl, ?_⟩
    by_cases hchange : s.links.host.st = .active ∧ m % 256 ≠ s.links.host.mset
    · simp only [hdown, hfailed, or_self, if_false, if_pos hchange]
      rw [State.refreshStat_eq]
      refine ⟨rfl, rfl, rfl, ?_, rfl⟩
      rintro (hst | hset)
      · exact absurd hchange.1 hst
      · exact absurd hset hchange.2
    · simp only [hdown, hfailed, or_self, if_false, if_neg hchange]
      exact ⟨rfl, rfl, rfl, fun _ => ⟨rfl, rfl⟩, rfl⟩
  case limit =>
    intro limit hlimit
    refine ⟨(s.advanceTo (s.links.host.since + limit)).hostAttemptFailed, ?_, State.hostAttemptFailed_outcome _⟩
    rw [exec_linkStateTimeout]
    obtain ⟨hst, hactive, rfl⟩ | ⟨hst, rfl⟩ | ⟨hst, rfl⟩ := hlimit
    · simp [execLinkStateTimeout, hst, hactive]
    · simp [execLinkStateTimeout, hst]
    · simp [execLinkStateTimeout, hst]
  case resync =>
    intro hst
    have hkept : KeepsRequests False (s.advanceTo (s.links.host.since + 20000)) _ :=
      (KeepsRequests.refl False _).enterRetrain (link := 0) (fun _ => id)
    have hretrain := State.enterRetrain_host_st (s := s.advanceTo (s.links.host.since + 20000)) (Or.inr hst)
    refine ⟨_, ?_, hkept.hbm, hretrain, hkept.now⟩
    rw [exec_linkStateTimeout]
    simp [execLinkStateTimeout, hst]
  case retrain =>
    intro m hm hst hleft hnone
    refine ⟨s.modHost (fun h => { h with modRetrain := assocPut h.modRetrain m s.now }), ?_, rfl, by simp [State.modHost, assocGet_put]⟩
    rw [exec_moduleRetrain]
    simp [execModuleRetrain, Nat.not_le.mpr hm, hst, hleft, hnone]
  case soon =>
    intro m a hm hput hsoon
    rw [exec_moduleRetrain]
    simp [execModuleRetrain, Nat.not_le.mpr hm, hput, hsoon]
  case report =>
    intro hsome
    refine ⟨_, rfl, ?_⟩
    have hwait : ¬ s.links.violations.isEmpty = true := by simpa using hsome
    rw [if_neg hwait]
    have hkept := KeepsRequests.foldl (p := True) (r := s.advanceTo (s.links.vioSince + 1000000))
      (f := fun s (v : Violation) => s.deviceEvent Code.linkViolation none
        ([BitVec.ofNat 8 v.link, 0] ++ natLe 2 v.code ++ natLe 2 (min v.count 65535) ++ [BitVec.ofNat 8 v.ptype, 0] ++ natLe 2 v.tag))
      (fun _ _ k => k.deviceEvent _ _ _) s.links.violations (KeepsRequests.refl _ _)
    exact ⟨hkept.hbm, rfl, hkept.now⟩
  case silent =>
    intro hnone
    rw [exec_linkViolationReport]
    simp [execLinkViolationReport, hnone]

end Sys2Proof.Machine
end
section
/-! SUPPORT. Proofs about the flits that leave on a link, and the obligation on them (R588, R594, R597, R601, R603, R605, R606, R615). -/
namespace Sys2Proof.Machine

/-! ### The Lykel layer of a link -/

theorem State.modLykel_lykel {s : State} {link : Nat} (h : link - 1 < s.links.ports.length) (f : Lykel → Lykel) :
    (s.modLykel link f).lykel link = f (s.lykel link) := by
  unfold State.modLykel State.lykel
  split
  · rfl
  · rw [State.modFport_fport s _ _ h, if_pos rfl]

@[simp] theorem State.modFport_portCount (s : State) (n : Nat) (f : FabricPort → FabricPort) :
    (s.modFport n f).links.ports.length = s.links.ports.length := modAt_length _ _ _

@[simp] theorem State.modLykel_portCount (s : State) (link : Nat) (f : Lykel → Lykel) :
    (s.modLykel link f).links.ports.length = s.links.ports.length := by
  unfold State.modLykel
  split
  · rfl
  · exact modAt_length _ _ _

@[simp] theorem State.chargeFlit_links (s : State) (link : Nat) : (s.chargeFlit link).links = s.links := s.chargeFixed_links _

theorem State.lykel_of_links {s t : State} (h : t.links = s.links) (link : Nat) : t.lykel link = s.lykel link := by
  rw [State.lykel, State.lykel, State.fport, State.fport, h]

theorem State.fport_of_ports {s t : State} (h : t.links.ports = s.links.ports) (n : Nat) : t.fport n = s.fport n := by
  rw [State.fport, State.fport, h]

/-- R588: work on the links: they and the energy may change. -/
def LinkWork (s t : State) : Prop := ∃ l p, t = { s with links := l, power := p }

namespace LinkWork

variable {r s t : State}

theorem refl (s : State) : LinkWork s s := ⟨_, _, rfl⟩

theorem trans (h : LinkWork r s) (k : LinkWork s t) : LinkWork r t := by
  obtain ⟨_, _, rfl⟩ := h
  obtain ⟨l, p, rfl⟩ := k
  exact ⟨l, p, rfl⟩

theorem eq (h : LinkWork s t) : t = { s with links := t.links, power := t.power } := by
  obtain ⟨l, p, rfl⟩ := h
  rfl

theorem hbm (h : LinkWork s t) : t.hbm = s.hbm := by rw [h.eq]

theorem now (h : LinkWork s t) : t.now = s.now := by rw [h.eq]

theorem eq_of_advance {a : Nat} (h : LinkWork (s.advanceTo a) t) :
    t = { s with now := t.now, links := t.links, power := t.power } := by
  obtain ⟨l, p, rfl⟩ := h
  rfl

theorem modFport (h : LinkWork r s) (n : Nat) (f : FabricPort → FabricPort) : LinkWork r (s.modFport n f) := h.trans ⟨_, _, rfl⟩

theorem modHost (h : LinkWork r s) (f : HostLink → HostLink) : LinkWork r (s.modHost f) := h.trans ⟨_, _, rfl⟩

theorem modLykel (h : LinkWork r s) (link : Nat) (f : Lykel → Lykel) : LinkWork r (s.modLykel link f) :=
  h.trans ⟨_, _, s.modLykel_eq link f⟩

theorem chargeFlit (h : LinkWork r s) (link : Nat) : LinkWork r (s.chargeFlit link) :=
  h.trans (by unfold State.chargeFlit State.chargeFixed; exact ⟨_, _, rfl⟩)

theorem noteSent (h : LinkWork r s) (link : Nat) (ps : List OutPacket) : LinkWork r (s.noteSent link ps) := h.trans ⟨_, _, rfl⟩

end LinkWork

/-! ### The coded stream of a port -/

/-- R681, R708: the coding of what a port sends leaves its Lykel layer and its state, and its set where no new one waits. -/
structure Encodes (p q : FabricPort) : Prop where
  lk : q.lk = p.lk
  st : q.st = p.st
  sets : p.setNext = none → q.txSet = p.txSet ∧ q.setNext = none

namespace Encodes

variable {o p q : FabricPort}

theorem refl (p : FabricPort) : Encodes p p := ⟨rfl, rfl, fun h => ⟨rfl, h⟩⟩

theorem trans (h : Encodes o p) (k : Encodes p q) : Encodes o q :=
  ⟨k.lk.trans h.lk, k.st.trans h.st, fun hnone =>
    have hbefore := h.sets hnone
    have hafter := k.sets hbefore.2
    ⟨hafter.1.trans hbefore.1, hafter.2⟩⟩

theorem sends (h : Encodes o p) (m : List Bool) (c : Nat) (x : List (Nat × List Nat)) :
    Encodes o { p with message := m, codewords := c, sent := x } := h.trans ⟨rfl, rfl, fun hnone => ⟨rfl, hnone⟩⟩

theorem sendHold (h : Encodes o p) (marker : Bool) : Encodes o (p.sendHold marker) := h.trans ⟨rfl, rfl, fun hnone => ⟨rfl, hnone⟩⟩

theorem sendMarker (h : Encodes o p) : Encodes o p.sendMarker :=
  h.trans ⟨rfl, rfl, fun hnone => ⟨congrArg (Option.getD · p.txSet) hnone, rfl⟩⟩

theorem sendCodeword (h : Encodes o p) : Encodes o p.sendCodeword := by
  unfold FabricPort.sendCodeword
  extract_lets p1
  have hcoded : Encodes o p1 := (h.sends _ _ _).sendHold false
  split
  · exact hcoded.sendMarker
  · exact hcoded

theorem sendFlit (h : Encodes o p) (flit : List Byte) : Encodes o (p.sendFlit flit) := by
  unfold FabricPort.sendFlit
  extract_lets r p1
  have hqueued : Encodes o p1 := h.trans ⟨rfl, rfl, fun hnone => ⟨rfl, hnone⟩⟩
  split
  · exact hqueued.sendCodeword
  · exact hqueued

end Encodes

theorem FabricPort.sendFlit_lk (p : FabricPort) (flit : List Byte) : (p.sendFlit flit).lk = p.lk := ((Encodes.refl p).sendFlit flit).lk

theorem FabricPort.sendFlit_txSet {p : FabricPort} (hnone : p.setNext = none) (flit : List Byte) : (p.sendFlit flit).txSet = p.txSet :=
  (((Encodes.refl p).sendFlit flit).sets hnone).1

/-! ### States of a port -/

theorem State.foldl_advanceEpoch_ports : ∀ (l : List Nat) (s : State), (l.foldl State.advanceEpoch s).links.ports = s.links.ports
  | [], _ => rfl
  | d :: l, s => foldl_advanceEpoch_ports l (s.advanceEpoch d)

theorem State.refreshStat_links (s : State) : s.refreshStat.links = s.links := by rw [State.refreshStat_eq]

theorem State.requeue_st {s : State} {n : Nat} (h : n < s.links.ports.length) : ((s.requeue n).fport n).st = (s.fport n).st := by
  unfold State.requeue
  extract_lets lk moved keep s1 held
  have hsame : (s1.fport n).st = (s.fport n).st := by
    unfold s1
    rw [State.modFport_fport s _ _ h, if_pos rfl]
  exact hsame

theorem State.fpEvent_reports (s : State) (n : Nat) : Reports s (s.fpEvent n) := (Reports.refl s).deviceEvent _ _ _

/-- R699: a port is in the state that it enters. -/
theorem State.setPortState_st {s : State} {n : Nat} (h : n < s.links.ports.length) (st : PortState) :
    ((s.setPortState n st).fport n).st = st := by
  unfold State.setPortState
  extract_lets was s1 s2 s3 s4
  have h1 : (s1.fport n).st = st := by
    unfold s1
    rw [State.modFport_fport s _ _ h, if_pos rfl]
  have hports : s2.links.ports = s1.links.ports := by
    unfold s2
    split
    · rfl
    · exact State.foldl_advanceEpoch_ports _ _
  have h2 : (s2.fport n).st = st := State.fport_of_ports hports n ▸ h1
  have hcount : n < s2.links.ports.length := by
    rw [hports]
    unfold s1
    rwa [State.modFport_portCount]
  have h3 : (s3.fport n).st = st := by
    unfold s3
    split
    · exact (State.requeue_st hcount).trans h2
    · exact h2
  have h4 : s4.links = s3.links := by
    unfold s4
    split
    · exact (s3.fpEvent_reports n).reads (·.links)
    · rfl
  rw [State.fport_of_ports (congrArg (·.ports) (s4.refreshStat_links.trans h4)), h3]

/-- R669, R696: a link that enters RETRAIN carries no traffic. -/
theorem State.enterRetrain_not_active {s : State} {link : Nat} (h : link - 1 < s.links.ports.length) :
    (s.enterRetrain link).linkActive link = false := by
  unfold State.enterRetrain State.linkActive
  by_cases h0 : link = 0
  · simp only [if_pos h0]
    by_cases hup : s.links.host.st = .active ∨ s.links.host.st = .resync
    · have hretrain := State.enterRetrain_host_st hup
      rw [State.enterRetrain, if_pos rfl] at hretrain
      rw [hretrain]
      rfl
    · rw [if_neg hup]
      simpa using fun hst => hup (.inl hst)
  · simp only [if_neg h0]
    by_cases hup : (s.fport (link - 1)).st.isUp = true
    · rw [if_pos hup]
      unfold State.beginTrain
      rw [State.setPortState_st (by simpa [State.bump] using h)]
      rfl
    · rw [if_neg hup]
      simpa using fun hst : (s.fport (link - 1)).st = .active => hup (by rw [hst]; rfl)

/-! ### A flit on its way -/

/-- R700: a port that is up and resynchronises stays up. -/
theorem State.setPortState_resync_links {s : State} {n : Nat} (hup : (s.fport n).st.isUp = true) :
    (s.setPortState n .resync).links = (s.modFport n (fun p => { p with st := .resync, since := s.now })).links := by
  unfold State.setPortState
  extract_lets was s1 s2 s3 s4
  have hwas : was.isUp = true := hup
  have h2 : s2 = s1 := if_pos hwas
  have h3 : s3 = s2 := if_neg (by simp [PortState.isUp])
  have h4 : s4 = s3 := if_neg (by decide)
  rw [State.refreshStat_links, h4, h3, h2]

/-- R711: the Lykel layer of a port whose set changes keeps what it has sent and received. -/
theorem State.widthSwitched_lk {s : State} {n : Nat} (h : n < s.links.ports.length) (hup : (s.fport n).st.isUp = true) :
    ((s.widthSwitched n).fport n).lk = { (s.fport n).lk with offered := [] } := by
  unfold State.widthSwitched
  generalize hcleared : s.modFport n _ = s1
  have hfport : s1.fport n = { s.fport n with locks := 0, gotInit := false, lk := { (s.fport n).lk with offered := [] } } := by
    rw [← hcleared, State.modFport_fport s n _ h, if_pos rfl]
  have hcount : n < s1.links.ports.length := by rwa [← hcleared, State.modFport_portCount]
  have hup1 : (s1.fport n).st.isUp = true := by rw [hfport]; exact hup
  have hlinks := (((s1.setPortState n .resync).fpEvent_reports n).reads (·.links)).trans (State.setPortState_resync_links hup1)
  rw [State.fport_of_ports (congrArg (·.ports) hlinks), State.modFport_fport s1 n _ hcount, if_pos rfl, hfport]

/-- R681: the flit is on the wire of its port. -/
theorem State.portFlit_lk {s : State} {n : Nat} (h : n < s.links.ports.length) (flit : List Byte) :
    ∃ o, ((s.portFlit n flit).fport n).lk = { (s.fport n).lk with wire := [(n, flit)], offered := o } := by
  unfold State.portFlit
  extract_lets s1
  have hlk : (s1.fport n).lk = { (s.fport n).lk with wire := [(n, flit)] } := by
    unfold s1
    rw [State.modFport_fport s n _ h, if_pos rfl, FabricPort.sendFlit_lk]
  split
  · next hswitch =>
    have hcount : n < s1.links.ports.length := by
      unfold s1
      rwa [State.modFport_portCount]
    rw [Bool.and_eq_true] at hswitch
    exact ⟨[], by rw [State.widthSwitched_lk hcount hswitch.1, hlk]⟩
  · exact ⟨_, hlk⟩

/-- R708: where no new set waits for a marker, a flit changes its port alone. -/
theorem State.portFlit_of_no_set {s : State} {n : Nat} (h : n < s.links.ports.length) (hnone : (s.fport n).setNext = none) (flit : List Byte) :
    s.portFlit n flit = s.modFport n (fun p => ({ p with lk := { p.lk with wire := [(n, flit)] } }).sendFlit flit) := by
  unfold State.portFlit
  extract_lets s1
  have hset : (s1.fport n).txSet = (s.fport n).txSet := by
    unfold s1
    rw [State.modFport_fport s n _ h, if_pos rfl, FabricPort.sendFlit_txSet]
    exact hnone
  rw [if_neg (by simp [hset])]

theorem KeepsRequests.portFlit {p : Prop} {r s : State} (h : KeepsRequests p r s) (n : Nat) (flit : List Byte) :
    KeepsRequests p r (s.portFlit n flit) := by
  have hsent := h.modFport n (fun p => ({ p with lk := { p.lk with wire := [(n, flit)] } }).sendFlit flit)
  exact ite (((hsent.modFport _ _).setPortState _ _).reports (State.fpEvent_reports _ _)) hsent

/-- A flit has left on a link: memory and time stay, the flit is on the wire, and where no new set waits for a marker nothing but the links
and the energy changes. -/
structure FlitSent (s : State) (link : Nat) (lk : Lykel) (flit : List Byte) (t : State) : Prop where
  hbm : t.hbm = s.hbm
  now : t.now = s.now
  lykel : ∃ m o, t.lykel link = { lk with lastSent := s.now, wire := [(m, flit)], offered := o }
  work : (link ≠ 0 → (s.fport (link - 1)).setNext = none) → LinkWork s t

/-- R588, R662, R681: a flit is placed on its link. -/
theorem State.placeFlit_sent {s : State} {link : Nat} (h : link - 1 < s.links.ports.length) (fseq : Option Nat) (flit : List Byte) :
    FlitSent s link (s.lykel link) flit (s.placeFlit link fseq flit) := by
  unfold State.placeFlit
  extract_lets s1
  have hcount : link - 1 < s1.links.ports.length := by
    unfold s1
    rwa [State.modLykel_portCount, State.chargeFlit_links]
  have hlykel : s1.lykel link = { s.lykel link with lastSent := s.now } := by
    unfold s1
    rw [State.modLykel_lykel (by rwa [State.chargeFlit_links]), State.lykel_of_links (s.chargeFlit_links link)]
  have hkept : KeepsRequests False s s1 := ((KeepsRequests.refl False s).chargeFlit link).modLykel link _
  have hwork : LinkWork s s1 := ((LinkWork.refl s).chargeFlit link).modLykel link _
  split
  · next h0 =>
    have hhost : s1.links.host.lk = { s.lykel link with lastSent := s.now } := by rw [← hlykel, State.lykel, if_pos h0]
    exact ⟨hkept.hbm, hkept.now, ⟨s1.links.host.moduleFor fseq, (s.lykel link).offered, by rw [State.lykel, if_pos h0, State.modHost, hhost]⟩,
      fun _ => hwork.modHost _⟩
  · next h0 =>
    have hport : (s1.fport (link - 1)).lk = { s.lykel link with lastSent := s.now } := by rw [← hlykel, State.lykel, if_neg h0]
    have hsent := hkept.portFlit (link - 1) flit
    refine ⟨hsent.hbm, hsent.now, ?_, fun hnone => ?_⟩
    · obtain ⟨o, ho⟩ := State.portFlit_lk hcount flit
      exact ⟨link - 1, o, by rw [State.lykel, if_neg h0, ho, hport]⟩
    · have hset : (s1.fport (link - 1)).setNext = none := by
        rw [← hnone h0]
        unfold s1 State.modLykel
        rw [if_neg h0, State.modFport_fport _ _ _ (by rwa [State.chargeFlit_links]), if_pos rfl,
          State.fport_of_ports (congrArg (·.ports) (s.chargeFlit_links link))]
      rw [State.portFlit_of_no_set hcount hset]
      exact hwork.modFport _ _

/-! ### The flit that is due -/

/-- The virtual network whose counts the next flit of a link reports (R702). -/
def State.cvnOf (s : State) (link : Nat) : Nat := if link = 0 then 0 else (s.fport (link - 1)).cvn

theorem State.modLykel_fport {s : State} {link : Nat} (h : link - 1 < s.links.ports.length) (f : Lykel → Lykel) :
    ∃ lk, (s.modLykel link f).fport (link - 1) = { s.fport (link - 1) with lk := lk } := by
  unfold State.modLykel
  split
  · exact ⟨_, rfl⟩
  · exact ⟨_, by rw [State.modFport_fport s _ _ h, if_pos rfl]⟩

namespace FlitSent

variable {r s t : State} {link : Nat} {lk : Lykel} {flit : List Byte}

/-- Work on the links before the flit. -/
theorem after (h : FlitSent s link lk flit t) (hwork : LinkWork r s)
    (hset : (s.fport (link - 1)).setNext = (r.fport (link - 1)).setNext) : FlitSent r link lk flit t :=
  ⟨h.hbm.trans hwork.hbm, h.now.trans hwork.now, hwork.now ▸ h.lykel, fun hnone => hwork.trans (h.work (fun h0 => hset.trans (hnone h0)))⟩

/-- A change of the port beside its Lykel layer. -/
theorem modFport (h : FlitSent s link lk flit t) (h0 : link ≠ 0) (hcount : link - 1 < t.links.ports.length) {f : FabricPort → FabricPort}
    (hf : ∀ p, (f p).lk = p.lk) : FlitSent s link lk flit (t.modFport (link - 1) f) := by
  have hsame : (t.modFport (link - 1) f).lykel link = t.lykel link := by
    rw [State.lykel, State.lykel, if_neg h0, if_neg h0, State.modFport_fport t _ _ hcount, if_pos rfl, hf]
  exact ⟨h.hbm, h.now, hsame ▸ h.lykel, fun hnone => (h.work hnone).modFport _ _⟩

theorem wire (h : FlitSent s link lk flit t) :
    (t.lykel link).wire.map (·.2) = [flit] ∧ (t.lykel link).lastSent = s.now ∧ (t.lykel link).nextSeq = lk.nextSeq ∧
      (t.lykel link).unacked = lk.unacked := by
  obtain ⟨m, o, hlykel⟩ := h.lykel
  rw [hlykel]
  exact ⟨rfl, rfl, rfl, rfl⟩

end FlitSent

/-- R588, R601: with no WIDTH to send, the flit that is due leaves. -/
theorem State.sendNext_sent {s : State} {link : Nat} (hlink : link < 17) (hports : s.links.ports.length = 16)
    (hwidth : link ≠ 0 → (s.fport (link - 1)).widthOut = none) :
    FlitSent s link ((s.lykel link).nextFlit s.now (s.cvnOf link) none).1 ((s.lykel link).nextFlit s.now (s.cvnOf link) none).2.2
      (s.sendNext link) := by
  unfold State.sendNext
  extract_lets p width cvn r used s1
  have hnone : width = none := by
    unfold width
    split
    · rfl
    · next h0 => rw [hwidth h0, Option.map_none]
  have hr : (s.lykel link).nextFlit s.now (s.cvnOf link) none = r := by
    unfold r
    rw [hnone]
    rfl
  rw [hr]
  unfold s1
  generalize hbegun : (s.modLykel link (fun _ => r.1)).noteSent link ((s.lykel link).leaving r.1) = s0
  have hcount : link - 1 < s.links.ports.length := by omega
  have hlykel : s0.lykel link = r.1 := hbegun ▸ State.modLykel_lykel hcount _
  have hwork : LinkWork s s0 := hbegun ▸ ((LinkWork.refl s).modLykel link _).noteSent _ _
  have hset : (s0.fport (link - 1)).setNext = (s.fport (link - 1)).setNext := by
    obtain ⟨lk, hlk⟩ := State.modLykel_fport hcount (fun _ => r.1)
    have hsame := congrArg FabricPort.setNext hlk
    rw [← hbegun]
    exact hsame
  have hports0 : s0.links.ports.length = 16 := hbegun ▸ (s.modLykel_portCount link (fun _ => r.1)).trans hports
  have hports1 : (s0.placeFlit link r.2.1 r.2.2).links.ports.length = 16 :=
    (State.placeFlit_stays link r.2.1 r.2.2 (Stays.refl false s0)).fports hports0
  have hplaced : FlitSent s0 link r.1 r.2.2 (s0.placeFlit link r.2.1 r.2.2) := hlykel ▸ State.placeFlit_sent (by omega) r.2.1 r.2.2
  split
  · exact hplaced.after hwork hset
  · next h0 => exact (hplaced.after hwork hset).modFport h0 (by omega) (fun _ => rfl)

/-! ### The obligation -/

theorem State.bumpReplay_frame (s : State) (link : Nat) : ∃ c, s.bumpReplay link = { s with health := c } := by
  unfold State.bumpReplay
  split
  · exact ⟨_, rfl⟩
  · exact ⟨_, rfl⟩

/-- R597: a RETRY_REQ that is due goes before any other flit. -/
theorem Lykel.nextFlit_of_retryDue {lk : Lykel} (h : lk.retryDue = true) (now cvn : Nat) (width : Option (List Byte × Nat)) :
    (lk.nextFlit now cvn width).2.2 = flitBytes lk cvn 1 0 3 (natLe 2 lk.expSeq) := by
  simp only [Lykel.nextFlit, h, if_true]

/-- R605: a replay from the oldest flit resends every unacknowledged flit. -/
theorem Lykel.replay_of_head {lk : Lykel} {f : SentFlit} {rest : List SentFlit} (h : lk.unacked = f :: rest) :
    ∃ lk', lk.replay f.fseq = some lk' ∧ lk'.resend = lk.unacked.map (·.fseq) ∧ lk'.unacked = lk.unacked := by
  have hhead : lk.unacked.any (fun g => g.fseq == f.fseq) = true := by simp [h]
  refine ⟨_, if_pos hhead, ?_, rfl⟩
  simp [h]

theorem exec_flitTransmit {s : State} {link : Nat} (hlink : link < 17) (hactive : s.linkActive link = true) :
    exec (.flitTransmit link) s = .next (s.sendNext link) := by
  refine (exec_of_link hlink _).trans ?_
  rw [if_pos hactive]

theorem exec_idleFlitSend {s : State} {link : Nat} (hlink : link < 17) :
    exec (.idleFlitSend link) s =
      .next (if s.linkActive link then (s.advanceTo ((s.lykel link).lastSent + 20)).sendNext link else s) := exec_of_link hlink _

theorem exec_retryReqRepeat {s : State} {link : Nat} (hlink : link < 17) :
    exec (.retryReqRepeat link) s = .next (if !s.linkActive link || !(s.lykel link).dropping then s else
      ((s.advanceTo (s.lykel link).retryAt).modLykel link (fun lk =>
        { lk with retryDue := true, retryAt := (s.advanceTo (s.lykel link).retryAt).now + 2000 })).sendNext link) := exec_of_link hlink _

theorem exec_replayTimeout {s : State} {link : Nat} (hlink : link < 17) {f : SentFlit} {rest : List SentFlit}
    (hactive : s.linkActive link = true) (hunacked : (s.lykel link).unacked = f :: rest) :
    exec (.replayTimeout link) s = .next (((s.advanceTo (max f.sentAt (s.lykel link).ackAt + 4000)).bumpReplay link).modLykel link
      (fun lk => (lk.replay f.fseq).getD lk)) := by
  refine (exec_of_link hlink _).trans ?_
  rw [hactive, hunacked]

theorem exec_replayLimit {s : State} {link : Nat} (hlink : link < 17) :
    exec (.replayLimit link) s = .next (if decide (8 ≤ (s.lykel link).replays) && s.linkActive link then
      ((if link = 0 then s.bump 4 34 2 1 else s).modLykel link (fun lk => { lk with replays := 0 })).enterRetrain link else s) :=
  exec_of_link hlink _

theorem exec_creditStallTimeout {s : State} {link : Nat} (hlink : link < 17) (hactive : s.linkActive link = true) {p : OutPacket}
    {rest : List OutPacket} (hstall : (List.range 8).filterMap (fun ch => match (s.lykel link).txq.getD ch [] with
        | p :: _ => if ((s.lykel link).credits.getD ch {}).avail < p.bytes.length / 16 then some p else none
        | [] => none) = p :: rest) :
    exec (.creditStallTimeout link) s =
      .next ((((s.advanceTo (p.since + 50000000)).violatePkt link Code.pvCreditStall p.bytes).modLykel link (fun lk =>
        { lk with txq := lk.txq.map (fun q => q.map (fun (o : OutPacket) =>
          { o with since := ((s.advanceTo (p.since + 50000000)).violatePkt link Code.pvCreditStall p.bytes).now })) })).enterRetrain link) := by
  refine (exec_of_link hlink _).trans ?_
  dsimp only
  generalize hq : List.filterMap _ (List.range 8) = q
  have hcons : q = p :: rest := hq.symm.trans hstall
  subst hcons
  exact congrArg _ (if_pos hactive)

/-- Settles O51: the five timers act on an ACTIVE link through the flit that is due, a replay or a retraining. -/
theorem linksSendTheFlitThatIsDue : Obligations.LinksSendTheFlitThatIsDue := by
  unfold Obligations.LinksSendTheFlitThatIsDue
  intro s link hlink hports
  have hcount : link - 1 < s.links.ports.length := by omega
  refine ⟨fun hactive hwidth ⟨_, hset⟩ => ⟨?transmit, ?idle, ?retry, ?replay, ?limit, ?few, ?stall⟩, ?inactive⟩
  case transmit =>
    rintro r rfl
    have hsent := State.sendNext_sent hlink hports hwidth
    exact ⟨_, exec_flitTransmit hlink hactive, (hsent.work hset).eq, hsent.wire⟩
  case idle =>
    have hsent := State.sendNext_sent (s := s.advanceTo ((s.lykel link).lastSent + 20)) hlink hports hwidth
    refine ⟨_, (exec_idleFlitSend hlink).trans (congrArg _ (if_pos hactive)), ?_, hsent.now, ?_⟩
    · exact (hsent.work hset).eq_of_advance
    · rw [hsent.wire.2.1, hsent.now]
  case retry =>
    intro hdropping
    refine ⟨_, (exec_retryReqRepeat hlink).trans (congrArg _ (if_neg (by simp [hactive, hdropping]))), ?_⟩
    generalize hasked : (s.advanceTo (s.lykel link).retryAt).modLykel link _ = s1
    have hwork : LinkWork (s.advanceTo (s.lykel link).retryAt) s1 := hasked ▸ (LinkWork.refl _).modLykel link _
    obtain ⟨lk, hport⟩ := State.modLykel_fport (s := s.advanceTo (s.lykel link).retryAt) hcount (fun lk =>
      { lk with retryDue := true, retryAt := (s.advanceTo (s.lykel link).retryAt).now + 2000 })
    rw [hasked] at hport
    have hlykel := State.modLykel_lykel (s := s.advanceTo (s.lykel link).retryAt) hcount (fun lk =>
      { lk with retryDue := true, retryAt := (s.advanceTo (s.lykel link).retryAt).now + 2000 })
    rw [hasked] at hlykel
    have hports1 : s1.links.ports.length = 16 := hasked ▸ (State.modLykel_portCount _ _ _).trans hports
    have hsent := State.sendNext_sent hlink hports1 (fun h0 => by rw [hport]; exact hwidth h0)
    have hset1 : link ≠ 0 → (s1.fport (link - 1)).setNext = none := fun h0 => by rw [hport]; exact hset h0
    refine ⟨(hwork.trans (hsent.work hset1)).eq_of_advance, hsent.now.trans hwork.now, ?_⟩
    rw [hsent.wire.1, Lykel.nextFlit_of_retryDue (by rw [hlykel]), hlykel, State.cvnOf, hport]
    rfl
  case replay =>
    intro f rest hunacked
    refine ⟨_, exec_replayTimeout hlink hactive hunacked, ?_⟩
    obtain ⟨c, hc⟩ := State.bumpReplay_frame (s.advanceTo (max f.sentAt (s.lykel link).ackAt + 4000)) link
    obtain ⟨lk, hreplay, hresend, hkept⟩ := Lykel.replay_of_head hunacked
    generalize (s.advanceTo _).bumpReplay link = s1 at hc
    have hlykel : s1.lykel link = s.lykel link := State.lykel_of_links (by rw [hc]; rfl) link
    have hreplayed : (s1.modLykel link (fun lk => (lk.replay f.fseq).getD lk)).lykel link = lk := by
      rw [State.modLykel_lykel (by rw [hc]; exact hcount), hlykel, hreplay]
      rfl
    rw [hreplayed]
    refine ⟨?_, ?_, hresend, hkept⟩
    · rw [State.modLykel_eq, hc]
      rfl
    · rw [State.modLykel_now, hc]
      rfl
  case limit =>
    intro hlimit
    have hcounted : KeepsRequests False s (if link = 0 then s.bump 4 34 2 1 else s) :=
      ((KeepsRequests.refl False s).bump _ _ _ _).ite (KeepsRequests.refl False s)
    have hretrained := (hcounted.modLykel link (fun lk => { lk with replays := 0 })).enterRetrain (link := link) (fun _ => id)
    refine ⟨_, (exec_replayLimit hlink).trans (congrArg _ (if_pos (by simp [hlimit, hactive]))), State.enterRetrain_not_active ?_,
      hretrained.hbm, hretrained.now⟩
    rw [State.modLykel_portCount]
    split
    · exact hcount
    · exact hcount
  case few =>
    intro hfew
    rw [exec_replayLimit hlink, if_neg (by simp [hfew])]
  case stall =>
    intro p rest hstall
    refine ⟨_, exec_creditStallTimeout hlink hactive hstall, State.enterRetrain_not_active ?_, ?_⟩
    · have hports1 := (State.violatePkt_stays link Code.pvCreditStall p.bytes (Stays.refl false (s.advanceTo (p.since + 50000000)))).fports hports
      rw [State.modLykel_portCount]
      omega
    · have hviolated : KeepsRequests False (s.advanceTo (p.since + 50000000))
          ((s.advanceTo (p.since + 50000000)).violatePkt link Code.pvCreditStall p.bytes) :=
        (KeepsRequests.refl False _).violate (fun _ => id) _ _ _
      have hretrained := (hviolated.modLykel link (fun lk => { lk with txq := lk.txq.map (fun q => q.map (fun (o : OutPacket) =>
        { o with since := ((s.advanceTo (p.since + 50000000)).violatePkt link Code.pvCreditStall p.bytes).now })) })).enterRetrain
          (link := link) (fun _ => id)
      exact ⟨hretrained.hbm, hretrained.now⟩
  case inactive =>
    intro hidle
    refine ⟨?idle, ?retry, ?replay, ?limit, ?stall⟩
    case idle => rw [exec_idleFlitSend hlink, if_neg (by simp [hidle])]
    case retry => rw [exec_retryReqRepeat hlink, if_pos (by simp [hidle])]
    case replay =>
      refine (exec_of_link hlink _).trans ?_
      rw [hidle]
    case limit => rw [exec_replayLimit hlink, if_neg (by simp [hidle])]
    case stall =>
      refine (exec_of_link hlink _).trans ?_
      dsimp only
      generalize List.filterMap _ (List.range 8) = q
      cases q with
      | nil => rfl
      | cons p rest => exact congrArg _ (if_neg (by simp [hidle]))

end Sys2Proof.Machine
end
section
/-! SUPPORT. Proofs about the flits that arrive on a link, and the obligation on them (R595, R596, R597, R598, R600, R658, R661, R664, R671). -/
namespace Sys2Proof.Machine

/-! ### Bytes and masks -/

theorem bytesAt_full {bs : List Byte} {n : Nat} (h : bs.length = n) : bytesAt bs 0 n = bs := by simp [bytesAt, ← h]

theorem bytesAt_of_zero {bs : List Byte} {off len : Nat} (h : ∀ i, i < len → byteAt bs (off + i) = 0) :
    bytesAt bs off len = List.replicate len 0 := by
  have hpart : ∀ b ∈ (bs.drop off).take len, b = 0 := by
    intro b hb
    obtain ⟨i, hi, rfl⟩ := List.mem_iff_getElem.mp hb
    simp only [List.length_take, List.length_drop] at hi
    have hbyte := h i (by omega)
    rw [byteAt, List.getD_eq_getElem bs 0 (by omega)] at hbyte
    simpa using BitVec.eq_of_toNat_eq hbyte
  refine List.eq_replicate_iff.mpr ⟨?_, fun b hb => ?_⟩
  · simp only [bytesAt, List.length_append, List.length_replicate, List.length_take]
    omega
  · obtain hb | hb := List.mem_append.mp hb
    · exact hpart b hb
    · exact List.eq_of_mem_replicate hb

theorem any_bytesAt_of_zero {bs : List Byte} {off len : Nat} (h : ∀ i, i < len → byteAt bs (off + i) = 0) :
    (bytesAt bs off len).any (· != 0) = false := by
  rw [bytesAt_of_zero h]
  exact List.any_eq_false.mpr (fun b hb => by simp [List.eq_of_mem_replicate hb])

/-- A mask with a bit among its low eight names a member. -/
theorem maskBits_ne_nil {x : Nat} (h : x % 256 ≠ 0) : maskBits 8 x ≠ [] := by
  intro hnil
  refine h (Nat.zero_of_testBit_eq_false (n := x % 2 ^ 8) fun i => ?_)
  rw [Nat.testBit_mod_two_pow, Nat.testBit_eq_decide_div_mod_eq]
  by_cases hi : i < 8
  · have hbit := List.filter_eq_nil_iff.mp hnil i (List.mem_range.mpr hi)
    simpa [bitAt] using fun _ => hbit
  · simp [hi]

/-! ### Null slots -/

/-- R593: a null slot starts no packet, so it never lacks room. -/
theorem Lykel.overrun_of_null {link : Nat} {lk : Lykel} (hskip : lk.rxSkip = 0) (hneed : lk.rxNeed = 0) :
    ∀ slots : List (List Byte), (∀ x ∈ slots, x = List.replicate 16 0) → lk.overrun link slots = none
  | [], _ => rfl
  | x :: slots, hnull => by
    have hx := hnull x List.mem_cons_self
    have htype : pktType x = 0 := by rw [hx]; rfl
    have hrest := overrun_of_null (link := link) hskip hneed slots (fun y hy => hnull y (List.mem_cons_of_mem x hy))
    simp [Lykel.overrun, hskip, hneed, htype, hrest]

theorem State.rxSlot_of_null {s : State} {link : Nat} (hskip : (s.lykel link).rxSkip = 0) (hneed : (s.lykel link).rxNeed = 0) :
    s.rxSlot link (List.replicate 16 0) = s := by
  have htype : pktType (List.replicate 16 0) = 0 := rfl
  have hzero : (List.replicate 16 (0 : Byte)).all (· == 0) = true := rfl
  simp only [State.rxSlot, hskip, hneed, htype, hzero, Nat.lt_irrefl, if_false, if_true]

theorem State.foldl_rxSlot_of_null {s : State} {link : Nat} (hskip : (s.lykel link).rxSkip = 0) (hneed : (s.lykel link).rxNeed = 0) :
    ∀ slots : List (List Byte), (∀ x ∈ slots, x = List.replicate 16 0) → slots.foldl (fun s x => s.rxSlot link x) s = s
  | [], _ => rfl
  | x :: slots, hnull => by
    rw [List.foldl_cons, hnull x List.mem_cons_self, State.rxSlot_of_null hskip hneed]
    exact foldl_rxSlot_of_null hskip hneed slots (fun y hy => hnull y (List.mem_cons_of_mem x hy))

theorem seqDist_self (e : Nat) : seqDist e e = 0 := by
  unfold seqDist
  omega

/-- R596: an expected flit of null slots advances the number expected, and nothing else arrives. -/
theorem State.receiveData_of_null {s : State} {link : Nat} {flit : List Byte} (hcount : link - 1 < s.links.ports.length)
    (hseq : natAt flit 0 2 / 16 = (s.lykel link).expSeq) (hneed : (s.lykel link).rxNeed = 0)
    (hskip : (s.lykel link).rxSkip = 0) (hzero : ∀ i, i < 240 → byteAt flit (12 + i) = 0) :
    s.receiveData link flit = s.modLykel link (fun lk =>
      { lk with expSeq := (lk.expSeq + 1) % 4096, ackv := true, dropping := false, retryDue := false }) := by
  have hnull : ∀ x ∈ (List.range 15).map (fun i => bytesAt flit (12 + 16 * i) 16), x = List.replicate 16 0 := by
    intro x hx
    obtain ⟨i, hi, rfl⟩ := List.mem_map.mp hx
    have hi := List.mem_range.mp hi
    exact bytesAt_of_zero (fun j hj => by rw [Nat.add_assoc]; exact hzero _ (by omega))
  have hroom := Lykel.overrun_of_null (link := link) hskip hneed _ hnull
  have hlykel := State.modLykel_lykel hcount (fun lk =>
    { lk with expSeq := (lk.expSeq + 1) % 4096, ackv := true, dropping := false, retryDue := false })
  unfold State.receiveData
  simp only [hseq, seqDist_self, if_true, hroom]
  exact State.foldl_rxSlot_of_null (by rw [hlykel]; exact hskip) (by rw [hlykel]; exact hneed) _ hnull

/-! ### A good flit -/

theorem State.chargeFlit_linkActive (s : State) (link : Nat) : (s.chargeFlit link).linkActive link = s.linkActive link := by
  rw [State.linkActive, State.linkActive, State.fport, State.fport, State.chargeFlit_links]

theorem State.chargeFlit_inHandshake (s : State) (link : Nat) : (s.chargeFlit link).inHandshake link = s.inHandshake link := by
  rw [State.inHandshake, State.inHandshake, State.fport, State.fport, State.chargeFlit_links]

/-- R597: a flit of an ACTIVE link with a bad CRC is dropped, and a RETRY_REQ falls due. -/
theorem State.receiveFlit_of_badCrc {s : State} {link : Nat} {flit : List Byte} (hactive : s.linkActive link = true)
    (hlength : flit.length = 256) (hcrc : natAt flit 252 4 ≠ Crypto.crc32 (flit.take 252)) :
    s.receiveFlit link flit = ((s.chargeFlit link).bumpCrc link).modLykel link (fun lk => lk.askRetry s.now) := by
  have hnow : (s.chargeFlit link).now = s.now := s.chargeFixed_now _
  simp [State.receiveFlit, hactive, State.chargeFlit_linkActive, bytesAt_full hlength, hlength, hcrc, hnow]

/-- A flit that its CRC and its reserved bits let through (R595, R671). -/
structure GoodFlit (link : Nat) (flit : List Byte) : Prop where
  length : flit.length = 256
  crc : natAt flit 252 4 = Crypto.crc32 (flit.take 252)
  reserved : flitReserved link flit = false

/-- R600: a good DATA flit of an ACTIVE link, after its header. -/
theorem State.receiveFlit_of_data {s u : State} {link : Nat} {flit : List Byte} (hgood : GoodFlit link flit) (hactive : s.linkActive link = true)
    (hu : (s.chargeFlit link).takeHeader link flit = .inr u) (htype : byteAt flit 0 % 4 = 0) :
    s.receiveFlit link flit = u.receiveData link flit := by
  simp [State.receiveFlit, hactive, State.chargeFlit_linkActive, bytesAt_full hgood.length, hgood.length, hgood.crc, hgood.reserved, htype, hu]

/-- R598: a good RETRY_REQ of an ACTIVE link, after its header. -/
theorem State.receiveFlit_of_retryReq {s u : State} {link : Nat} {flit : List Byte} (hgood : GoodFlit link flit) (hactive : s.linkActive link = true)
    (hu : (s.chargeFlit link).takeHeader link flit = .inr u) (htype : byteAt flit 0 % 4 = 1) (hctl : byteAt flit 10 % 16 = 3) :
    s.receiveFlit link flit = u.receiveRetry link flit := by
  have hknown : ¬ (if link = 0 then 4 else 6) ≤ 3 := by split <;> omega
  simp [State.receiveFlit, hactive, State.chargeFlit_linkActive, bytesAt_full hgood.length, hgood.length, hgood.crc, hgood.reserved, htype, hctl, hu,
    hknown]

/-- R658: a host link that exchanges INIT is not ACTIVE. -/
theorem State.not_linkActive_of_inHandshake {s : State} (h : s.inHandshake 0 = true) : s.linkActive 0 = false := by
  refine Bool.eq_false_iff.mpr fun hactive => ?_
  have hst : s.links.host.st = .active := by simpa [State.linkActive] using hactive
  simp [State.inHandshake, hst] at h

/-- R661: a good INIT of a host link in its handshake. -/
theorem State.receiveFlit_of_init {s : State} {flit : List Byte} (hgood : GoodFlit 0 flit) (hshake : s.inHandshake 0 = true)
    (htype : byteAt flit 0 % 4 = 1) (hctl : byteAt flit 10 % 16 = 1) : s.receiveFlit 0 flit = (s.chargeFlit 0).receiveInit 0 flit := by
  simp [State.receiveFlit, hshake, State.not_linkActive_of_inHandshake hshake, State.chargeFlit_linkActive, bytesAt_full hgood.length, hgood.length,
    hgood.crc, hgood.reserved, htype, hctl]

/-- R661: a good INIT_DONE of a host link in its handshake, after an INIT, makes the link ACTIVE. -/
theorem State.receiveFlit_of_initDone {s u : State} {flit : List Byte} (hgood : GoodFlit 0 flit) (hshake : s.inHandshake 0 = true)
    (htype : byteAt flit 0 % 4 = 1) (hctl : byteAt flit 10 % 16 = 2) (hgot : s.links.host.gotInit = true)
    (hactive : ((s.chargeFlit 0).becomeActive 0).linkActive 0 = true) (hu : ((s.chargeFlit 0).becomeActive 0).takeHeader 0 flit = .inr u) :
    s.receiveFlit 0 flit = u := by
  have hinit : (s.chargeFlit 0).gotInit 0 = true := by simpa [State.gotInit] using hgot
  simp [State.receiveFlit, hshake, State.not_linkActive_of_inHandshake hshake, State.chargeFlit_linkActive, bytesAt_full hgood.length, hgood.length,
    hgood.crc, hgood.reserved, htype, hctl, hinit, hactive, hu]

/-! ### The header, the INIT and the handshake -/

/-- R600, R609: a header with a lawful acknowledgement and credits changes the Lykel layer alone. -/
theorem State.takeHeader_eq_modLykel {s u : State} {link : Nat} {flit : List Byte} (h : s.takeHeader link flit = .inr u) :
    ∃ lk, u = s.modLykel link (fun _ => lk) := by
  unfold State.takeHeader at h
  dsimp only at h
  split at h
  · cases h
  · split at h
    · cases h
    · next lk _ => exact ⟨lk, (Sum.inr.inj h).symm⟩

/-- R658, R661: the handshake of the host link is over. -/
theorem State.becomeActive_host (s : State) :
    (s.becomeActive 0).hbm = s.hbm ∧ (s.becomeActive 0).quarters = s.quarters ∧ (s.becomeActive 0).links.host.st = .active ∧
      (s.becomeActive 0).links.host.wasActive = true := by
  unfold State.becomeActive
  rw [if_pos rfl]
  generalize hs1 : s.modHost _ = s1
  have hkept : KeepsHost s1 s1.hostLinkSettled := .of_keepsRequests (KeepsRequests.refl True s1).hostLinkSettled
  subst hs1
  exact ⟨hkept.hbm, hkept.quarters, hkept.st, hkept.wasActive⟩

/-- Table 12.11: a lawful INIT for the host link: its version and role, a module that both sides name, and zero in every reserved field. -/
structure LawfulInit (s : State) (flit : List Byte) : Prop where
  version : byteAt flit 12 = 1
  role : byteAt flit 13 = 1
  modules : Nat.land s.links.host.active (byteAt flit 14) % 256 ≠ 0
  dev : byteAt flit 15 < 128
  nexp : natAt flit 24 2 < 4096
  flags : byteAt flit 28 < 8
  rest : ∀ i, 29 ≤ i → i < 252 → byteAt flit i = 0

/-- R661, R668: a lawful INIT is taken, with the modules that both sides name. -/
theorem State.receiveInit_host {s : State} {flit : List Byte} (h : LawfulInit s flit) (hshake : s.inHandshake 0 = true)
    (hgot : s.links.host.gotInit = false) :
    ∃ u, KeepsHost s u ∧ KeepsHost (u.modHost (fun x => { x with
        gotInit := true, mset := bitsMask 8 (maskBits 8 (Nat.land s.links.host.active (byteAt flit 14))) })) (s.receiveInit 0 flit) := by
  obtain ⟨hversion, hrole, hmodules, hdev, hnexp, hflags, hrest⟩ := h
  have hflag := bytesAt_of_zero (bs := flit) (off := 29) (len := 1) (fun i hi => hrest _ (by omega) (by omega))
  have hfabric := any_bytesAt_of_zero (bs := flit) (off := 30) (len := 8) (fun i hi => hrest _ (by omega) (by omega))
  have htail := any_bytesAt_of_zero (bs := flit) (off := 38) (len := 214) (fun i hi => hrest _ (by omega) (by omega))
  have hidle := State.not_linkActive_of_inHandshake hshake
  unfold State.receiveInit
  extract_lets rsync s0 role mine meet rsvd s1 cfg peer got fresh resync s1a s2 set changed s3
  have hs0 : s0 = s := if_neg (by simp [hidle])
  rw [if_neg (by simp [hs0, hshake])]
  have hmine : mine = s.links.host.active := by rw [← hs0]; exact if_pos rfl
  have hmeet : meet = maskBits 8 (Nat.land s.links.host.active (byteAt flit 14)) := by rw [← hmine]
  have hsome : meet.isEmpty = false := by rw [hmeet]; simpa using maskBits_ne_nil hmodules
  have hzero : ¬ rsvd := by
    simp only [rsvd, hrole, hflag, hfabric, htail, Nat.div_eq_of_lt hdev, Nat.div_eq_of_lt hnexp, Nat.div_eq_of_lt hflags]
    decide
  have hs1 : s1 = s := (if_neg hzero).trans hs0
  rw [if_neg (by simp [hversion, role, hrole, hsome])]
  rw [if_neg (by simp)]
  have hgot1 : got = false := by simpa [got, hs1] using hgot
  rw [if_neg (by simp [hgot1])]
  rw [if_pos rfl]
  have hkept : KeepsRequests True s s2 := by
    have hbefore : KeepsRequests True s s1 := by
      rw [hs1]
      exact .refl True s
    have htaken : KeepsRequests True s s1a := hbefore.modLykel 0 _
    exact htaken.ite (KeepsRequests.ite (htaken.bump _ _ _ _) (htaken.bump _ _ _ _))
  refine ⟨s2, .of_keepsRequests hkept, ?_⟩
  have hset : s3 = s2.modHost (fun x => { x with
      gotInit := true, mset := bitsMask 8 (maskBits 8 (Nat.land s.links.host.active (byteAt flit 14))) }) := by rw [← hmeet]
  rw [← hset]
  split
  · exact .reports s3.hlinkEvent_reports
  · exact .of_keepsRequests (KeepsRequests.refl True s3)

/-! ### The obligation -/

theorem exec_flitReceive {link : Nat} (hlink : link < 17) (flit : List Byte) (s : State) :
    exec (.flitReceive link flit) s = .next (s.receiveFlit link flit) := exec_of_link hlink _

theorem exec_retryReqReceive {link : Nat} (hlink : link < 17) (flit : List Byte) (s : State) :
    exec (.retryReqReceive link flit) s = .next (s.receiveCtl link 3 flit) := exec_of_link hlink _

theorem exec_initReceive {link : Nat} (hlink : link < 17) (flit : List Byte) (s : State) :
    exec (.initReceive link flit) s = .next (s.receiveCtl link 1 flit) := exec_of_link hlink _

theorem exec_initDoneReceive {link : Nat} (hlink : link < 17) (flit : List Byte) (s : State) :
    exec (.initDoneReceive link flit) s = .next (s.receiveCtl link 2 flit) := exec_of_link hlink _

theorem State.receiveCtl_of_type {ctype : Nat} {flit : List Byte} (htype : byteAt flit 0 % 4 = 1) (hctl : byteAt flit 10 % 16 = ctype) (s : State)
    (link : Nat) : s.receiveCtl link ctype flit = s.receiveFlit link flit := if_pos ⟨htype, hctl⟩

theorem State.receiveCtl_of_data {flit : List Byte} (htype : byteAt flit 0 % 4 = 0) (s : State) (link ctype : Nat) :
    s.receiveCtl link ctype flit = s := if_neg (fun h => by omega)

theorem State.bumpCrc_frame (s : State) (link : Nat) : ∃ c, s.bumpCrc link = { s with health := c } := by
  unfold State.bumpCrc
  split
  · exact ⟨_, rfl⟩
  · exact ⟨_, rfl⟩

/-- R597: the first bad flit makes a RETRY_REQ due; the number expected stays. -/
theorem Lykel.askRetry_spec (lk : Lykel) (now : Nat) :
    (lk.askRetry now).dropping = true ∧ (lk.askRetry now).expSeq = lk.expSeq ∧ (lk.dropping = false → (lk.askRetry now).retryDue = true) := by
  unfold Lykel.askRetry
  split
  · next hdropping => exact ⟨hdropping, rfl, fun h => absurd (h.symm.trans hdropping) (by decide)⟩
  · exact ⟨rfl, rfl, fun _ => rfl⟩

/-- A count between two pieces of work on the links. -/
theorem LinkWork.counted {r s t : State} {c : Health} (h : LinkWork r s) (k : LinkWork { s with health := c } t) :
    t = { r with links := t.links, power := t.power, health := t.health } := by
  obtain ⟨_, _, rfl⟩ := h
  obtain ⟨_, _, rfl⟩ := k
  rfl

/-- Settles O52: each kind of flit by its CRC, its type and the state of its link. -/
theorem linksTakeTheFlitsThatArrive : Obligations.LinksTakeTheFlitsThatArrive := by
  unfold Obligations.LinksTakeTheFlitsThatArrive
  intro s link flit hlink hports
  have hcount : link - 1 < s.links.ports.length := by omega
  have hcharged : LinkWork s (s.chargeFlit link) := (LinkWork.refl s).chargeFlit link
  have hheader : ∀ u, (s.chargeFlit link).takeHeader link flit = .inr u → LinkWork s u ∧ link - 1 < u.links.ports.length := by
    intro u hu
    obtain ⟨lk, rfl⟩ := State.takeHeader_eq_modLykel hu
    exact ⟨hcharged.modLykel link _, by simpa using hcount⟩
  refine ⟨fun hactive => ⟨?bad, fun u hlength hcrc hreserved hu => ⟨?data, ?retry⟩⟩,
    fun h0 hshake hlength hcrc hreserved htype => ⟨?init, ?done⟩, ?closed, ?other⟩
  case bad =>
    intro hlength hcrc
    refine ⟨_, exec_flitReceive hlink flit s, ?_⟩
    obtain ⟨c, hc⟩ := (s.chargeFlit link).bumpCrc_frame link
    have hlykel : ((s.chargeFlit link).bumpCrc link).lykel link = s.lykel link :=
      State.lykel_of_links (by rw [hc]; exact s.chargeFlit_links link) link
    rw [State.receiveFlit_of_badCrc hactive hlength hcrc, State.modLykel_lykel (by rw [hc]; simpa using hcount), hlykel]
    refine ⟨?_, (s.lykel link).askRetry_spec s.now⟩
    rw [hc]
    exact hcharged.counted ((LinkWork.refl _).modLykel link _)
  case data =>
    intro htype hseq _ hneed hskip hzero
    obtain ⟨hwork, hcount1⟩ := hheader u hu
    refine ⟨_, exec_flitReceive hlink flit s, ?_⟩
    rw [State.receiveFlit_of_data ⟨hlength, hcrc, hreserved⟩ hactive hu htype, State.receiveData_of_null hcount1 hseq hneed hskip hzero]
    refine ⟨(hwork.modLykel link _).eq, ?_⟩
    rw [State.modLykel_lykel hcount1]
    exact ⟨rfl, rfl, rfl, rfl⟩
  case retry =>
    intro htype hctl lk hreplay
    obtain ⟨hwork, hcount1⟩ := hheader u hu
    obtain ⟨c, hc⟩ := u.bumpReplay_frame link
    refine ⟨_, exec_retryReqReceive hlink flit s, ?_⟩
    rw [State.receiveCtl_of_type htype hctl, State.receiveFlit_of_retryReq ⟨hlength, hcrc, hreserved⟩ hactive hu htype hctl]
    have hresent : u.receiveRetry link flit = (u.bumpReplay link).modLykel link (fun _ => lk) := by
      rw [State.receiveRetry, hreplay]
    rw [hresent, hc]
    exact ⟨hwork.counted ((LinkWork.refl _).modLykel link _),
      congrArg Lykel.resend (State.modLykel_lykel (s := { u with health := c }) hcount1 _)⟩
  case init =>
    intro hctl hgot hversion hrole hmodules hdev hnexp hflags hrest
    subst h0
    refine ⟨_, exec_initReceive hlink flit s, ?_⟩
    rw [State.receiveCtl_of_type htype hctl, State.receiveFlit_of_init ⟨hlength, hcrc, hreserved⟩ hshake htype hctl]
    have hlinks := s.chargeFlit_links 0
    obtain ⟨u, hbefore, hafter⟩ := State.receiveInit_host (s := s.chargeFlit 0)
      ⟨hversion, hrole, by rw [hlinks]; exact hmodules, hdev, hnexp, hflags, hrest⟩ ((s.chargeFlit_inHandshake 0).trans hshake)
      (by rw [hlinks]; exact hgot)
    rw [hlinks] at hafter
    exact ⟨hafter.hbm.trans (hbefore.hbm.trans hcharged.hbm),
      hafter.quarters.trans (hbefore.quarters.trans (s.chargeFixed_quarters _)), hafter.gotInit,
      hafter.st.trans (hbefore.st.trans (by rw [hlinks])), hafter.mset⟩
  case done =>
    intro u hctl hgot hu
    subst h0
    obtain ⟨hbm, hquarters, hst, hwas⟩ := (s.chargeFlit 0).becomeActive_host
    obtain ⟨lk, hlk⟩ := State.takeHeader_eq_modLykel hu
    refine ⟨_, exec_initDoneReceive hlink flit s, ?_⟩
    rw [State.receiveCtl_of_type htype hctl, State.receiveFlit_of_initDone ⟨hlength, hcrc, hreserved⟩ hshake htype hctl hgot
      (by rw [State.linkActive, if_pos rfl, hst]; rfl) hu, hlk]
    exact ⟨hbm.trans hcharged.hbm, hquarters.trans (s.chargeFixed_quarters _), hst, hwas⟩
  case closed =>
    intro hidle hshut
    rw [exec_flitReceive hlink]
    simp [State.receiveFlit, hidle, hshut]
  case other =>
    intro htype
    rw [exec_retryReqReceive hlink, exec_initReceive hlink, exec_initDoneReceive hlink]
    simp [State.receiveCtl_of_data htype]

end Sys2Proof.Machine
end
section
/-! SUPPORT. Proofs about the phases of bring-up: what a phase that begins and a fatal code change, and the obligations on the queue, the
release of reset, the straps and level pins, the PLLs and flash, and the images (R739 to R771, R816 to R831). -/
namespace Sys2Proof.Machine

/-- Settles O1: the queue is read at its front alone. -/
theorem stepRunsFrontCommand : Obligations.StepRunsFrontCommand := by
  unfold Obligations.StepRunsFrontCommand
  exact ⟨fun c rest s h => by rw [step, h], fun s h => by rw [step, h]⟩

/-! ### Phases, STAT and fatal codes -/

/-- R987: a value for STAT changes what STAT shows alone. -/
theorem State.showStat_frame (s : State) (v : Nat) : ∃ stat since next,
    s.showStat v = { s with boot := { s.boot with stat := stat, statSince := since, statNext := next } } := by
  unfold State.showStat
  split
  · exact ⟨_, _, _, rfl⟩
  · split
    · exact ⟨_, _, _, rfl⟩
    · exact ⟨_, _, _, rfl⟩

/-- R822: a phase begins now, and STAT may show it. -/
theorem State.enterPhase_frame (s : State) (p : Nat) : ∃ times stat since next, s.enterPhase p = { s with boot := { s.boot with
    times := times, phase := p, phaseAt := s.now, stat := stat, statSince := since, statNext := next } } := by
  obtain ⟨stat, since, next, hshown⟩ := State.showStat_frame { s with boot := { s.boot with
    times := s.boot.times ++ [(s.boot.phase, s.now - s.boot.phaseAt)], phase := p, phaseAt := s.now } } p
  unfold State.enterPhase
  dsimp only
  split
  · exact ⟨_, stat, since, next, hshown⟩
  · exact ⟨_, _, _, _, rfl⟩

/-- R861: a fatal code stops the links and the routines, and stays in the bring-up status instrument. -/
theorem State.goFatal_frame (s : State) (code : Nat) : ∃ power stat since next, s.goFatal code = { s.linksDown.stopRoutines with
    power := power
    boot := { s.boot with phase := 0xF, fatal := some code, stat := stat, statSince := since, statNext := next } } := by
  have hsent : ∀ u : State, ∃ power, (if u.power.strobes = 0 then u else u.sendVid 0x78) = { u with power := power } := fun u => by
    split
    · exact ⟨_, rfl⟩
    · exact ⟨_, rfl⟩
  obtain ⟨power, hsent⟩ := hsent { s.linksDown.stopRoutines with boot := { s.boot with phase := 0xF, fatal := some code } }
  obtain ⟨stat, since, next, hshown⟩ := State.showStat_frame { s.linksDown.stopRoutines with
    power := power, boot := { s.boot with phase := 0xF, fatal := some code } } 0xF
  exact ⟨power, stat, since, next, (congrArg (State.showStat · 0xF) hsent).trans hshown⟩

/-- R832: after the images, BIST where it runs, else the bring-up apply. -/
theorem State.afterImages_frame (s : State) : ∃ times stat since next, s.afterImages = { s with boot := { s.boot with
    times := times, phase := if s.boot.powerOn ∨ s.straps.boot = 1 then 7 else 0x10, phaseAt := s.now
    stat := stat, statSince := since, statNext := next } } := by
  have hphase : (if s.bistRuns = true then 7 else 0x10) = if s.boot.powerOn ∨ s.straps.boot = 1 then 7 else 0x10 := by
    simp [State.bistRuns]
  unfold State.afterImages
  rw [hphase]
  exact s.enterPhase_frame _

/-! ### The release of reset -/

/-- Settles O8: the two commands change the pins and what a release restarts. -/
theorem releaseOfResetStartsTheTimebase : Obligations.ReleaseOfResetStartsTheTimebase := by
  unfold Obligations.ReleaseOfResetStartsTheTimebase
  have hrelease : ∀ sr s, exec (.resetRelease sr) s = execResetRelease sr s := fun _ _ => rfl
  have hrise : ∀ s, exec .pwrgoodRise s = execPwrgoodRise s := fun _ => rfl
  refine fun s => ⟨fun sr hreset hpower => ?_, fun sr hnot => ?_, fun hpower => ?_, fun hpower => ?_⟩
  · refine ⟨_, by rw [hrelease, execResetRelease, if_neg (by simp [hreset, hpower])], ?_⟩
    exact ⟨rfl, by simp [State.timebase], rfl, hpower, rfl, rfl, rfl⟩
  · rw [hrelease, execResetRelease, if_pos (by simpa using hnot)]
  · refine ⟨_, by rw [hrise, execPwrgoodRise, if_neg (by simp [hpower])], ?_⟩
    exact ⟨rfl, rfl, rfl, rfl⟩
  · rw [hrise, execPwrgoodRise, if_pos hpower]

/-! ### Straps and level pins -/

/-- R739, R742: the straps as latched at the third edge, at the end of STAT 0x0. -/
def State.strapped (s : State) (b : Nat) (r l p m g : Bool) : State :=
  ({ s with
    now := max s.now 30
    straps := { boot := b % 4, remapEn := r, sealLocal := l, pselLink := p, testmode := m }
    boot := { s.boot with latched := true, trngOk := g, holding := b % 4 == 3 } } : State).enterPhase 1

theorem exec_strapLatch {s : State} (hreset : s.boot.resetN = true) (hlatched : s.boot.latched = false) (hphase : s.boot.phase = 0)
    (b : Nat) (r l p m f g : Bool) : exec (.strapLatch b r l p m f g) s =
      .next (if f then s.strapped b r l p m g else (s.strapped b r l p m g).goFatal Code.fuseFail) := by
  have hexec : exec (.strapLatch b r l p m f g) s = execStrapLatch b r l p m f g s := rfl
  rw [hexec, execStrapLatch, hreset, hlatched, hphase]
  rfl

theorem exec_strapLatch_of_latched {s : State} (hlatched : s.boot.latched = true) (b : Nat) (r l p m f g : Bool) :
    exec (.strapLatch b r l p m f g) s = .next s := by
  have hexec : exec (.strapLatch b r l p m f g) s = execStrapLatch b r l p m f g s := rfl
  rw [hexec, execStrapLatch, hlatched, Bool.or_true, Bool.true_or, if_pos rfl]

/-- R749, R750: the level pins as measured. -/
def State.levelled (s : State) (xs : List (List Nat)) : State :=
  { s with
    now := max s.now (s.boot.phaseAt + 260000)
    levels := { mv := (List.range 4).map (fun i => samplesSum (xs.getD i []) / 16)
                level := (List.range 4).map (fun i => decideLevel (xs.getD i [])), measured := true } }

/-- R753, R755: a device has an IDH level below 8 and a device ID below the system size, or an invalid level. -/
theorem exec_levelPinMeasure {s : State} (hphase : s.boot.phase = 1) (hmeasured : s.levels.measured = false) (xs : List (List Nat)) :
    exec (.levelPinMeasure xs) s = .next (
      if 8 ≤ decideLevel (xs.getD 0 []) ∨ nMaxTable.getD (decideLevel (xs.getD 2 [])) 1 ≤
          16 * decideLevel (xs.getD 0 []) + decideLevel (xs.getD 1 [])
      then (s.levelled xs).goFatal Code.lvlInvalid else (s.levelled xs).enterPhase 2) := by
  have hexec : exec (.levelPinMeasure xs) s = execLevelPinMeasure xs s := rfl
  rw [hexec, execLevelPinMeasure, hphase, hmeasured]
  simp only [Bool.or_eq_true, decide_eq_true_eq]
  rfl

theorem exec_levelPinMeasure_of_measured {s : State} (hmeasured : s.levels.measured = true) (xs : List (List Nat)) :
    exec (.levelPinMeasure xs) s = .next s := by
  have hexec : exec (.levelPinMeasure xs) s = execLevelPinMeasure xs s := rfl
  rw [hexec, execLevelPinMeasure, hmeasured, Bool.or_true, if_pos rfl]

/-- Settles O9: either command sets its pins and ends its phase, in the next one or with a fatal code. -/
theorem strapsAreLatchedOnce : Obligations.StrapsAreLatchedOnce := by
  unfold Obligations.StrapsAreLatchedOnce
  refine fun s => ⟨fun b r l p m f g hreset hlatched hphase => ?_, fun b r l p m f g hlatched => exec_strapLatch_of_latched hlatched b r l p m f g,
    fun xs hphase hmeasured => ?_, fun xs hmeasured => exec_levelPinMeasure_of_measured hmeasured xs⟩
  · refine ⟨_, exec_strapLatch hreset hlatched hphase b r l p m f g, ?_⟩
    obtain ⟨_, _, _, _, hphase1⟩ : ∃ times stat since next, s.strapped b r l p m g = _ := State.enterPhase_frame _ 1
    cases f with
    | true =>
      rw [if_pos rfl, hphase1]
      exact ⟨rfl, rfl, rfl, rfl, fun _ => ⟨rfl, rfl, rfl⟩, nofun⟩
    | false =>
      obtain ⟨_, _, _, _, hfatal⟩ := (s.strapped b r l p m g).goFatal_frame Code.fuseFail
      rw [if_neg Bool.false_ne_true, hfatal, hphase1]
      exact ⟨rfl, rfl, rfl, rfl, nofun, fun _ => ⟨rfl, rfl⟩⟩
  · refine ⟨_, exec_levelPinMeasure hphase hmeasured xs, ?_⟩
    split
    · obtain ⟨_, _, _, _, hfatal⟩ := (s.levelled xs).goFatal_frame Code.lvlInvalid
      rw [hfatal]
      exact ⟨rfl, rfl, rfl⟩
    · obtain ⟨_, _, _, _, hphase2⟩ := (s.levelled xs).enterPhase_frame 2
      rw [hphase2]
      exact ⟨rfl, rfl, rfl⟩

/-! ### PLLs, flash and the hold -/

/-- R917, R922, R929: both PLLs locked, CCLK at 800 MHz and the boot code on VID, at the end of STAT 0x2. -/
def State.locked (s : State) : State :=
  (({ s with
    boot := { s.boot with ioLock := true, coreLock := true }
    power := { s.power with cclk := 800, vCode := 0x78 } } : State).enterPhase 3).sendVid 0x78

theorem exec_pllsLocked {s : State} (hphase : s.boot.phase = 2) :
    exec .pllsLocked s = .next (if s.straps.boot = 2 then s.locked.afterImages else s.locked) := by
  have hexec : exec .pllsLocked s = execPllsLocked s := rfl
  obtain ⟨_, _, _, _, hphase3⟩ := State.enterPhase_frame { s with
    boot := { s.boot with ioLock := true, coreLock := true }, power := { s.power with cclk := 800, vCode := 0x78 } } 3
  have hstraps : s.locked.straps = s.straps := by
    rw [State.locked, hphase3]
    rfl
  have hnext : execPllsLocked s = .next (if s.locked.straps.boot = 2 then s.locked.afterImages else s.locked) := by
    rw [execPllsLocked, hphase]
    rfl
  rw [hexec, hnext, hstraps]

/-- R826, R985: the flash as its signature reads, at the end of STAT 0x3. -/
def State.flashRead (s : State) (mode : Nat) (passes : List Bool) : State :=
  ({ s with boot := { s.boot with
    sfdp := some (if (capturePoint passes).isNone then 0 else min mode 2), capture := capturePoint passes, spiHigh := true } } : State).enterPhase 4

theorem exec_flashSfdpRead {s : State} (hphase : s.boot.phase = 3) (hhold : s.boot.holding = false) (hboot : s.straps.boot ≠ 2)
    (mode : Nat) (passes : List Bool) : exec (.flashSfdpRead ⟨mode, passes⟩) s = .next (s.flashRead mode passes) := by
  have hexec : exec (.flashSfdpRead ⟨mode, passes⟩) s = execFlashSfdpRead ⟨mode, passes⟩ s := rfl
  rw [hexec, execFlashSfdpRead, hphase, hhold, if_neg (by simpa using hboot)]
  rfl

theorem exec_microRamRemap {s : State} (hphase : s.boot.phase = 6) : exec .microRamRemap s =
    .next ({ s with boot := { s.boot with remapped := s.straps.remapEn && s.boot.copyUsed.isSome } } : State).afterImages := by
  have hexec : exec .microRamRemap s = execMicroRamRemap s := rfl
  rw [hexec, execMicroRamRemap, hphase]
  rfl

/-- Settles O10: each command sets what its phase finds and enters the next one. -/
theorem pllsFlashAndHold : Obligations.PllsFlashAndHold := by
  unfold Obligations.PllsFlashAndHold
  intro s
  refine ⟨?locked, ?flash, ?flashHeld, ?clear, ?cleared, ?remap, ?remapOther⟩
  case locked =>
    refine fun hphase => ⟨_, exec_pllsLocked hphase, ?_⟩
    obtain ⟨_, _, _, _, hphase3⟩ := State.enterPhase_frame { s with
      boot := { s.boot with ioLock := true, coreLock := true }, power := { s.power with cclk := 800, vCode := 0x78 } } 3
    by_cases hboot : s.straps.boot = 2
    · obtain ⟨_, _, _, _, hafter⟩ := s.locked.afterImages_frame
      rw [if_pos hboot, if_pos hboot, hafter, State.locked, hphase3]
      refine ⟨rfl, rfl, rfl, rfl, rfl, rfl, rfl, ?_⟩
      simp [hboot]
    · rw [if_neg hboot, if_neg hboot, State.locked, hphase3]
      exact ⟨rfl, rfl, rfl, rfl, rfl, rfl, rfl, rfl⟩
  case flash =>
    refine fun mode passes hphase hhold hboot => ⟨_, exec_flashSfdpRead hphase hhold hboot mode passes, ?_⟩
    obtain ⟨_, _, _, _, hphase4⟩ : ∃ times stat since next, s.flashRead mode passes = _ := State.enterPhase_frame _ 4
    rw [hphase4]
    exact ⟨rfl, rfl, rfl, rfl, rfl⟩
  case flashHeld =>
    intro found hhold
    have hexec : exec (.flashSfdpRead found) s = execFlashSfdpRead found s := rfl
    rw [hexec, execFlashSfdpRead, hhold, Bool.or_true, Bool.true_or, if_pos rfl]
  case clear =>
    intro hhold
    have hexec : exec .holdCleared s = execHoldCleared s := rfl
    exact ⟨_, by rw [hexec, execHoldCleared, if_pos hhold], rfl⟩
  case cleared =>
    intro hhold
    have hexec : exec .holdCleared s = execHoldCleared s := rfl
    rw [hexec, execHoldCleared, hhold, if_neg Bool.false_ne_true]
  case remap =>
    refine fun hphase => ⟨_, exec_microRamRemap hphase, ?_⟩
    obtain ⟨_, _, _, _, hafter⟩ :=
      ({ s with boot := { s.boot with remapped := s.straps.remapEn && s.boot.copyUsed.isSome } } : State).afterImages_frame
    rw [hafter]
    exact ⟨rfl, rfl, rfl⟩
  case remapOther =>
    intro hphase
    have hexec : exec .microRamRemap s = execMicroRamRemap s := rfl
    rw [hexec, execMicroRamRemap, if_pos (by simpa using hphase)]

/-! ### Image copies -/

/-- R827 to R829: a copy has been read: its failing order is recorded, and its micro-RAM section stands where a remap is asked for. -/
def State.copyRead (s : State) (ok : Bool) (copy : List Byte) : State :=
  { s with
    stores := if s.straps.remapEn then { s.stores with micro := bytesAt copy 0x10000 0x100000 } else s.stores
    boot := { s.boot with copies := s.boot.copies ++ [s.copyOrder ok copy], spiHigh := s.boot.sfdp.getD 0 == 0 } }

/-- R831: STAT 0x5 for a microsecond, and then 0x6. -/
def State.endImages (s : State) : State := ((s.enterPhase 5).advanceTo (s.now + 1000)).enterPhase 6

theorem State.endImages_frame (s : State) : ∃ now times at_ stat since next, s.endImages = { s with
    now := now, boot := { s.boot with times := times, phase := 6, phaseAt := at_, stat := stat, statSince := since, statNext := next } } := by
  obtain ⟨_, _, _, _, hphase5⟩ := s.enterPhase_frame 5
  obtain ⟨_, _, _, _, hphase6⟩ := ((s.enterPhase 5).advanceTo (s.now + 1000)).enterPhase_frame 6
  unfold State.endImages
  rw [hphase6, hphase5]
  exact ⟨_, _, _, _, _, _, rfl⟩

/-- R768: the profile store and the default profile number of copy number `n`, which passed. -/
def State.loadProfiles (s : State) (n : Nat) (copy : List Byte) : State :=
  { s with
    profStore := storedRecords copy
    boot := { s.boot with copyUsed := some n, pdef := byteAt copy 7 % 8 } }

theorem exec_imageCopyVerify {s : State} (hphase : s.boot.phase = 4) (hcopies : s.boot.copies.length < 2) (ok : Bool) (copy : List Byte) :
    exec (.imageCopyVerify ok copy) s = .next (
      if s.copyOrder ok copy = 0 then ((s.copyRead ok copy).loadProfiles s.boot.copies.length copy).endImages
      else if s.boot.copies.length = 1 then
        ({ s.copyRead ok copy with stores := { (s.copyRead ok copy).stores with micro := [] } } : State).endImages
      else s.copyRead ok copy) := by
  have hexec : exec (.imageCopyVerify ok copy) s = execImageCopyVerify ok copy s := rfl
  have hsecond : (s.copyRead ok copy).boot.copies.length = 2 ↔ s.boot.copies.length = 1 := by simp [State.copyRead]
  rw [hexec, execImageCopyVerify, hphase, decide_eq_false (Nat.not_le.mpr hcopies)]
  simp only [← hsecond]
  rfl

theorem exec_imageCopyVerify_of_other {s : State} (h : s.boot.phase ≠ 4 ∨ 2 ≤ s.boot.copies.length) (ok : Bool) (copy : List Byte) :
    exec (.imageCopyVerify ok copy) s = .next s := by
  have hexec : exec (.imageCopyVerify ok copy) s = execImageCopyVerify ok copy s := rfl
  rw [hexec, execImageCopyVerify, if_pos (by simpa using h)]

/-- Settles O11: the failing order of the copy, and the copies read before it, choose among three outcomes. -/
theorem imagesAreVerifiedOnce : Obligations.ImagesAreVerifiedOnce := by
  unfold Obligations.ImagesAreVerifiedOnce
  refine fun s ok copy => ⟨fun hphase hcopies => ⟨_, exec_imageCopyVerify hphase hcopies ok copy, ?_⟩,
    fun h => exec_imageCopyVerify_of_other h ok copy⟩
  by_cases hpass : s.copyOrder ok copy = 0
  · obtain ⟨_, _, _, _, _, _, hend⟩ := ((s.copyRead ok copy).loadProfiles s.boot.copies.length copy).endImages_frame
    rw [if_pos hpass, hend]
    exact ⟨rfl, rfl, fun _ => ⟨rfl, rfl, rfl, rfl⟩, fun hfail => absurd hpass hfail⟩
  · rw [if_neg hpass]
    by_cases hsecond : s.boot.copies.length = 1
    · obtain ⟨_, _, _, _, _, _, hend⟩ :=
        ({ s.copyRead ok copy with stores := { (s.copyRead ok copy).stores with micro := [] } } : State).endImages_frame
      rw [if_pos hsecond, hend]
      exact ⟨rfl, rfl, fun h => absurd h hpass, fun _ => ⟨rfl, rfl, fun hfirst => absurd (hfirst.symm.trans hsecond) (by decide),
        fun _ => ⟨rfl, rfl⟩⟩⟩
    · rw [if_neg hsecond]
      exact ⟨rfl, rfl, fun h => absurd h hpass, fun _ => ⟨rfl, rfl, fun _ => hphase, fun h => absurd h hsecond⟩⟩

end Sys2Proof.Machine
end
section
/-! SUPPORT. Proofs of the obligation on the assertions of reset (R401, R815 to R820, R862). -/
namespace Sys2Proof.Machine

/-- R817, R862: nothing runs after an assertion of reset. -/
theorem State.assertReset_quiet (s : State) (powerLost : Bool) : (s.assertReset powerLost).Quiet where
  entries := rfl
  internal := rfl
  jobs q := by
    have hjobs : (s.assertReset powerLost).quarters.map (·.jobs) = List.replicate s.quarters.length [] :=
      (List.map_map ..).trans (List.map_const' ..)
    rw [State.quarter_jobs, hjobs, getD_replicate_default]
  txns := rfl
  host := rfl
  fports n := congrArg FabricPort.st (getD_replicate_default ({} : FabricPort) 16 n)
  sealKey := rfl

/-- R818: with no write issued and not admitted, the settling of writes finds none. -/
theorem State.settleWrites_hbm {s : State} (hposted : ∀ x ∈ s.fabric.txns, x.isWrite = true → x.state ≠ .posted)
    (hbuffered : s.bufferedWrites = []) : s.settleWrites.hbm = s.hbm := by
  have hnone : s.fabric.txns.filter (fun t => t.isWrite && decide (t.target < 4) && t.state == .posted) = [] := by
    refine List.filter_eq_nil_iff.mpr (fun x hx hwaits => ?_)
    simp only [Bool.and_eq_true, beq_iff_eq] at hwaits
    obtain ⟨⟨hwrite, -⟩, hstate⟩ := hwaits
    exact hposted x hx hwrite hstate
  unfold State.settleWrites
  simp only [hnone, hbuffered]
  rfl

/-- Settles O7: either assertion answers the device after reset; a reset that settles no write keeps memory. -/
theorem resetAssertionStopsTheDevice : Obligations.ResetAssertionStopsTheDevice := by
  unfold Obligations.ResetAssertionStopsTheDevice
  have hfall : ∀ s, exec .pwrgoodFall s = execPwrgoodFall s := fun _ => rfl
  have hassert : ∀ s, exec .resetAssert s = execResetAssert s := fun _ => rfl
  refine fun s => ⟨fun hpower => ?_, fun hpower => ?_, fun hreset => ?_, fun hreset => ?_⟩
  · exact ⟨s.assertReset true, by rw [hfall, execPwrgoodFall, if_pos hpower], s.assertReset_quiet true, rfl, rfl, rfl, rfl, rfl, rfl, rfl⟩
  · rw [hfall, execPwrgoodFall, hpower, if_neg Bool.false_ne_true]
  · refine ⟨s.assertReset false, by rw [hassert, execResetAssert, if_pos hreset], s.assertReset_quiet false, rfl, rfl, rfl, rfl,
      fun hposted hbuffered => ?_⟩
    have hkept := State.settleWrites_hbm hposted hbuffered
    have hmem : s.settleWrites.hbm.mem = s.hbm.mem := congrArg Hbm.mem hkept
    have hbad : s.settleWrites.hbm.badWords = s.hbm.badWords := congrArg Hbm.badWords hkept
    exact ⟨hmem, hbad⟩
  · rw [hassert, execResetAssert, hreset, if_neg Bool.false_ne_true]

end Sys2Proof.Machine
end

section
/-! SUPPORT. Proofs of the obligation on BIST (R838 to R841, R879). -/
namespace Sys2Proof.Machine

/-- R841: a finding of BIST is acted on in the slices and the stores; the quarters are tested as a whole. -/
theorem State.foldl_applyFinding_frame : ∀ (fs : List Finding) (s : State), ∃ slices stores,
    fs.foldl State.applyFinding s = { s with slices := slices, stores := stores }
  | [], s => ⟨_, _, rfl⟩
  | f :: fs, s => by
    have hstep : ∃ slices stores, s.applyFinding f = { s with slices := slices, stores := stores } := by
      cases f <;> exact ⟨_, _, rfl⟩
    obtain ⟨_, _, hstep⟩ := hstep
    obtain ⟨slices, stores, hrest⟩ := foldl_applyFinding_frame fs (s.applyFinding f)
    exact ⟨slices, stores, by rw [List.foldl_cons, hrest, hstep]⟩

/-- R840, R841: the quarters after a full BIST: fresh ones, each tested with the columns of the fuses and the findings. -/
theorem State.runBist_frame (s : State) (fs : List Finding) : ∃ slices stores, s.runBist fs = { s with
    slices := slices, stores := stores
    quarters := (List.replicate s.quarters.length ({} : Quarter)).zipIdx.map (fun p => p.1.afterTest p.2 (s.fuseFindings ++ fs)) } := by
  obtain ⟨slices, stores, hfold⟩ := State.foldl_applyFinding_frame fs s.fuseState
  refine ⟨slices, stores, ?_⟩
  unfold State.runBist
  rw [hfold, ← List.map_const']
  rfl

/-- R838: the device after BIST has run and its findings stand. -/
def State.tested (s : State) (fs : List Finding) : State :=
  ({ (s.runBist fs).advanceTo (s.boot.phaseAt + 41943040) with boot := { (s.runBist fs).boot with findings := fs } } : State).enterPhase 0x10

theorem exec_bist {s : State} (hphase : s.boot.phase = 7) (fs : List Finding) : exec (.bist fs) s = .next (
    if (List.range 4).all (fun q => ((s.tested fs).quarter q).removed) then (s.tested fs).goFatal Code.bistFail else s.tested fs) := by
  have hexec : exec (.bist fs) s = execBist fs s := rfl
  rw [hexec, execBist, hphase]
  rfl

theorem State.tested_quarter {s : State} (hfour : s.quarters.length = 4) (fs : List Finding) {q : Nat} (hq : q < 4) :
    (s.tested fs).quarter q = ({} : Quarter).afterTest q (s.fuseFindings ++ fs) := by
  obtain ⟨_, _, hrun⟩ := s.runBist_frame fs
  obtain ⟨_, _, _, _, hphase⟩ : ∃ times stat since next, s.tested fs = _ := State.enterPhase_frame _ 0x10
  have hquarters : (s.tested fs).quarters =
      (List.replicate 4 ({} : Quarter)).zipIdx.map (fun p => p.1.afterTest p.2 (s.fuseFindings ++ fs)) := by
    rw [hphase, hrun, ← hfour]
    rfl
  have hlength : q < (List.replicate 4 ({} : Quarter)).length := hq
  rw [State.quarter, hquarters, getD_zipIdx_map _ _ hlength, getD_replicate_default]

/-- A quarter with no routine on its tracks and none that waits. -/
def Quarter.withoutRoutines (u : Quarter) : Quarter :=
  { u with
    jobs := [], moves := [], lanes := List.replicate 6 [], bindWaits := [], stepPermit := false, claim := false, claimAt := none, claimFor := [] }

theorem State.stopRoutines_quarter (s : State) (q : Nat) : s.stopRoutines.quarter q = (s.quarter q).withoutRoutines :=
  getD_map_of_default (f := Quarter.withoutRoutines) (d := {}) rfl s.quarters q

/-- Settles O12: the findings decide on each quarter, and the quarters on the next phase. -/
theorem bistSetsServiceOfQuarters : Obligations.BistSetsServiceOfQuarters := by
  unfold Obligations.BistSetsServiceOfQuarters
  refine fun s fs => ⟨fun hphase hfour => ⟨_, exec_bist hphase fs, ?_⟩, fun hphase => ?_⟩
  · have hquarter := fun q (hq : q < 4) => State.tested_quarter hfour fs hq
    obtain ⟨_, _, hrun⟩ := s.runBist_frame fs
    obtain ⟨_, _, _, _, htested⟩ : ∃ times stat since next, s.tested fs = _ := State.enterPhase_frame _ 0x10
    have hout : (List.range 4).all (fun q => ((s.tested fs).quarter q).removed) = true ↔
        ∀ q, q < 4 → quarterPasses q (s.fuseFindings ++ fs) = false := by
      simp only [List.all_eq_true, List.mem_range]
      refine forall₂_congr (fun q hq => ?_)
      rw [hquarter q hq]
      simp [Quarter.afterTest]
    by_cases hall : ∀ q, q < 4 → quarterPasses q (s.fuseFindings ++ fs) = false
    · rw [if_pos (hout.mpr hall)]
      obtain ⟨_, _, _, _, hfatal⟩ := (s.tested fs).goFatal_frame Code.bistFail
      rw [hfatal]
      refine ⟨by rw [htested], fun q hq => ?_, fun _ => ⟨rfl, rfl⟩, fun ⟨q, hq, hpass⟩ => ?_⟩
      · have hstopped : (s.tested fs).linksDown.stopRoutines.quarter q =
            (({} : Quarter).afterTest q (s.fuseFindings ++ fs)).withoutRoutines :=
          (State.stopRoutines_quarter _ q).trans (congrArg Quarter.withoutRoutines (hquarter q hq))
        exact ⟨congrArg Quarter.removed hstopped, congrArg (·.rotation.roles) hstopped⟩
      · exact absurd ((hall q hq).symm.trans hpass) Bool.false_ne_true
    · rw [if_neg (fun h => hall (hout.mp h))]
      refine ⟨by rw [htested], fun q hq => ?_, fun h => absurd h hall, fun _ => ?_⟩
      · rw [hquarter q hq]
        exact ⟨rfl, rfl⟩
      · rw [htested, hrun]
        exact ⟨rfl, rfl⟩
  · have hexec : exec (.bist fs) s = execBist fs s := rfl
    rw [hexec, execBist, if_pos (by simpa using hphase)]

end Sys2Proof.Machine
end

section
/-! SUPPORT. Proofs of the obligations on the bring-up apply, the HBM and readiness (R777, R798, R832 to R836, R843 to R848, R855 to R860). -/
namespace Sys2Proof.Machine

/-! ### The bring-up apply -/

/-- R785: what the comparison of two profiles reads of the device. -/
theorem State.needsRinse_congr {s t : State} (hquarters : t.quarters = s.quarters) (hprofile : t.profile = s.profile) (p : Profile) :
    t.needsRinse p = s.needsRinse p := by
  have hquarter : t.quarter = s.quarter := funext fun q => by rw [State.quarter, State.quarter, hquarters]
  rw [State.needsRinse, State.needsRinse, hquarter, hprofile]

/-- Table 14.14: what the checks of a staged profile read of the device. -/
theorem State.checkStaged_congr {s t : State} (hentries : t.entries = s.entries) (hquarters : t.quarters = s.quarters)
    (hslices : t.slices = s.slices) (hlevels : t.levels = s.levels) (hprofile : t.profile = s.profile) (hseal : t.sealKey = s.sealKey)
    (p : Profile) (b : Bool) : t.checkStaged p b = s.checkStaged p b := by
  have hquarter : t.quarter = s.quarter := funext fun q => by rw [State.quarter, State.quarter, hquarters]
  have hentry : t.entry = s.entry := funext fun c => by rw [State.entry, State.entry, hentries]
  have hlines : t.leastLines = s.leastLines := by rw [State.leastLines, State.leastLines, hslices]
  have hdev : t.devId = s.devId := by rw [State.devId, State.devId, hlevels]
  have hmax : t.nMax = s.nMax := by rw [State.nMax, State.nMax, hlevels]
  have hhandle : t.handle = s.handle := funext fun c => congrArg (· * 512 + c) hdev
  have hdemand : t.demand = s.demand := funext fun up => funext fun q => by rw [State.demand, State.demand, hentries]
  have hresidents : t.residents = s.residents := by rw [State.residents, State.residents, hentries]
  have hspills : t.rinseSpills p = s.rinseSpills p := by rw [State.rinseSpills, State.rinseSpills, hresidents, hentry, hprofile]
  rw [State.checkStaged, State.checkStaged, hquarter, hentry, hlines, hdev, hmax, hhandle, hdemand, hspills, hentries, hlevels, hseal,
    State.needsRinse_congr hquarters hprofile]
/-- R832: what the apply puts in force; bring-up goes on from where it stands. -/
theorem State.applyAtBringUp_outcome (s : State) (p : Profile) (num : Nat) (rom : Bool) :
    let t := s.applyAtBringUp p num rom
    t.profile = p ∧ t.profNum = num ∧ t.profRom = rom ∧ t.pepoch = 1 ∧ t.power.cclk = p.cclkMhz ∧
      t.boot = { s.boot with applied := true } := by
  unfold State.applyAtBringUp
  dsimp only
  split
  · exact ⟨rfl, rfl, rfl, rfl, rfl, rfl⟩
  · split
    · exact ⟨rfl, rfl, rfl, rfl, rfl, rfl⟩
    · exact ⟨rfl, rfl, rfl, rfl, rfl, rfl⟩

/-- R852: STAT 0x8 begins, with the local seal where it is asked for. -/
theorem State.enterHbm_frame (s : State) : ∃ key used free times stat since next, s.enterHbm = { s with
    sealKey := key, sealUsed := used, free := free
    boot := { s.boot with times := times, phase := 8, phaseAt := s.now, stat := stat, statSince := since, statNext := next } } := by
  obtain ⟨times, stat, since, next, hphase⟩ := s.enterPhase_frame 8
  unfold State.enterHbm
  rw [hphase]
  dsimp only
  split
  · exact ⟨_, _, _, times, stat, since, next, rfl⟩
  · exact ⟨_, _, _, times, stat, since, next, rfl⟩

theorem State.appliedEvent_reports (s : State) (rinse : Bool) (n : Nat) : Reports s (s.appliedEvent rinse n) :=
  (Reports.refl s).deviceEvent _ _ _

theorem State.rejectEvent_reports (s : State) (n : Nat) (r : Reject) : Reports s (s.rejectEvent n r) := (Reports.refl s).deviceEvent _ _ _

/-- R798, R832: a profile in force at bring-up, reported, with STAT 0x8 begun. -/
def State.broughtUp (s : State) (p : Profile) (num : Nat) (rom : Bool) : State :=
  ((s.applyAtBringUp p num rom).appliedEvent false 0).enterHbm

theorem State.broughtUp_outcome (s : State) (p : Profile) (num : Nat) (rom : Bool) :
    let t := s.broughtUp p num rom
    t.profile = p ∧ t.profNum = num ∧ t.profRom = rom ∧ t.pepoch = 1 ∧ t.power.cclk = p.cclkMhz ∧ t.boot.applied = true ∧
      t.boot.phase = 8 ∧ t.boot.refused = s.boot.refused := by
  obtain ⟨hprofile, hnum, hrom, hepoch, hclock, hboot⟩ := s.applyAtBringUp_outcome p num rom
  have hreports := (s.applyAtBringUp p num rom).appliedEvent_reports false 0
  have hbooted := (hreports.reads State.boot).trans hboot
  have happlied : ((s.applyAtBringUp p num rom).appliedEvent false 0).boot.applied = true := by rw [hbooted]
  have hrefused : ((s.applyAtBringUp p num rom).appliedEvent false 0).boot.refused = s.boot.refused := by rw [hbooted]
  obtain ⟨_, _, _, _, _, _, _, henter⟩ := ((s.applyAtBringUp p num rom).appliedEvent false 0).enterHbm_frame
  unfold State.broughtUp
  rw [henter]
  exact ⟨(hreports.reads State.profile).trans hprofile, (hreports.reads State.profNum).trans hnum, (hreports.reads State.profRom).trans hrom,
    (hreports.reads State.pepoch).trans hepoch, (hreports.reads (·.power.cclk)).trans hclock, happlied, rfl, hrefused⟩

/-- R835: the refusal of the selected profile, reported and kept. -/
def State.refusedProfile (s : State) (x : Reject) : State :=
  { s.rejectEvent s.bringUpNumber x with boot := { (s.rejectEvent s.bringUpNumber x).boot with refused := x.code } }

/-- R833: the check of the ROM profile reads nothing that the refusal changes. -/
theorem State.refusedProfile_checkStaged (s : State) (x : Reject) (p : Profile) (b : Bool) :
    (s.refusedProfile x).checkStaged p b = s.checkStaged p b := by
  have hreports := s.rejectEvent_reports s.bringUpNumber x
  obtain ⟨t, ht⟩ : ∃ t, t = s.refusedProfile x := ⟨_, rfl⟩
  have hentries : t.entries = s.entries := by rw [ht]; exact hreports.reads State.entries
  have hquarters : t.quarters = s.quarters := by rw [ht]; exact hreports.reads State.quarters
  have hslices : t.slices = s.slices := by rw [ht]; exact hreports.reads State.slices
  have hlevels : t.levels = s.levels := by rw [ht]; exact hreports.reads State.levels
  have hprofile : t.profile = s.profile := by rw [ht]; exact hreports.reads State.profile
  have hseal : t.sealKey = s.sealKey := by rw [ht]; exact hreports.reads State.sealKey
  rw [← ht]
  exact State.checkStaged_congr hentries hquarters hslices hlevels hprofile hseal p b

/-- R833, R835: why the selected profile is not applied: its record fails a check, or its voltage is not reached. -/
def State.bringUpRefusal (s : State) (reached : Bool) : Option Reject :=
  match s.checkRecord s.bringUpNumber true with
  | some x => some x
  | none => if reached then none else some { code := Code.vidSettle }

/-- R834: a number is selected under PSEL_LINK, or once the debounce is complete. -/
theorem not_debouncing {s : State} (hselected : s.straps.pselLink = true ∨ s.switch.pselTaken.isSome = true) :
    ¬(!s.straps.pselLink && s.switch.pselTaken.isNone) = true := by
  obtain hlink | htaken := hselected
  · simp [hlink]
  · simp [Option.isSome_iff_ne_none.mp htaken]

theorem exec_bringupApply_of_accepted {s : State} (hphase : s.boot.phase = 0x10)
    (hselected : s.straps.pselLink = true ∨ s.switch.pselTaken.isSome = true) {r : Bool} (haccepted : s.bringUpRefusal r = none) (rr : Bool) :
    exec (.bringupApply r rr) s =
      .next (s.broughtUp (parseProfile ((assocGet s.profStore s.bringUpNumber).getD [])) s.bringUpNumber false) := by
  have hexec : exec (.bringupApply r rr) s = execBringupApply r rr s := rfl
  rw [hexec, execBringupApply, hphase, if_neg (by decide), if_neg (not_debouncing hselected)]
  dsimp only
  split
  · rfl
  · next x hx => cases haccepted.symm.trans hx

theorem exec_bringupApply_of_refused {s : State} (hphase : s.boot.phase = 0x10)
    (hselected : s.straps.pselLink = true ∨ s.switch.pselTaken.isSome = true) {r : Bool} {x : Reject} (hrefused : s.bringUpRefusal r = some x)
    (rr : Bool) : exec (.bringupApply r rr) s = .next (
      if ((s.refusedProfile x).checkStaged {} true).isNone && rr then (s.refusedProfile x).broughtUp {} 0 true
      else (s.refusedProfile x).goFatal Code.profileNone) := by
  have hexec : exec (.bringupApply r rr) s = execBringupApply r rr s := rfl
  rw [hexec, execBringupApply, hphase, if_neg (by decide), if_neg (not_debouncing hselected)]
  dsimp only
  split
  · next hnone => cases hrefused.symm.trans hnone
  · next y hy =>
    cases hrefused.symm.trans hy
    rfl

/-- R835, R836: after a refusal the ROM profile, or no profile. -/
theorem bringupApply_refused {s : State} (hphase : s.boot.phase = 0x10)
    (hselected : s.straps.pselLink = true ∨ s.switch.pselTaken.isSome = true) {r : Bool} {x : Reject} (hrefused : s.bringUpRefusal r = some x)
    (rr : Bool) : Completes (.bringupApply r rr) s (fun t => t.boot.refused = x.code ∧
      (if s.checkStaged {} true = none ∧ rr = true
        then t.profile = {} ∧ t.profNum = 0 ∧ t.profRom = true ∧ t.pepoch = 1 ∧ t.boot.applied = true ∧ t.boot.phase = 8
        else t.boot.phase = 0xF ∧ t.boot.fatal = some Code.profileNone)) := by
  refine ⟨_, exec_bringupApply_of_refused hphase hselected hrefused rr, ?_⟩
  have hgate : ((s.checkStaged {} true).isNone && rr) = true ↔ s.checkStaged {} true = none ∧ rr = true := by
    rw [Bool.and_eq_true, Option.isNone_iff_eq_none]
  rw [State.refusedProfile_checkStaged]
  beta_reduce
  by_cases hrom : s.checkStaged {} true = none ∧ rr = true
  · obtain ⟨hprofile, hnum, hkind, hepoch, -, happlied, hphase8, hkept⟩ := (s.refusedProfile x).broughtUp_outcome {} 0 true
    rw [if_pos hrom, if_pos (hgate.mpr hrom)]
    exact ⟨hkept, hprofile, hnum, hkind, hepoch, happlied, hphase8⟩
  · obtain ⟨_, _, _, _, hfatal⟩ := (s.refusedProfile x).goFatal_frame Code.profileNone
    rw [if_neg hrom, if_neg (mt hgate.mp hrom), hfatal]
    exact ⟨rfl, rfl, rfl⟩

/-- Settles O13: the check and the voltage of the selected profile choose between its apply and that of the ROM profile. -/
theorem bringupApplyTakesOneProfile : Obligations.BringupApplyTakesOneProfile := by
  unfold Obligations.BringupApplyTakesOneProfile
  intro s r rr
  have hexec : exec (.bringupApply r rr) s = execBringupApply r rr s := rfl
  refine ⟨fun hphase hselected => ⟨fun hcheck hreached => ?_, fun code hrefused => ?_⟩, fun hphase hlink htaken => ?_, fun hphase => ?_⟩
  · obtain ⟨hprofile, hnum, hkind, hepoch, hclock, happlied, hphase8, -⟩ :=
      s.broughtUp_outcome (parseProfile ((assocGet s.profStore s.bringUpNumber).getD [])) s.bringUpNumber false
    have haccepted : s.bringUpRefusal r = none := by rw [State.bringUpRefusal, hcheck, hreached]; rfl
    refine ⟨_, exec_bringupApply_of_accepted hphase hselected haccepted rr, ?_⟩
    exact ⟨hprofile, hnum, hkind, hepoch, hclock.trans (congrArg Profile.cclkMhz hprofile).symm, happlied, hphase8⟩
  · obtain ⟨x, hsome, rfl⟩ | ⟨hnone, hr, rfl⟩ := hrefused
    · exact bringupApply_refused hphase hselected (by rw [State.bringUpRefusal, hsome]) rr
    · exact bringupApply_refused hphase hselected (x := { code := Code.vidSettle }) (by rw [State.bringUpRefusal, hnone, hr]; rfl) rr
  · rw [hexec, execBringupApply, hphase, if_neg (by decide), hlink, htaken]
    rfl
  · rw [hexec, execBringupApply, if_pos (by simpa using hphase)]

/-! ### HBM -/

/-- R848: STAT 0x9 begins, with the host link in TRAIN. -/
theorem State.enterHostLink_frame (s : State) : ∃ times stat since next, s.enterHostLink = { s with
    links := { s.links with host := { s.links.host with st := .train, since := s.now, attempts := 0 } }
    boot := { s.boot with times := times, phase := 9, phaseAt := s.now, stat := stat, statSince := since, statNext := next } } := by
  obtain ⟨times, stat, since, next, hphase⟩ := s.enterPhase_frame 9
  unfold State.enterHostLink
  rw [hphase]
  exact ⟨times, stat, since, next, rfl⟩

/-- R843, R846: a stack trained, with `repaired` lanes more that are repaired. -/
def Stack.train (k : Stack) (repaired : Nat) : Stack :=
  { k with trained := true, selfRefresh := false, lanesRepaired := k.lanesRepaired + repaired }

/-- R578, R843, R846: every stack trained, with the repairs counted. -/
def State.trainStacks (s : State) (rep : List Nat) : State :=
  ({ s with
    boot := { s.boot with trained := true }
    hbm := { s.hbm with retrainFrom := s.now, hbmStacks := s.hbm.hbmStacks.zipIdx.map (fun p => p.1.train (rep.getD p.2 0)) } } : State).bump
      3 58 1 (rep.foldl (· + ·) 0)

theorem State.trainStacks_stack {s : State} (rep : List Nat) {k : Nat} (hk : k < s.hbm.hbmStacks.length) :
    (s.trainStacks rep).hbm.hbmStacks.getD k {} = (s.hbm.hbmStacks.getD k {}).train (rep.getD k 0) :=
  getD_zipIdx_map _ _ hk

theorem exec_hbmTraining {s : State} (hphase : s.boot.phase = 8) (htrained : s.boot.trained = false) (at_ rep : List Nat) :
    exec (.hbmTraining at_ rep) s = .next (
      if (List.range 4).any (fun k => decide (3 < at_.getD k 1)) then s.goFatal Code.hbmTrainFail
      else if s.boot.needInit then s.trainStacks rep else (s.trainStacks rep).enterHostLink) := by
  have hexec : exec (.hbmTraining at_ rep) s = execHbmTraining at_ rep s := rfl
  rw [hexec, execHbmTraining, hphase, htrained]
  rfl

theorem exec_hbmInitialise {s : State} (hphase : s.boot.phase = 8) (htrained : s.boot.trained = true) (hneed : s.boot.needInit = true) :
    exec .hbmInitialise s = .next ({ s with
      hbm := { s.hbm with mem := [], badWords := [], ceWords := [] }
      boot := { s.boot with initialised := true, needInit := false } } : State).enterHostLink := by
  have hexec : exec .hbmInitialise s = execHbmInitialise s := rfl
  rw [hexec, execHbmInitialise, hphase, htrained, hneed]
  rfl

/-- Settles O14: training sets every stack or fails, and the initialisation clears memory. -/
theorem hbmComesUpInitialised : Obligations.HbmComesUpInitialised := by
  unfold Obligations.HbmComesUpInitialised
  refine fun s hphase => ⟨fun at_ rep htrained hfour => ⟨fun hfew => ?_, fun ⟨k, hk, hmany⟩ => ?_⟩, fun htrained hneed => ?_,
    fun hother => ?_⟩
  · refine ⟨_, exec_hbmTraining hphase htrained at_ rep, ?_⟩
    have hall : ¬(List.range 4).any (fun k => decide (3 < at_.getD k 1)) = true := by
      simp only [List.any_eq_true, List.mem_range, decide_eq_true_eq, not_exists, not_and]
      exact fun k hk => Nat.not_lt.mpr (hfew k hk)
    have hstack : ∀ k, k < 4 → ((s.trainStacks rep).hbm.hbmStacks.getD k {}).trained = true ∧
        ((s.trainStacks rep).hbm.hbmStacks.getD k {}).selfRefresh = false := fun k hk => by
      rw [State.trainStacks_stack rep (hfour.symm ▸ hk)]
      exact ⟨rfl, rfl⟩
    rw [if_neg hall]
    beta_reduce
    by_cases hneed : s.boot.needInit = true
    · rw [if_pos hneed, if_pos hneed]
      exact ⟨rfl, rfl, hstack, hphase⟩
    · obtain ⟨_, _, _, _, hlink⟩ := (s.trainStacks rep).enterHostLink_frame
      rw [if_neg hneed, if_neg hneed, hlink]
      exact ⟨rfl, rfl, hstack, rfl, rfl⟩
  · refine ⟨_, exec_hbmTraining hphase htrained at_ rep, ?_⟩
    obtain ⟨_, _, _, _, hfatal⟩ := s.goFatal_frame Code.hbmTrainFail
    rw [if_pos (List.any_eq_true.mpr ⟨k, List.mem_range.mpr hk, decide_eq_true hmany⟩), hfatal]
    exact ⟨rfl, rfl⟩
  · refine ⟨_, exec_hbmInitialise hphase htrained hneed, ?_⟩
    obtain ⟨_, _, _, _, hlink⟩ := ({ s with
      hbm := { s.hbm with mem := [], badWords := [], ceWords := [] }
      boot := { s.boot with initialised := true, needInit := false } } : State).enterHostLink_frame
    rw [hlink]
    exact ⟨fun _ => rfl, rfl, rfl, rfl, rfl, rfl, rfl⟩
  · have hexec : exec .hbmInitialise s = execHbmInitialise s := rfl
    rw [hexec, execHbmInitialise, if_pos (by simpa [or_assoc] using Or.inr hother)]

/-! ### Readiness -/

/-- R855: the enabled ports have all become ACTIVE or FAILED, or a second passes. -/
theorem exec_fabricTrainingEnd {s : State} (hphase : s.boot.phase = 0xA) : exec .fabricTrainingEnd s = .next (
    (if (s.links.ports.zipIdx).all (fun p => (s.profile.portCfg.getD p.2 {}).cls == 0 || p.1.st == .active || p.1.st == .failed)
      then s else s.advanceTo (s.boot.phaseAt + 1000000000)).enterPhase 0x11) := by
  have hexec : exec .fabricTrainingEnd s = execFabricTrainingEnd s := rfl
  rw [hexec, execFabricTrainingEnd, hphase]
  rfl

/-- R912: a record of the device, or the loss of one, leaves the instant of the next HEALTH event. -/
theorem State.devicePart_dueAt (s : State) (code : Nat) (handle : Option Nat) (parts : Nat) (x : Nat × List Byte) :
    (s.devicePart code handle parts x).health.dueAt = s.health.dueAt := by
  have hwritten : ∀ spa bytes after, (s.writeRecord masterEvw .device spa bytes after).health.dueAt = s.health.dueAt := fun _ _ _ => by
    unfold State.writeRecord
    split <;> rfl
  unfold State.devicePart
  dsimp only
  split
  · rfl
  · split
    · exact hwritten _ _ _
    · rfl

/-- R860: BRINGUP_REPORT, where it is due, marks that it has been written. -/
theorem State.writeReport_outcome (s : State) : ∃ reported,
    Reports { s with boot := { s.boot with reported := reported } } s.writeReport ∧ s.writeReport.health.dueAt = s.health.dueAt := by
  have hdue : ∀ (code : Nat) (handle : Option Nat) (parts : Nat) (l : List (List Byte × Nat)) (u : State),
      (l.foldl (fun s p => s.devicePart code handle parts (p.2, p.1)) u).health.dueAt = u.health.dueAt := fun code handle parts l => by
    induction l with
    | nil => exact fun _ => rfl
    | cons p l ih => exact fun u => (ih _).trans (u.devicePart_dueAt code handle parts _)
  unfold State.writeReport
  split
  · exact ⟨true, Reports.foldl (fun _ _ k => k.devicePart _ _ _ _) _ (Reports.refl _), hdue _ _ _ _ _⟩
  · exact ⟨s.boot.reported, Reports.refl s, rfl⟩

/-- R857, R912: the device is ready, and the first HEALTH period begins. -/
def State.madeReady (s : State) : State :=
  { s with
    boot := { s.boot with phase := 0xB, times := s.boot.times ++ [(0x11, s.now - s.boot.phaseAt)], phaseAt := s.now }
    health := { s.health with startAt := s.now, dueAt := some (s.now + 1000000 * s.profile.healthMs) } }

theorem exec_readiness {s : State} (hphase : s.boot.phase = 0x11) : exec .readiness s = .next s.madeReady.refreshStat.writeReport := by
  have hexec : exec .readiness s = execReadiness s := rfl
  rw [hexec, execReadiness, hphase]
  rfl

theorem State.refreshStat_frame (s : State) : ∃ stat since next,
    s.refreshStat = { s with boot := { s.boot with stat := stat, statSince := since, statNext := next } } := by
  unfold State.refreshStat
  split
  · exact s.showStat_frame _
  · exact ⟨_, _, _, rfl⟩

theorem exec_statHoldExpiry {s : State} {v : Nat} (hheld : s.boot.statNext = some v) : exec .statHoldExpiry s = .next { s with
    now := max s.now (s.boot.statSince + 1000)
    boot := { s.boot with stat := v, statSince := max s.now (s.boot.statSince + 1000), statNext := none } } := by
  have hexec : exec .statHoldExpiry s = execStatHoldExpiry s := rfl
  rw [hexec, execStatHoldExpiry, hheld]
  rfl

/-- Settles O15: each command moves its phase, and readiness starts the HEALTH periods. -/
theorem readinessFollowsFabricTraining : Obligations.ReadinessFollowsFabricTraining := by
  unfold Obligations.ReadinessFollowsFabricTraining
  refine fun s => ⟨fun hphase => ⟨_, exec_fabricTrainingEnd hphase, ?_⟩, fun hphase => ⟨_, exec_readiness hphase, ?_⟩,
    fun v hheld => ⟨_, exec_statHoldExpiry hheld, rfl, rfl, rfl, rfl, rfl⟩, fun hnone => ?_⟩
  · split
    · obtain ⟨_, _, _, _, hready⟩ := s.enterPhase_frame 0x11
      rw [hready]
      exact ⟨rfl, rfl, rfl⟩
    · obtain ⟨_, _, _, _, hready⟩ := (s.advanceTo (s.boot.phaseAt + 1000000000)).enterPhase_frame 0x11
      rw [hready]
      exact ⟨rfl, rfl, rfl⟩
  · obtain ⟨_, _, _, hshown⟩ := s.madeReady.refreshStat_frame
    obtain ⟨_, hreports, hdue⟩ := s.madeReady.refreshStat.writeReport_outcome
    rw [hshown] at hreports hdue ⊢
    exact ⟨hreports.reads State.ready, hreports.reads State.hbm, hreports.reads State.profile, hreports.reads State.quarters,
      hreports.reads State.entries, hdue⟩
  · have hexec : exec .statHoldExpiry s = execStatHoldExpiry s := rfl
    rw [hexec, execStatHoldExpiry, hnone]

end Sys2Proof.Machine
end
section
/-! SUPPORT. Proofs about power: the energy account and the static band, the IMON backstop and the thermal ceiling, the steps that the
account pays for, the VID codes, and what a switch that is abandoned leaves (R472, R779, R923 to R953). -/
namespace Sys2Proof.Machine

/-! ### The energy account and the static band -/

/-- R945, R949: the interval's income, costs and static power, over a window of 100 intervals. -/
def State.interval (s : State) : Power :=
  let e := s.power.eint + s.power.esteps + s.power.band * 10000 * energyUnit
  let w := (e :: s.power.window).take 100
  { s.power with
    account := min (s.power.account + Int.ofNat (s.income 1) - Int.ofNat s.power.eint - Int.ofNat (s.power.band * 10000 * energyUnit))
      (Int.ofNat (s.income 100))
    eint := 0, esteps := 0, energy := s.power.energy + e, intervals := s.power.intervals + 1, window := w
    peak := if w.length = 100 then max s.power.peak (w.foldl (· + ·) 0) else s.power.peak }

theorem exec_energyInterval {s : State} (happlied : s.boot.applied = true) (hrunning : s.running = true) : exec .energyInterval s =
    .next { s with now := max s.now (s.now + (1000 - (s.now + s.tbOffset) % 1000)), power := s.interval } := by
  have hexec : exec .energyInterval s = execEnergyInterval s := rfl
  rw [hexec, execEnergyInterval, happlied, hrunning]
  rfl

theorem exec_energyInterval_of_idle {s : State} (h : s.boot.applied = false ∨ s.running = false) : exec .energyInterval s = .next s := by
  have hexec : exec .energyInterval s = execEnergyInterval s := rfl
  rw [hexec, execEnergyInterval, if_pos (by simpa using h)]

theorem exec_staticBandEval {s : State} (hrunning : s.running = true) : exec .staticBandEval s = .next { s with
    now := max s.now (s.thermal.bandAt + 1000000)
    power := { s.power with band := staticBand s.thermal.junction }
    thermal := { s.thermal with bandAt := max s.now (s.thermal.bandAt + 1000000) } } := by
  have hexec : exec .staticBandEval s = execStaticBandEval s := rfl
  rw [hexec, execStaticBandEval, hrunning]
  rfl

theorem exec_staticBandEval_of_stopped {s : State} (hstopped : s.running = false) : exec .staticBandEval s = .next s := by
  have hexec : exec .staticBandEval s = execStaticBandEval s := rfl
  rw [hexec, execStaticBandEval, hstopped]
  rfl

/-- Settles O17: the next state is written out, and the instant is the next whole microsecond of the timebase. -/
theorem energyAccountTakesIncomeAndCost : Obligations.EnergyAccountTakesIncomeAndCost := by
  unfold Obligations.EnergyAccountTakesIncomeAndCost
  intro s
  refine ⟨fun happlied hrunning => ⟨_, exec_energyInterval happlied hrunning, rfl, ?_, ?_, ?_, rfl, rfl, rfl, rfl, rfl⟩,
    exec_energyInterval_of_idle, fun hrunning => ⟨_, exec_staticBandEval hrunning, rfl⟩, exec_staticBandEval_of_stopped⟩
  · dsimp only
    omega
  · dsimp only
    omega
  · dsimp only
    omega

/-! ### The IMON backstop and the thermal ceiling -/

theorem exec_imonSample_of_few {s : State} (hrunning : s.running = true) (x : Nat)
    (hfew : s.boot.applied = false ∨ s.power.samples.length < 7) : exec (.imonSample x) s =
      .next { s.advanceTo ((s.now / 500 + 1) * 500) with power := { s.power with samples := (x :: s.power.samples).take 8 } } := by
  have hexec : exec (.imonSample x) s = execImonSample x s := rfl
  have hskip : (!s.boot.applied || decide (((x :: s.power.samples).take 8).length < 8)) = true := by
    obtain h | h := hfew
    · simp [h]
    · simp only [List.length_take, List.length_cons, Bool.or_eq_true, decide_eq_true_eq]
      exact .inr (by omega)
  rw [hexec, execImonSample, hrunning]
  dsimp only
  rw [if_neg (by decide)]
  exact congrArg Host.Outcome.next (if_pos hskip)

/-- R938, R940: the samples of a mean to compare, with a trip that begins counted. -/
def State.metered (s : State) (w : List Nat) : State :=
  let p := { s.power with samples := w, maxMean := max s.power.maxMean (w.foldl (· + ·) 0) }
  if s.imonExceeds w then
    if p.tripHolds s.now then { s with power := { p with fallAt := none } }
    else
      let t : State := { s with power := { p with
        trip := true, fallAt := none, trips := p.trips + 1, firstTrip := some (p.firstTrip.getD (s.iTrip, s.timebase)) } }
      t.bump 1 52 2 1
  else if p.tripHolds s.now then { s with power := { p with fallAt := some (p.fallAt.getD s.now) } }
  else { s with power := { p with trip := false, fallAt := none } }

theorem State.metered_frame (s : State) (w : List Nat) : ∃ power health, s.metered w = { s with power := power, health := health } := by
  unfold State.metered
  dsimp only
  split
  · split
    · exact ⟨_, _, rfl⟩
    · exact ⟨_, _, rfl⟩
  · split
    · exact ⟨_, _, rfl⟩
    · exact ⟨_, _, rfl⟩

theorem State.metered_samples (s : State) (w : List Nat) : (s.metered w).power.samples = w := by
  unfold State.metered
  dsimp only
  split
  · split <;> rfl
  · split <;> rfl

/-- R938: a trip that holds is one that was set. -/
theorem Power.trip_of_tripHolds {p : Power} {now : Nat} (h : p.tripHolds now = true) : p.trip = true := by
  rw [Power.tripHolds, Bool.and_eq_true] at h
  exact h.1

/-- R938, R940: a mean above I_trip sets the trip, and counts one where none held. -/
theorem State.metered_above {s : State} {w : List Nat} (h : s.imonExceeds w = true) : (s.metered w).power.trip = true ∧
    (s.metered w).power.fallAt = none ∧
    (s.metered w).power.trips = if s.power.tripHolds s.now then s.power.trips else s.power.trips + 1 := by
  unfold State.metered
  dsimp only
  rw [if_pos h]
  by_cases hholds : s.power.tripHolds s.now = true
  · have htrip := Power.trip_of_tripHolds hholds
    have hheld := hholds
    unfold Power.tripHolds at hheld ⊢
    dsimp only
    rw [if_pos hheld, if_pos hheld]
    exact ⟨htrip, rfl, rfl⟩
  · unfold Power.tripHolds at hholds ⊢
    dsimp only
    rw [if_neg hholds, if_neg hholds]
    exact ⟨rfl, rfl, rfl⟩

/-- R938: a mean that is not above I_trip leaves the trip for 20 µs from its fall. -/
theorem State.metered_below {s : State} {w : List Nat} (h : s.imonExceeds w = false) :
    (s.metered w).power.trip = s.power.tripHolds s.now ∧
      (s.metered w).power.fallAt = if s.power.tripHolds s.now then some (s.power.fallAt.getD s.now) else none := by
  unfold State.metered
  dsimp only
  rw [if_neg (by simp [h])]
  by_cases hholds : s.power.tripHolds s.now = true
  · have htrip := Power.trip_of_tripHolds hholds
    have hheld := hholds
    rw [hholds]
    unfold Power.tripHolds at hheld ⊢
    dsimp only
    rw [if_pos hheld]
    exact ⟨htrip, rfl⟩
  · have hended := hholds
    rw [eq_false_of_ne_true hholds]
    unfold Power.tripHolds at hended ⊢
    dsimp only
    rw [if_neg hended]
    exact ⟨rfl, rfl⟩

theorem exec_imonSample_of_eight {s : State} (hrunning : s.running = true) (x : Nat) (happlied : s.boot.applied = true)
    (height : 7 ≤ s.power.samples.length) : exec (.imonSample x) s =
      .next ((s.advanceTo ((s.now / 500 + 1) * 500)).metered ((x :: s.power.samples).take 8)) := by
  have hexec : exec (.imonSample x) s = execImonSample x s := rfl
  have henough : ¬(!s.boot.applied || decide (((x :: (s.advanceTo ((s.now / 500 + 1) * 500)).power.samples).take 8).length < 8)) = true := by
    simp only [State.advanceTo, happlied, List.length_take, List.length_cons, Bool.or_eq_true, decide_eq_true_eq, Bool.not_true,
      Bool.false_eq_true, false_or]
    omega
  rw [hexec, execImonSample, hrunning]
  dsimp only
  rw [if_neg (by decide), if_neg henough]
  rfl

theorem exec_imonTripHoldExpiry {s : State} {a : Nat} (htrip : s.power.trip = true) (hfall : s.power.fallAt = some a) :
    exec .imonTripHoldExpiry s =
      .next { s with now := max s.now (a + 20000), power := { s.power with trip := false, fallAt := none } } := by
  have hexec : exec .imonTripHoldExpiry s = execImonTripHoldExpiry s := rfl
  rw [hexec, execImonTripHoldExpiry, htrip, hfall]
  rfl

theorem exec_imonTripHoldExpiry_of_none {s : State} (h : s.power.trip = false ∨ s.power.fallAt = none) :
    exec .imonTripHoldExpiry s = .next s := by
  have hexec : exec .imonTripHoldExpiry s = execImonTripHoldExpiry s := rfl
  rw [hexec, execImonTripHoldExpiry]
  obtain h | h := h
  · rw [h]
  · cases htrip : s.power.trip with
    | false => rfl
    | true => rw [h]

/-- R953: P_therm after an evaluation of the ceiling. -/
def State.nextCeiling (s : State) : Nat :=
  if Int.ofNat (16 * s.profile.ttgt) ≤ s.tCtl then max (s.power.ptherm - s.capW) (5 * s.capW)
  else if s.tCtl ≤ Int.ofNat (16 * s.profile.ttgt) - Int.ofNat (16 * s.profile.thys) then min (s.power.ptherm + s.capW) (20 * s.capW)
  else s.power.ptherm

theorem exec_thermalCeilingUpdate {s : State} (hrunning : s.running = true) (happlied : s.boot.applied = true) :
    exec .thermalCeilingUpdate s = .next { s with
      now := max s.now (s.thermal.ceilingAt + 1000000)
      power := { s.power with ptherm := s.nextCeiling }
      thermal := { s.thermal with ceilingAt := max s.now (s.thermal.ceilingAt + 1000000) } } := by
  have hexec : exec .thermalCeilingUpdate s = execThermalCeilingUpdate s := rfl
  rw [hexec, execThermalCeilingUpdate, hrunning, happlied]
  rfl

theorem exec_thermalCeilingUpdate_of_idle {s : State} (h : s.running = false ∨ s.boot.applied = false) :
    exec .thermalCeilingUpdate s = .next s := by
  have hexec : exec .thermalCeilingUpdate s = execThermalCeilingUpdate s := rfl
  rw [hexec, execThermalCeilingUpdate, if_pos (by simpa using h)]

/-- R937: the next half microsecond lies ahead. -/
theorem max_nextHalfMicrosecond (n : Nat) : max n ((n / 500 + 1) * 500) = (n / 500 + 1) * 500 := by omega

/-- Settles O21: too few samples, a mean above I_trip and one that is not; the ceiling falls, rises or stays. -/
theorem tripsAndTheThermalCeiling : Obligations.TripsAndTheThermalCeiling := by
  unfold Obligations.TripsAndTheThermalCeiling
  intro s
  refine ⟨fun x hrunning => ?_, fun a htrip hfall => ⟨_, exec_imonTripHoldExpiry htrip hfall, rfl, rfl, rfl, rfl, rfl⟩,
    exec_imonTripHoldExpiry_of_none, fun hrunning happlied => ⟨_, exec_thermalCeilingUpdate hrunning happlied, rfl, ?_, ?_, ?_⟩,
    exec_thermalCeilingUpdate_of_idle⟩
  · by_cases hfew : s.boot.applied = false ∨ s.power.samples.length < 7
    · refine ⟨_, exec_imonSample_of_few hrunning x hfew, rfl, max_nextHalfMicrosecond s.now, rfl, fun _ => ⟨rfl, rfl⟩, fun happlied height => ?_⟩
      obtain hnot | hless := hfew
      · exact absurd happlied (by simp [hnot])
      · exact absurd height (Nat.not_le.mpr hless)
    · obtain ⟨happlied, height⟩ := not_or.mp hfew
      have hnow := max_nextHalfMicrosecond s.now
      obtain ⟨power, health, hframe⟩ :=
        (s.advanceTo ((s.now / 500 + 1) * 500)).metered_frame ((x :: s.power.samples).take 8)
      have hsamples := (s.advanceTo ((s.now / 500 + 1) * 500)).metered_samples ((x :: s.power.samples).take 8)
      refine ⟨_, exec_imonSample_of_eight hrunning x (by simpa using happlied) (Nat.not_lt.mp height), ?_, ?_, hsamples,
        fun h => absurd h hfew, fun _ _ => ⟨fun habove => ?_, fun hbelow => ?_⟩⟩
      · rw [hframe]
        rfl
      · rw [hframe]
        exact hnow
      · rw [hsamples] at habove
        have hset := State.metered_above (s := s.advanceTo ((s.now / 500 + 1) * 500)) habove
        rw [hframe] at hset ⊢
        exact hset
      · rw [hsamples] at hbelow
        have hset := State.metered_below (s := s.advanceTo ((s.now / 500 + 1) * 500)) hbelow
        rw [hframe] at hset ⊢
        exact hset
  · exact fun hhot => if_pos hhot
  · exact fun hcool hlow => (if_neg (Int.not_le.mpr hcool)).trans (if_pos hlow)
  · exact fun hcool hhigh => (if_neg (Int.not_le.mpr hcool)).trans (if_neg (Int.not_le.mpr hhigh))

/-! ### VID codes, and a switch that is abandoned -/

theorem exec_vidLowerCode {s : State} {code a : Nat} (hlower : s.power.lower = some (code, a)) : exec .vidLowerCode s = .next { s with
    now := max s.now a, power := { ((s.advanceTo a).sendVid code).power with vCode := code, lower := none } } := by
  have hexec : exec .vidLowerCode s = execVidLowerCode s := rfl
  rw [hexec, execVidLowerCode, hlower]
  rfl

theorem exec_vidLowerCode_of_none {s : State} (hnone : s.power.lower = none) : exec .vidLowerCode s = .next s := by
  have hexec : exec .vidLowerCode s = execVidLowerCode s := rfl
  rw [hexec, execVidLowerCode, hnone]

/-- R375, R799: a context becomes a candidate in its entry and in the count of candidates. -/
theorem State.makeCandidate_frame (s : State) (c : Nat) : ∃ es n, s.makeCandidate c = { s with entries := es, candidates := n } := by
  unfold State.makeCandidate
  dsimp only
  split
  · rw [State.modEntry_eq]
    exact ⟨_, _, rfl⟩
  · exact ⟨_, _, rfl⟩

theorem foldl_makeCandidate_frame : ∀ (l : List Nat) (s : State), ∃ es n, l.foldl State.makeCandidate s =
    { s with entries := es, candidates := n }
  | [], _ => ⟨_, _, rfl⟩
  | c :: l, s => by
    obtain ⟨es, n, hfirst⟩ := s.makeCandidate_frame c
    obtain ⟨es', n', hrest⟩ := foldl_makeCandidate_frame l (s.makeCandidate c)
    refine ⟨es', n', hrest.trans ?_⟩
    rw [hfirst]

theorem State.spilledToCandidates_frame (s : State) : ∃ es n, s.spilledToCandidates = { s with entries := es, candidates := n } :=
  foldl_makeCandidate_frame _ s

/-- R934: a higher voltage that was under way is given up. -/
def State.dropRise (s : State) : State :=
  match s.power.rising with
  | some (old, _) => { s.sendVid old with power := { (s.sendVid old).power with vCode := old, rising := none } }
  | none => s

theorem State.dropRise_frame (s : State) : ∃ power, s.dropRise = { s with power := power } ∧ power.rising = none := by
  unfold State.dropRise
  split
  · exact ⟨_, rfl, rfl⟩
  · next hnone => exact ⟨_, rfl, hnone⟩

/-- R773, R779, R792, R934: after a switch without an apply no step is under way and no voltage rises; memory, time and the profile are
as they were. -/
theorem State.abandonSwitch_outcome (s : State) (r : Reject) :
    (s.abandonSwitch r).now = s.now ∧ (s.abandonSwitch r).switch.step = .idle ∧ (s.abandonSwitch r).profile = s.profile ∧
      (s.abandonSwitch r).hbm = s.hbm ∧ (s.abandonSwitch r).power.rising = none := by
  unfold State.abandonSwitch
  extract_lets n s1 s2 power2 s3 switch3 s4 switch4 s5
  have h1 : ∃ internal, s1 = { s with internal := internal } := by
    unfold s1
    split
    · exact ⟨_, rfl⟩
    · exact ⟨_, rfl⟩
  obtain ⟨internal, h1⟩ := h1
  obtain ⟨power, h2, hrising⟩ := s1.dropRise_frame
  have h2 : s2 = { s1 with power := power } := h2
  obtain ⟨es, m, h4⟩ := State.spilledToCandidates_frame { s3 with switch := { switch3 with step := .idle } }
  have h4 : s4 = { s3 with switch := { switch3 with step := .idle }, entries := es, candidates := m } := h4
  have hreports := s5.rejectEvent_reports n r
  obtain ⟨_, _, _, hshown⟩ := (s5.rejectEvent n r).refreshStat_frame
  have hnow : s5.now = s.now := by unfold s5; rw [h4]; unfold s3; rw [h2, h1]
  have hstep : s5.switch.step = .idle := by unfold s5 switch4; rw [h4]
  have hprofile : s5.profile = s.profile := by unfold s5; rw [h4]; unfold s3; rw [h2, h1]
  have hhbm : s5.hbm = s.hbm := by unfold s5; rw [h4]; unfold s3; rw [h2, h1]
  have hpower : s5.power.rising = none := by unfold s5; rw [h4]; unfold s3 power2; rw [h2]; exact hrising
  rw [hshown]
  exact ⟨(hreports.reads State.now).trans hnow, (hreports.reads (·.switch.step)).trans hstep, (hreports.reads State.profile).trans hprofile,
    (hreports.reads State.hbm).trans hhbm, (hreports.reads (·.power.rising)).trans hpower⟩

theorem exec_vidSettleTimeout {s : State} {old a : Nat} (hrising : s.power.rising = some (old, a)) (hstep : s.switch.step ≠ .idle) :
    exec .vidSettleTimeout s = .next ((s.advanceTo (a + 100000)).abandonSwitch { code := Code.vidSettle }) := by
  have hexec : exec .vidSettleTimeout s = execVidSettleTimeout s := rfl
  rw [hexec, execVidSettleTimeout, hrising]
  exact congrArg Host.Outcome.next (if_neg hstep)

theorem exec_vidSettleTimeout_of_none {s : State} (h : s.power.rising = none ∨ s.switch.step = .idle) :
    exec .vidSettleTimeout s = .next s := by
  have hexec : exec .vidSettleTimeout s = execVidSettleTimeout s := rfl
  rw [hexec, execVidSettleTimeout]
  obtain h | h := h
  · rw [h]
  · cases s.power.rising with
    | none => rfl
    | some x => exact congrArg Host.Outcome.next (if_pos h)

/-- Settles O20: a lower code is sent at its instant; a higher voltage that has not been reached ends its switch. -/
theorem vidCodesFollowClockChanges : Obligations.VidCodesFollowClockChanges := by
  unfold Obligations.VidCodesFollowClockChanges
  intro s
  refine ⟨fun code a hlower => ⟨_, exec_vidLowerCode hlower, rfl, rfl, rfl, rfl, rfl, rfl, rfl⟩, exec_vidLowerCode_of_none,
    fun old a hrising hstep => ⟨_, exec_vidSettleTimeout hrising hstep, ?_⟩, exec_vidSettleTimeout_of_none⟩
  obtain ⟨hnow, hidle, hprofile, hhbm, hpower⟩ := (s.advanceTo (a + 100000)).abandonSwitch_outcome { code := Code.vidSettle }
  exact ⟨hnow, hidle, hprofile, congrArg Hbm.mem hhbm, hpower⟩

end Sys2Proof.Machine
end
section
/-! SUPPORT. Proofs of the obligation on step decisions: what telling a context of a suspension leaves, and what a quarter's decision does
(R472, R939, R945 to R947). -/
namespace Sys2Proof.Machine

/-! ### Events of contexts -/

/-- From `s` to `t` contexts are told of something: beside the entries, only what reports change. -/
def Informs (s t : State) : Prop := t = { s with entries := t.entries, fabric := t.fabric, ring := t.ring, health := t.health }

namespace Informs

variable {r s t : State}

theorem refl (s : State) : Informs s s := rfl

theorem trans (h : Informs r s) (k : Informs s t) : Informs r t :=
  Eq.trans k (congrArg (fun v : State => { v with entries := t.entries, fabric := t.fabric, ring := t.ring, health := t.health }) h)

theorem of_reports (h : Reports s t) : Informs s t := by
  unfold Informs
  rw [h]

theorem ite {a : Prop} {_ : Decidable a} (h : Informs r s) (k : Informs r t) : Informs r (if a then s else t) := by
  split
  · exact h
  · exact k

theorem foldl {α : Type} {f : State → α → State} (hf : ∀ s a, Informs r s → Informs r (f s a)) :
    ∀ (l : List α) {s : State}, Informs r s → Informs r (l.foldl f s)
  | [], _, h => h
  | a :: l, s, h => foldl hf l (hf s a h)

theorem modEntry (h : Informs r s) (c : Nat) (f : Entry → Entry) : Informs r (s.modEntry c f) := by
  rw [State.modEntry_eq]
  exact h.trans rfl

theorem contextEvent (h : Informs r s) (c code : Nat) (payload : List Byte) : Informs r (s.contextEvent c code payload) :=
  ite ((h.trans (of_reports ((Reports.refl s).writeRecord _ _ _ _ _))).modEntry _ _) (h.trans (of_reports ((Reports.refl s).bump _ _ _ _)))

/-- A reading that asks none of the four parts. -/
theorem reads {α : Type} (h : Informs s t) (g : State → α)
    (hg : ∀ (v : State) e f r c, g { v with entries := e, fabric := f, ring := r, health := c } = g v := by intro _ _ _ _ _; rfl) :
    g t = g s :=
  (congrArg g h).trans (hg s _ _ _ _)

end Informs

/-- The mark of a suspension of a quarter, before the contexts bound to it are told. -/
def State.markSuspended (s : State) (q cause : Nat) : State :=
  s.modQuarter q (fun u => { u with suspended := addOnce u.suspended (s.tick, cause) })

theorem State.markSuspended_stepPermit (s : State) (q cause : Nat) :
    ((s.markSuspended q cause).quarter q).stepPermit = (s.quarter q).stepPermit :=
  s.modQuarter_leaves Quarter.stepPermit q q (f := fun u => { u with suspended := addOnce u.suspended (s.tick, cause) }) (fun _ => rfl)

theorem State.modJob_stepPermit (s : State) (q c p : Nat) (f : Job → Job) :
    ((s.modJob q c f).quarter p).stepPermit = (s.quarter p).stepPermit := by rw [State.modJob_quarter]

/-- R472: a suspension marks its quarter, and tells the contexts bound to it. -/
theorem State.suspend_informs (s : State) (q cause : Nat) : Informs (s.markSuspended q cause) (s.suspend q cause) :=
  Informs.foldl (fun _ _ k => (k.modEntry _ _).contextEvent _ _ _) _ (Informs.refl _)

theorem State.quarter_of_quarters {s t : State} (h : t.quarters = s.quarters) (q : Nat) : t.quarter q = s.quarter q := by
  rw [State.quarter, State.quarter, h]

theorem State.modQuarter_quarter_of_ne (s : State) {q p : Nat} (f : Quarter → Quarter) (h : p ≠ q) :
    (s.modQuarter q f).quarter p = s.quarter p := by
  rw [State.quarter, State.quarter, List.getD_eq_getElem?_getD, List.getD_eq_getElem?_getD]
  exact congrArg (·.getD {}) (getElem?_modAt_of_ne f s.quarters h)

/-! ### A quarter's decision -/

/-- R939: an idle step in the place of the step of quarter `q`. -/
def State.idled (s : State) (q : Nat) (j : Job) : State :=
  let s1 : State := { s with power := { s.power with idleSteps := s.power.idleSteps + 1 } }
  if j.reserved then (s1.modJob q j.ctx (fun j => { j with idle := j.idle + 1 })).suspend q suspThrottle else s1

/-- R945: the step of quarter `q` is paid for and permitted. -/
def State.paid (s : State) (q : Nat) : State :=
  ({ s with power := { s.power with
      account := s.power.account - Int.ofNat s.stepEnergy, esteps := s.power.esteps + s.stepEnergy, ptr := (q + 1) % 4 } }).modQuarter q
    (fun u => { u with stepPermit := true })

/-- R939, R945 to R947: whether the step of a routine has to wait. -/
def State.stepWaits (s : State) (j : Job) : Prop :=
  s.thermal.hold = true ∨ (s.power.tripHolds s.now = true ∧ (s.entry j.ctx).isolated = false) ∨
    s.power.account < Int.ofNat (if j.reserved then s.stepEnergy else s.stepEnergy + s.income 20)

theorem State.decideStep_of_none {s : State} {q : Nat} (hnone : (s.quarter q).stepReady = none) : s.decideStep q = s := by
  rw [State.decideStep, hnone]

theorem State.decideStep_of_waits {s : State} {q : Nat} {j : Job} (hready : (s.quarter q).stepReady = some j) (hwaits : s.stepWaits j) :
    s.decideStep q = s.idled q j := by
  rw [State.decideStep, hready]
  exact if_pos (by simpa [State.stepWaits, or_assoc] using hwaits)

theorem State.decideStep_of_paid {s : State} {q : Nat} {j : Job} (hready : (s.quarter q).stepReady = some j) (hpaid : ¬ s.stepWaits j) :
    s.decideStep q = s.paid q := by
  rw [State.decideStep, hready]
  exact if_neg (by simpa [State.stepWaits, or_assoc] using hpaid)

/-- From `s` to `t` steps of the quarters of `m` are decided: memory, tiles, time and the other quarters stay. -/
structure Decides (m : Nat → Prop) (s t : State) : Prop where
  hbm : t.hbm = s.hbm
  links : t.links = s.links
  slices : t.slices = s.slices
  now : t.now = s.now
  profile : t.profile = s.profile
  thermal : t.thermal = s.thermal
  quarter : ∀ q, ¬ m q → t.quarter q = s.quarter q

namespace Decides

variable {m : Nat → Prop} {r s t : State}

theorem refl (m : Nat → Prop) (s : State) : Decides m s s := ⟨rfl, rfl, rfl, rfl, rfl, rfl, fun _ _ => rfl⟩

theorem trans (h : Decides m r s) (k : Decides m s t) : Decides m r t :=
  ⟨k.hbm.trans h.hbm, k.links.trans h.links, k.slices.trans h.slices, k.now.trans h.now, k.profile.trans h.profile,
    k.thermal.trans h.thermal, fun q hq => (k.quarter q hq).trans (h.quarter q hq)⟩

theorem informs (h : Decides m r s) (k : Informs s t) : Decides m r t :=
  h.trans ⟨k.reads State.hbm, k.reads State.links, k.reads State.slices, k.reads State.now, k.reads State.profile, k.reads State.thermal,
    fun q _ => State.quarter_of_quarters (k.reads State.quarters) q⟩

theorem power (h : Decides m r s) (p : Power) : Decides m r { s with power := p } :=
  h.trans ⟨rfl, rfl, rfl, rfl, rfl, rfl, fun _ _ => rfl⟩

theorem modQuarter (h : Decides m r s) {q : Nat} (hq : m q) (f : Quarter → Quarter) : Decides m r (s.modQuarter q f) :=
  h.trans ⟨rfl, rfl, rfl, rfl, rfl, rfl, fun p hp => s.modQuarter_quarter_of_ne f (fun heq => hp (heq ▸ hq))⟩

theorem suspend (h : Decides m r s) {q : Nat} (hq : m q) (cause : Nat) : Decides m r (s.suspend q cause) :=
  (h.modQuarter hq _).informs (s.suspend_informs q cause)

theorem idled (h : Decides m r s) {q : Nat} (hq : m q) (j : Job) : Decides m r (s.idled q j) := by
  unfold State.idled
  dsimp only
  split
  · exact ((h.power _).modQuarter hq _).suspend hq _
  · exact h.power _

theorem paid (h : Decides m r s) {q : Nat} (hq : m q) : Decides m r (s.paid q) := (h.power _).modQuarter hq _

theorem decideStep (h : Decides m r s) {q : Nat} (hq : m q) : Decides m r (s.decideStep q) := by
  cases hready : (s.quarter q).stepReady with
  | none => rwa [State.decideStep_of_none hready]
  | some j =>
    by_cases hwaits : s.stepWaits j
    · rw [State.decideStep_of_waits hready hwaits]
      exact h.idled hq j
    · rw [State.decideStep_of_paid hready hwaits]
      exact h.paid hq

theorem foldl_decideStep : ∀ (l : List Nat) {s : State}, (∀ q ∈ l, m q) → Decides m r s → Decides m r (l.foldl State.decideStep s)
  | [], _, _, h => h
  | q :: l, _, hl, h =>
    foldl_decideStep l (fun p hp => hl p (List.mem_cons_of_mem q hp)) (h.decideStep (hl q List.mem_cons_self))

end Decides

/-- R939: beside the idle step, a reserved step is counted and told as a suspension. -/
theorem State.idled_outcome (s : State) (q : Nat) (j : Job) :
    (s.idled q j).power = { s.power with idleSteps := s.power.idleSteps + 1 } ∧
      ((s.idled q j).quarter q).stepPermit = (s.quarter q).stepPermit ∧
      (j.reserved = false → s.idled q j = { s with power := (s.idled q j).power }) := by
  unfold State.idled
  dsimp only
  split
  · next hreserved =>
    have hinforms := State.suspend_informs
      (({ s with power := { s.power with idleSteps := s.power.idleSteps + 1 } } : State).modJob q j.ctx (fun j => { j with idle := j.idle + 1 }))
      q suspThrottle
    refine ⟨hinforms.reads State.power, ?_, fun hfree => absurd hreserved (by simp [hfree])⟩
    rw [State.quarter_of_quarters (hinforms.reads State.quarters) q]
    exact (State.markSuspended_stepPermit _ _ _).trans (State.modJob_stepPermit _ _ _ _ _)
  · exact ⟨rfl, rfl, fun _ => rfl⟩

/-- R189: a step that is ready has not been permitted. -/
theorem Quarter.stepPermit_of_stepReady {u : Quarter} {j : Job} (h : u.stepReady = some j) : u.stepPermit = false := by
  unfold Quarter.stepReady at h
  split at h
  · cases h
  · next hnot => exact eq_false_of_ne_true hnot

/-! ### The decisions of a mask -/

/-- R946: the quarters of a mask from the pointer on. -/
def State.decided (s : State) (m : Nat) : List Nat := ((List.range 4).map (fun i => (s.power.ptr + i) % 4)).filter (bitAt m)

theorem exec_powerStepDecision (s : State) (m : Nat) : exec (.powerStepDecision m) s = .next ((s.decided m).foldl State.decideStep s) := rfl

theorem State.bitAt_of_mem_decided {s : State} {m q : Nat} (h : q ∈ s.decided m) : bitAt m q = true := (List.mem_filter.mp h).2

/-- A mask that names none of the four quarters decides nothing. -/
theorem State.decided_of_none {s : State} {m : Nat} (h : m % 16 = 0) : s.decided m = [] := by
  refine List.filter_eq_nil_iff.mpr fun q hq => ?_
  obtain ⟨i, -, rfl⟩ := List.mem_map.mp hq
  have hlow : (s.power.ptr + i) % 4 < 4 := Nat.mod_lt _ (by decide)
  generalize (s.power.ptr + i) % 4 = k at hlow ⊢
  unfold bitAt
  interval_cases k <;> simp <;> omega

/-- The mask of one quarter decides that quarter. -/
theorem State.decided_of_one (s : State) {q : Nat} (hq : q < 4) : s.decided (2 ^ q) = [q] := by
  have hptr : ∀ i, (s.power.ptr + i) % 4 = (s.power.ptr % 4 + i) % 4 := fun i => by rw [Nat.mod_add_mod]
  have hlow : s.power.ptr % 4 < 4 := Nat.mod_lt _ (by decide)
  unfold State.decided
  simp only [hptr]
  generalize s.power.ptr % 4 = p at hlow ⊢
  revert p q
  decide

/-- Settles O18: a mask decides the quarters that it names alone, and one quarter's step waits or is paid for. -/
theorem stepDecisionsFollowTheAccount : Obligations.StepDecisionsFollowTheAccount := by
  unfold Obligations.StepDecisionsFollowTheAccount
  intro s
  refine ⟨fun m => ⟨_, exec_powerStepDecision s m, ?_⟩, fun q hq _ hnone => ?_, fun q j hq hthere hready => ?_⟩
  · obtain ⟨hhbm, hlinks, hslices, hnow, hprofile, hthermal, hquarter⟩ :=
      (Decides.refl (bitAt m · = true) s).foldl_decideStep (s.decided m) (fun _ => State.bitAt_of_mem_decided)
    exact ⟨hhbm, congrArg Links.ports hlinks, hslices, hnow, hprofile, hthermal, fun q hq => hquarter q (by simp [hq]), fun hm => by
      rw [State.decided_of_none hm, List.foldl_nil]⟩
  · rw [exec_powerStepDecision, s.decided_of_one hq, List.foldl_cons, List.foldl_nil, State.decideStep_of_none hnone]
  · refine ⟨_, exec_powerStepDecision s _, ?_⟩
    rw [s.decided_of_one hq, List.foldl_cons, List.foldl_nil]
    by_cases hwaits : s.stepWaits j
    · obtain ⟨hpower, hpermit, hfree⟩ := s.idled_outcome q j
      rw [State.decideStep_of_waits hready hwaits]
      exact (if_pos hwaits).mpr ⟨hpower, hpermit.trans (Quarter.stepPermit_of_stepReady hready), hfree⟩
    · rw [State.decideStep_of_paid hready hwaits]
      refine (if_neg hwaits).mpr ⟨rfl, rfl, ?_⟩
      exact (State.modQuarter_quarter _ q _ (by simp [hthere, hq])).trans (if_pos rfl)

end Sys2Proof.Machine
end
section
/-! SUPPORT. Proofs of the obligation on the phases that fail and the clocks that are lost: what work on a port leaves, and which ports stay
down (R699, R700, R822, R861, R919, R920). -/
namespace Sys2Proof.Machine

/-! ### Work on a port -/

/-- From `s` to `t` ports change state: beside the links and what STAT shows, only what reports change. -/
def PortWork (s t : State) : Prop :=
  t = { s with links := t.links, boot := t.boot, fabric := t.fabric, ring := t.ring, health := t.health }

namespace PortWork

variable {r s t : State}

theorem refl (s : State) : PortWork s s := rfl

theorem trans (h : PortWork r s) (k : PortWork s t) : PortWork r t := Eq.trans k (congrArg (fun v : State =>
  { v with links := t.links, boot := t.boot, fabric := t.fabric, ring := t.ring, health := t.health }) h)

theorem reports (h : PortWork r s) (k : Reports s t) : PortWork r t := h.trans (by unfold PortWork; rw [k])

theorem ite {a : Prop} {_ : Decidable a} (h : PortWork r s) (k : PortWork r t) : PortWork r (if a then s else t) := by
  split
  · exact h
  · exact k

theorem foldl {α : Type} {f : State → α → State} (hf : ∀ s a, PortWork r s → PortWork r (f s a)) :
    ∀ (l : List α) {s : State}, PortWork r s → PortWork r (l.foldl f s)
  | [], _, h => h
  | a :: l, s, h => foldl hf l (hf s a h)

theorem modFport (h : PortWork r s) (n : Nat) (f : FabricPort → FabricPort) : PortWork r (s.modFport n f) := h.trans rfl

theorem advanceEpoch (h : PortWork r s) (d : Nat) : PortWork r (s.advanceEpoch d) := h.trans rfl

theorem requeue (h : PortWork r s) (n : Nat) : PortWork r (s.requeue n) := h.trans rfl

theorem refreshStat (h : PortWork r s) : PortWork r s.refreshStat := by
  rw [State.refreshStat_eq]
  exact h.trans rfl

/-- R699, R700, R726, R737: a port that enters a state. -/
theorem setPortState (h : PortWork r s) (n : Nat) (st : PortState) : PortWork r (s.setPortState n st) := by
  unfold State.setPortState
  extract_lets was s1 s2 s3 s4
  have h1 : PortWork r s1 := h.modFport n _
  have h2 : PortWork r s2 := h1.ite (foldl (fun _ _ k => k.advanceEpoch _) _ h1)
  have h3 : PortWork r s3 := (h2.requeue n).ite h2
  have h4 : PortWork r s4 := (h3.reports (s3.fpEvent_reports n)).ite h3
  exact h4.refreshStat

theorem beginTrain (h : PortWork r s) (n : Nat) (st : PortState) : PortWork r (s.beginTrain n st) := (h.modFport n _).setPortState n st

/-- R696, R697: a fabric port that enters RETRAIN. -/
theorem enterRetrain (h : PortWork r s) (n : Nat) : PortWork r (s.enterRetrain (n + 1)) := by
  unfold State.enterRetrain
  rw [if_neg (Nat.succ_ne_zero n)]
  exact ite (((h.modFport _ _).reports ((Reports.refl _).bump _ _ _ _)).beginTrain _ _) h

/-- A reading that asks none of the five parts. -/
theorem reads {α : Type} (h : PortWork s t) (g : State → α)
    (hg : ∀ (v : State) l b f r c, g { v with links := l, boot := b, fabric := f, ring := r, health := c } = g v := by
      intro _ _ _ _ _ _; rfl) : g t = g s :=
  (congrArg g h).trans (hg s _ _ _ _ _)

end PortWork

/-! ### The states of the ports -/

/-- A port changed in a way that leaves its state: the ports are in the states that they were in. -/
theorem State.modFport_st {s : State} {n : Nat} (h : n < s.links.ports.length) {f : FabricPort → FabricPort} (hf : ∀ p, (f p).st = p.st)
    (k : Nat) : ((s.modFport n f).fport k).st = (s.fport k).st := by
  rw [State.modFport_fport s _ _ h]
  split
  · next heq => rw [hf, heq]
  · rfl

theorem State.requeue_fport_st {s : State} {n : Nat} (h : n < s.links.ports.length) (k : Nat) :
    ((s.requeue n).fport k).st = (s.fport k).st := by
  unfold State.requeue
  extract_lets lk moved keep s1 held
  have hsame : (s1.fport k).st = (s.fport k).st := by
    refine State.modFport_st h ?_ k
    exact fun _ => rfl
  exact hsame

/-- R699: a port enters a state, and the others stay in theirs. -/
theorem State.setPortState_fport_st {s : State} {n : Nat} (h : n < s.links.ports.length) (st : PortState) (k : Nat) :
    ((s.setPortState n st).fport k).st = if k = n then st else (s.fport k).st := by
  unfold State.setPortState
  extract_lets was s1 s2 s3 s4
  have h1 : (s1.fport k).st = if k = n then st else (s.fport k).st := by
    unfold s1
    rw [State.modFport_fport s _ _ h]
    split <;> rfl
  have hports : s2.links.ports = s1.links.ports := by
    unfold s2
    split
    · rfl
    · exact State.foldl_advanceEpoch_ports _ _
  have hcount : n < s2.links.ports.length := by
    rw [hports]
    unfold s1
    rwa [State.modFport_portCount]
  have h3 : (s3.fport k).st = (s2.fport k).st := by
    unfold s3
    split
    · exact State.requeue_fport_st hcount k
    · rfl
  have h4 : s4.links = s3.links := by
    unfold s4
    split
    · exact (s3.fpEvent_reports n).reads (·.links)
    · rfl
  rw [State.fport_of_ports (congrArg (·.ports) (s4.refreshStat_links.trans h4)), h3, State.fport_of_ports hports, h1]

/-- A port begins to train, and the others stay in their states. -/
theorem State.beginTrain_fport_st {s : State} {n : Nat} (h : n < s.links.ports.length) (st : PortState) (k : Nat) :
    ((s.beginTrain n st).fport k).st = if k = n then st else (s.fport k).st := by
  unfold State.beginTrain
  dsimp only
  rw [State.setPortState_fport_st (by rwa [State.modFport_portCount])]
  split
  · rfl
  · refine State.modFport_st h ?_ k
    exact fun _ => rfl

/-- R696, R697: a port that enters RETRAIN is not up, and the others stay in their states. -/
theorem State.enterRetrain_isUp {s : State} {n : Nat} (h : n < s.links.ports.length) (k : Nat) :
    ((s.enterRetrain (n + 1)).fport k).st.isUp = if k = n then false else (s.fport k).st.isUp := by
  unfold State.enterRetrain
  rw [if_neg (Nat.succ_ne_zero n), Nat.add_sub_cancel]
  dsimp only
  split
  · rw [State.beginTrain_fport_st (by simpa [State.bump] using h)]
    split
    · rfl
    · next hother =>
      refine congrArg PortState.isUp (Eq.trans (State.modFport_st h ?_ k) rfl)
      exact fun _ => rfl
  · next hdown =>
    split
    · next heq => rw [heq, eq_false_of_ne_true hdown]
    · rfl

/-- The fabric ports keep their number. -/
theorem State.enterRetrain_portCount {s : State} (h : s.links.ports.length = 16) (link : Nat) : (s.enterRetrain link).links.ports.length = 16 :=
  (State.enterRetrain_stays link (Stays.refl true s)).fports h

/-- R920: ports that enter RETRAIN one after another. -/
def State.retrainAll (s : State) (l : List Nat) : State := l.foldl (fun s n => s.enterRetrain (n + 1)) s

theorem State.retrainAll_isUp : ∀ (l : List Nat) {s : State}, s.links.ports.length = 16 → (∀ n ∈ l, n < 16) → ∀ k,
    ((s.retrainAll l).fport k).st.isUp = if k ∈ l then false else (s.fport k).st.isUp
  | [], _, _, _, _ => by rw [if_neg (List.not_mem_nil)]; rfl
  | n :: l, s, hcount, hl, k => by
    have hrest := State.retrainAll_isUp l (s := s.enterRetrain (n + 1)) (State.enterRetrain_portCount hcount _)
      (fun m hm => hl m (List.mem_cons_of_mem n hm)) k
    refine hrest.trans ?_
    rw [State.enterRetrain_isUp (hcount ▸ hl n List.mem_cons_self)]
    by_cases hk : k = n
    · simp [hk]
    · simp [hk]

theorem State.retrainAll_work (l : List Nat) (s : State) : PortWork s (s.retrainAll l) :=
  PortWork.foldl (fun _ n k => k.enterRetrain n) l (PortWork.refl s)

theorem State.retrainAll_host (l : List Nat) (s : State) : KeepsHost s (s.retrainAll l) :=
  .of_keepsRequests (KeepsRequests.foldl (fun _ _ k => k.enterRetrain (by simp)) l (KeepsRequests.refl True s))

theorem exec_sdrefclkLoss {q : Nat} (hq : q < 4) (s : State) :
    exec (.sdrefclkLoss q) s = .next (s.retrainAll ((List.range 4).map (4 * q + ·))) := by
  have hexec : exec (.sdrefclkLoss q) s = execSdrefclkLoss q s := rfl
  rw [hexec, execSdrefclkLoss, if_neg (Nat.not_le.mpr hq), State.retrainAll, List.foldl_map]

/-! ### Phases that fail -/

theorem exec_bringupPhaseTimeout {s : State}
    (hphase : s.boot.phase = 1 ∨ s.boot.phase = 4 ∨ s.boot.phase = 5 ∨ s.boot.phase = 6 ∨ s.boot.phase = 7 ∨ s.boot.phase = 8) :
    exec .bringupPhaseTimeout s = .next ((s.advanceTo (s.boot.phaseAt + phaseLimit s.boot.phase)).goFatal Code.phaseTimeout) := by
  have hexec : exec .bringupPhaseTimeout s = execBringupPhaseTimeout s := rfl
  rw [hexec]
  unfold execBringupPhaseTimeout
  obtain h | h | h | h | h | h := hphase <;> simp [h]

theorem exec_bringupPhaseTimeout_straps {s : State} (hphase : s.boot.phase = 3) (hfree : s.boot.holding = false) :
    exec .bringupPhaseTimeout s =
      .next ((s.advanceTo (max s.boot.phaseAt s.boot.holdEnd + phaseLimit 3)).goFatal Code.phaseTimeout) := by
  have hexec : exec .bringupPhaseTimeout s = execBringupPhaseTimeout s := rfl
  rw [hexec]
  unfold execBringupPhaseTimeout
  simp [hphase, hfree]

theorem exec_bringupPhaseTimeout_plls {s : State} (hphase : s.boot.phase = 2) :
    exec .bringupPhaseTimeout s = .next ((s.advanceTo (s.boot.phaseAt + phaseLimit 2)).goFatal Code.pllLockFail) := by
  have hexec : exec .bringupPhaseTimeout s = execBringupPhaseTimeout s := rfl
  rw [hexec]
  unfold execBringupPhaseTimeout
  simp [hphase]

theorem exec_bringupPhaseTimeout_fabric {s : State} (hphase : s.boot.phase = 0xA) :
    exec .bringupPhaseTimeout s = .next ((s.advanceTo (s.boot.phaseAt + 1000000000)).enterPhase 0x11) := by
  have hexec : exec .bringupPhaseTimeout s = execBringupPhaseTimeout s := rfl
  rw [hexec]
  unfold execBringupPhaseTimeout
  simp [hphase, phaseLimit]

theorem exec_bringupPhaseTimeout_ready {s : State} (hphase : s.boot.phase = 0xB) : exec .bringupPhaseTimeout s = .next s := by
  have hexec : exec .bringupPhaseTimeout s = execBringupPhaseTimeout s := rfl
  rw [hexec]
  unfold execBringupPhaseTimeout
  simp [hphase]

/-- A PLL that has lost its lock. -/
def State.unlocked (s : State) (core : Bool) : State :=
  if core then { s with boot := { s.boot with coreLock := false } } else { s with boot := { s.boot with ioLock := false } }

theorem exec_pllLockLoss {s : State} {core : Bool} (hrunning : s.running = true) (hlocked : s.boot.ioLock = true)
    (hrelock : core = true → s.power.relocking = false) : exec (.pllLockLoss core) s = .next ((s.unlocked core).goFatal Code.pllLockFail) := by
  have hexec : exec (.pllLockLoss core) s = execPllLockLoss core s := rfl
  have hstays : ¬(!s.running || !s.boot.ioLock || (core && s.power.relocking)) = true := by
    cases core with
    | false => simp [hrunning, hlocked]
    | true => simp [hrunning, hlocked, hrelock]
  rw [hexec, execPllLockLoss, if_neg hstays]
  rfl

/-- R861: a fatal code ends bring-up, at the instant of its cause and with the locks as they are. -/
theorem State.goFatal_outcome (s : State) (code : Nat) : (s.goFatal code).boot.phase = 0xF ∧ (s.goFatal code).boot.fatal = some code ∧
    (s.goFatal code).now = s.now ∧ (s.goFatal code).boot.coreLock = s.boot.coreLock ∧ (s.goFatal code).boot.ioLock = s.boot.ioLock := by
  obtain ⟨_, _, _, _, hfatal⟩ := s.goFatal_frame code
  rw [hfatal]
  exact ⟨rfl, rfl, rfl, rfl, rfl⟩

/-- Settles O16: a phase ends at its limit, a PLL's loss is fatal, and a quad without its clock has no port up. -/
theorem phasesThatFailEndBringup : Obligations.PhasesThatFailEndBringup := by
  unfold Obligations.PhasesThatFailEndBringup
  intro s
  refine ⟨fun hphase => ⟨_, exec_bringupPhaseTimeout hphase, ?_⟩, fun hphase hfree => ⟨_, exec_bringupPhaseTimeout_straps hphase hfree, ?_⟩,
    fun hphase => ⟨_, exec_bringupPhaseTimeout_plls hphase, ?_⟩, fun hphase => ⟨_, exec_bringupPhaseTimeout_fabric hphase, ?_⟩,
    exec_bringupPhaseTimeout_ready, fun core hrunning hlocked hrelock => ⟨_, exec_pllLockLoss hrunning hlocked hrelock, ?_⟩,
    fun q hq hcount => ⟨_, exec_sdrefclkLoss hq s, ?_⟩⟩
  · obtain ⟨hends, hcode, hnow, -, -⟩ := (s.advanceTo (s.boot.phaseAt + phaseLimit s.boot.phase)).goFatal_outcome Code.phaseTimeout
    exact ⟨hends, hcode, hnow⟩
  · obtain ⟨hends, hcode, -, -, -⟩ :=
      (s.advanceTo (max s.boot.phaseAt s.boot.holdEnd + phaseLimit 3)).goFatal_outcome Code.phaseTimeout
    exact ⟨hends, hcode⟩
  · obtain ⟨hends, hcode, -, -, -⟩ := (s.advanceTo (s.boot.phaseAt + phaseLimit 2)).goFatal_outcome Code.pllLockFail
    exact ⟨hends, hcode⟩
  · obtain ⟨_, _, _, _, hentered⟩ := (s.advanceTo (s.boot.phaseAt + 1000000000)).enterPhase_frame 0x11
    rw [hentered]
    exact ⟨rfl, rfl⟩
  · obtain ⟨hends, hcode, -, hcore, hio⟩ := (s.unlocked core).goFatal_outcome Code.pllLockFail
    refine ⟨hends, hcode, fun h => ?_, fun h => ?_⟩
    · rw [hcore, h]
      rfl
    · rw [hio, h]
      rfl
  · have hwork := s.retrainAll_work ((List.range 4).map (4 * q + ·))
    have hhost := s.retrainAll_host ((List.range 4).map (4 * q + ·))
    refine ⟨fun i hi => ?_, congrArg Hbm.mem hhost.hbm, hwork.reads State.entries, hhost.quarters, hhost.st⟩
    rw [State.retrainAll_isUp _ hcount (by simp; omega)]
    exact if_pos (List.mem_map.mpr ⟨i, List.mem_range.mpr hi, rfl⟩)

end Sys2Proof.Machine
end
section
/-! SUPPORT. Proofs about the steps of a profile switch up to its rinse: the pins under debounce, the check of the record, and what the
start of a rinse leaves of memory and time (R773 to R793). -/
namespace Sys2Proof.Machine

/-! ### The pins -/

/-- R774: a sample of the pins: one that differs from the value under debounce restarts the debounce. -/
def Switch.sampled (w : Switch) (value now : Nat) : Switch :=
  if w.pselSince.isSome && w.pselValue == value then { w with pselAt := now }
  else { w with pselValue := value, pselSince := some now, pselAt := now }

theorem exec_pselSample {s : State} (hrunning : s.running = true) (hlatched : s.boot.latched = true) (hpins : s.straps.pselLink = false)
    (v : Nat) : exec (.pselSample v) s = .next { s with
      now := (s.now / 10000 + 1) * 10000, switch := s.switch.sampled (v % 8) ((s.now / 10000 + 1) * 10000) } := by
  have hexec : exec (.pselSample v) s = execPselSample v s := rfl
  have hahead : max s.now ((s.now / 10000 + 1) * 10000) = (s.now / 10000 + 1) * 10000 := by omega
  rw [hexec, execPselSample, hrunning, hlatched, hpins]
  unfold Switch.sampled State.advanceTo
  dsimp only
  rw [hahead, if_neg (by decide)]
  split <;> rfl

/-- R774: a sample keeps the value taken, and restarts the debounce where the value differs. -/
theorem Switch.sampled_outcome (w : Switch) (value now : Nat) :
    (w.sampled value now).pselTaken = w.pselTaken ∧ (w.sampled value now).pselAt = now ∧
      (w.pselSince.isSome = true → w.pselValue = value → w.sampled value now = { w with pselAt := now }) ∧
      (w.pselSince = none ∨ w.pselValue ≠ value → (w.sampled value now).pselValue = value ∧ (w.sampled value now).pselSince = some now) := by
  unfold Switch.sampled
  split
  · next h =>
    rw [Bool.and_eq_true, beq_iff_eq] at h
    obtain ⟨hsome, hvalue⟩ := h
    refine ⟨rfl, rfl, fun _ _ => rfl, fun hdiffers => ?_⟩
    obtain hnone | hother := hdiffers
    · rw [hnone] at hsome
      cases hsome
    · exact absurd hvalue hother
  · next h => exact ⟨rfl, rfl, fun hsome hvalue => absurd (by simp [hsome, hvalue]) h, fun _ => ⟨rfl, rfl⟩⟩

theorem exec_pselDebounceDone {s : State} (hrunning : s.running = true) (hpins : s.straps.pselLink = false) {a : Nat}
    (hsince : s.switch.pselSince = some a) (hother : s.switch.pselTaken ≠ some s.switch.pselValue) :
    exec .pselDebounceDone s = .next (if s.switch.pselAt + 10000 < a + 1000000 then s else { s with
      now := max s.now (a + 1000000)
      switch := { s.switch with
        pselTaken := some s.switch.pselValue
        queued := if s.switch.pselTaken.isSome then some s.switch.pselValue else s.switch.queued
        pselFirst := if s.switch.pselTaken.isSome then s.switch.pselFirst else max s.now (a + 1000000) } }) := by
  have hexec : exec .pselDebounceDone s = execPselDebounceDone s := rfl
  have htaken : (s.switch.pselTaken == some s.switch.pselValue) = false := by simpa using hother
  rw [hexec, execPselDebounceDone, hsince]
  simp only [hrunning, hpins, htaken, Bool.not_true, Bool.or_self, Bool.false_or, decide_eq_true_eq]
  rfl

theorem exec_pselDebounceDone_of_none {s : State} (hnone : s.switch.pselSince = none) : exec .pselDebounceDone s = .next s := by
  have hexec : exec .pselDebounceDone s = execPselDebounceDone s := rfl
  rw [hexec, execPselDebounceDone, hnone]

/-! ### Stage and check -/

/-- R780: the checks of a record read the profile store and what the checks of the staged fields read. -/
theorem State.checkRecord_congr {s t : State} (hstore : t.profStore = s.profStore) (hstaged : t.checkStaged = s.checkStaged)
    (n : Nat) (b : Bool) : t.checkRecord n b = s.checkRecord n b := by
  rw [State.checkRecord, State.checkRecord, hstore, hstaged]

/-- R773: the queued request under way, with STAT 0xD. -/
def State.switchBegun (s : State) (n : Nat) : State := ({ s with switch := { s.switch with queued := none, number := n } }).showStat 0xD

theorem State.switchBegun_frame (s : State) (n : Nat) : ∃ boot, s.switchBegun n =
    { s with switch := { s.switch with queued := none, number := n }, boot := boot } := by
  obtain ⟨_, _, _, hshown⟩ := ({ s with switch := { s.switch with queued := none, number := n } } : State).showStat_frame 0xD
  exact ⟨_, hshown⟩

theorem State.switchBegun_checkRecord (s : State) (n m : Nat) : (s.switchBegun n).checkRecord m false = s.checkRecord m false := by
  obtain ⟨_, hbegun⟩ := s.switchBegun_frame n
  obtain ⟨t, ht⟩ : ∃ t, t = s.switchBegun n := ⟨_, rfl⟩
  rw [← ht] at hbegun ⊢
  have hentries : t.entries = s.entries := by rw [hbegun]
  have hquarters : t.quarters = s.quarters := by rw [hbegun]
  have hslices : t.slices = s.slices := by rw [hbegun]
  have hlevels : t.levels = s.levels := by rw [hbegun]
  have hprofile : t.profile = s.profile := by rw [hbegun]
  have hseal : t.sealKey = s.sealKey := by rw [hbegun]
  have hstore : t.profStore = s.profStore := by rw [hbegun]
  exact State.checkRecord_congr hstore
    (funext fun p => funext fun b => State.checkStaged_congr hentries hquarters hslices hlevels hprofile hseal p b) m false

/-- R780 to R785: a record that passed is staged, to wait for a rinse where it needs one. -/
def State.stagedFrom (s : State) (n : Nat) : State :=
  let p := parseProfile ((assocGet s.profStore n).getD [])
  { s with switch := { s.switch with
      staged := p, rinse := s.needsRinse p, step := if s.needsRinse p then .waitRinse else .ready, waitPeriod := s.period
      toSpill := [], spilled := [], returned := [] } }

/-- R773, R780: a switch under way is refused, or staged. -/
def State.switchChecked (s : State) (n : Nat) : State :=
  match s.checkRecord n false with
  | some r => (s.rejectEvent n r).refreshStat
  | none => s.stagedFrom n

theorem exec_profileSwitchStart {s : State} (hrunning : s.running = true) (hready : s.ready = true) {n : Nat}
    (hqueued : s.switch.queued = some n) (hidle : s.switch.step = .idle) :
    exec .profileSwitchStart s = .next ((s.switchBegun n).switchChecked n) := by
  have hexec : exec .profileSwitchStart s = execProfileSwitchStart s := rfl
  have hstarts : ¬(!s.running || !s.ready || s.switch.step != .idle) = true := by simp [hrunning, hready, hidle]
  rw [hexec, execProfileSwitchStart, hqueued]
  dsimp only
  rw [if_neg hstarts]
  rfl

/-- R773, R779: a refused record leaves the switch idle. -/
theorem State.switchChecked_of_refused {s : State} {n : Nat} {r : Reject} (hrefused : s.checkRecord n false = some r) :
    (s.switchChecked n).profile = s.profile ∧ (s.switchChecked n).hbm = s.hbm ∧ (s.switchChecked n).switch = s.switch := by
  have hreports := s.rejectEvent_reports n r
  obtain ⟨_, _, _, hshown⟩ := (s.rejectEvent n r).refreshStat_frame
  rw [State.switchChecked, hrefused]
  dsimp only
  rw [hshown]
  exact ⟨hreports.reads State.profile, hreports.reads State.hbm, hreports.reads State.switch⟩

/-- R786: the staged profile waits for a rinse where the switch needs one. -/
theorem State.switchChecked_of_passed {s : State} {n : Nat} (hpassed : s.checkRecord n false = none) :
    let t := s.switchChecked n
    t.profile = s.profile ∧ t.hbm = s.hbm ∧ t.switch.number = s.switch.number ∧
      t.switch.staged = parseProfile ((assocGet s.profStore n).getD []) ∧
      t.switch.step = if s.needsRinse t.switch.staged then .waitRinse else .ready := by
  rw [State.switchChecked, hpassed]
  exact ⟨rfl, rfl, rfl, rfl, rfl⟩

theorem exec_profileSwitchStart_of_none {s : State} (hnone : s.switch.queued = none) : exec .profileSwitchStart s = .next s := by
  have hexec : exec .profileSwitchStart s = execProfileSwitchStart s := rfl
  rw [hexec, execProfileSwitchStart, hnone]

theorem State.switchBegun_needsRinse (s : State) (n : Nat) : (s.switchBegun n).needsRinse = s.needsRinse := by
  obtain ⟨_, hbegun⟩ := s.switchBegun_frame n
  obtain ⟨t, ht⟩ : ∃ t, t = s.switchBegun n := ⟨_, rfl⟩
  rw [← ht] at hbegun ⊢
  have hquarters : t.quarters = s.quarters := by rw [hbegun]
  have hprofile : t.profile = s.profile := by rw [hbegun]
  exact funext fun p => State.needsRinse_congr hquarters hprofile p

/-- A queued request with no switch under way is refused, with the profile as it was. -/
theorem profileSwitchStart_refused {s : State} (hrunning : s.running = true) (hready : s.ready = true) {n : Nat}
    (hqueued : s.switch.queued = some n) (hidle : s.switch.step = .idle) {r : Reject} (hrefused : s.checkRecord n false = some r) :
    Completes .profileSwitchStart s (fun t => t.profile = s.profile ∧ t.hbm = s.hbm ∧ t.switch.step = .idle ∧ t.switch.queued = none) := by
  obtain ⟨hprofile, hhbm, hswitch⟩ := State.switchChecked_of_refused ((s.switchBegun_checkRecord n n).trans hrefused)
  obtain ⟨_, hbegun⟩ := s.switchBegun_frame n
  refine ⟨_, exec_profileSwitchStart hrunning hready hqueued hidle, hprofile.trans ?_, hhbm.trans ?_, ?_, ?_⟩
  · rw [hbegun]
  · rw [hbegun]
  · rw [hswitch, hbegun]
    exact hidle
  · rw [hswitch, hbegun]

/-- A queued request with no switch under way is staged, with the profile in force as it was. -/
theorem profileSwitchStart_passed {s : State} (hrunning : s.running = true) (hready : s.ready = true) {n : Nat}
    (hqueued : s.switch.queued = some n) (hidle : s.switch.step = .idle) (hpassed : s.checkRecord n false = none) :
    Completes .profileSwitchStart s (fun t => t.profile = s.profile ∧ t.hbm = s.hbm ∧ t.switch.number = n ∧
      t.switch.staged = parseProfile ((assocGet s.profStore n).getD []) ∧
      t.switch.step = (if s.needsRinse t.switch.staged then .waitRinse else .ready)) := by
  obtain ⟨hprofile, hhbm, hnumber, hstaged, hstep⟩ := State.switchChecked_of_passed ((s.switchBegun_checkRecord n n).trans hpassed)
  rw [s.switchBegun_needsRinse n] at hstep
  obtain ⟨_, hbegun⟩ := s.switchBegun_frame n
  refine ⟨_, exec_profileSwitchStart hrunning hready hqueued hidle, hprofile.trans ?_, hhbm.trans ?_, hnumber.trans ?_,
    hstaged.trans ?_, hstep⟩
  · rw [hbegun]
  · rw [hbegun]
  · rw [hbegun]
  · rw [hbegun]

/-! ### The rinse -/

/-- A run of steps that each leave a reading. -/
theorem foldl_reading {α β : Type} (g : State → β) {f : State → α → State} (hf : ∀ s a, g (f s a) = g s) :
    ∀ (l : List α) (s : State), g (l.foldl f s) = g s
  | [], _ => rfl
  | a :: l, s => (foldl_reading g hf l (f s a)).trans (hf s a)

/-- Memory and own time. -/
def State.still (s : State) : Hbm × Nat := (s.hbm, s.now)

theorem State.still_eq_iff {s t : State} : t.still = s.still ↔ t.hbm = s.hbm ∧ t.now = s.now := by
  simp only [State.still, Prod.mk.injEq]

theorem State.still_of_clock {s t : State} (h : t.clock = s.clock) : t.still = s.still := by
  obtain ⟨hhbm, hnow, -⟩ := State.clock_eq_iff.mp h
  exact State.still_eq_iff.mpr ⟨hhbm, hnow⟩

theorem KeepsRequests.still {p : Prop} {s t : State} (h : KeepsRequests p s t) : t.still = s.still := State.still_eq_iff.mpr ⟨h.hbm, h.now⟩

theorem State.suspend_still (s : State) (q cause : Nat) : (s.suspend q cause).still = s.still := State.still_of_clock (s.suspend_clock q cause)

theorem State.suspendProfile_still (s : State) : s.suspendProfile.still = s.still := by
  refine foldl_reading State.still (fun t q => ?_) _ s
  split
  · rfl
  · exact t.suspend_still q _

theorem State.preemptJob_still (s : State) (q : Nat) (j : Job) (src : PreemptSource) (displacing : Bool) :
    (s.preemptJob q j src displacing).still = s.still := State.still_of_clock (s.preemptJob_clock q j src displacing)

theorem State.settle_still (s : State) (c : Nat) : (s.settle c).still = s.still := State.still_of_clock (s.settle_clock c)

theorem State.modEntry_still (s : State) (c : Nat) (f : Entry → Entry) : (s.modEntry c f).still = s.still :=
  State.still_of_clock (s.modEntry_clock c f)

/-- R786: the requests of a rinse at a quarter. -/
theorem State.rinsePreempt_still (s : State) (plan : List Nat) (q : Nat) : (s.rinsePreempt plan q).still = s.still :=
  (foldl_reading State.still (fun t (j : Job) => t.settle_still j.ctx) _ _).trans
    (foldl_reading State.still (fun t (j : Job) => t.preemptJob_still q j .rinse _) _ s)

theorem State.freeSlot_still (s : State) (c : Nat) : (s.freeSlot c).still = s.still :=
  ((KeepsRequests.refl False s).freeSlot not_false c).still

/-- R788: a RESTORE given up for a rinse. -/
theorem State.abandonRestore_still (s : State) (c : Nat) : (s.abandonRestore c).still = s.still :=
  (State.settle_still _ c).trans ((State.modEntry_still _ c _).trans (s.freeSlot_still c))

theorem State.queueInternal_frame (s : State) (i : Internal) : ∃ l, s.queueInternal i = { s with internal := l } := by
  unfold State.queueInternal
  split
  · exact ⟨_, rfl⟩
  · exact ⟨_, rfl⟩

/-- A reading that does not ask for the internal routines. -/
theorem State.queueInternal_reads {α : Type} (g : State → α) (s : State) (i : Internal)
    (hg : ∀ (v : State) l, g { v with internal := l } = g v := by intro _ _; rfl) : g (s.queueInternal i) = g s := by
  obtain ⟨_, hframe⟩ := s.queueInternal_frame i
  rw [hframe, hg]

/-- R790: the parks of a rinse are queued alone. -/
theorem State.parkLeaving_reads {α : Type} (g : State → α) (s : State)
    (hg : ∀ (v : State) l, g { v with internal := l } = g v := by intro _ _; rfl) : g s.parkLeaving = g s := by
  refine foldl_reading g (fun t q => ?_) _ s
  split
  · refine foldl_reading g (fun u h => ?_) _ t
    split
    · rfl
    · exact u.queueInternal_reads g _ hg
  · rfl

/-- R918, R932: the PLL relocks, and the voltage rises, for the staged clock. -/
theorem State.beginRelock_frame (s : State) : ∃ p, s.beginRelock = { s with power := p } := by
  unfold State.beginRelock
  dsimp only
  split
  · exact ⟨_, rfl⟩
  · split
    · exact ⟨_, rfl⟩
    · exact ⟨_, rfl⟩

/-- R791, R793: a rinse goes on, or is done. -/
theorem State.rinseProgress_outcome {s : State} (h : s.switch.step = .rinsing) : s.rinseProgress.still = s.still ∧
    (s.rinseProgress.switch.step = .rinsing ∨ s.rinseProgress.switch.step = .ready) := by
  unfold State.rinseProgress
  split
  · obtain ⟨_, hrelock⟩ := ({ s with switch := { s.switch with step := .ready } } : State).beginRelock_frame
    rw [hrelock]
    exact ⟨rfl, .inr rfl⟩
  · exact ⟨rfl, .inl h⟩

/-- R786 to R788: the quarters are preempted, the restores that cannot stay given up, and the spills queued. -/
def State.rinseCleared (s : State) : State :=
  let plan := s.rinsePlan
  let s2 := s.quartersUp.foldl (fun s q => s.rinsePreempt plan q) s
  let s3 := s2.restoresLost.foldl State.abandonRestore s2
  let s4 := s3.dropInternal (fun i => match i with | .evict c => !plan.contains c | _ => false)
  plan.foldl (fun s c => s.queueInternal (.evict c)) s4

theorem State.rinseCleared_still (s : State) : s.rinseCleared.still = s.still := by
  unfold State.rinseCleared
  extract_lets plan s2 s3 s4
  have hpreempted : s2.still = s.still := foldl_reading State.still (fun t q => t.rinsePreempt_still plan q) _ s
  have habandoned : s3.still = s2.still := foldl_reading State.still State.abandonRestore_still _ s2
  have hqueued : (plan.foldl (fun s c => s.queueInternal (.evict c)) s4).still = s4.still :=
    foldl_reading State.still (fun t c => t.queueInternal_reads State.still _) _ s4
  have hdropped : s4.still = s3.still := rfl
  rw [hqueued, hdropped, habandoned, hpreempted]

/-- RINSE_START clears the quarters, and then goes on with the rinse. -/
theorem exec_rinseStart {s : State} (hrunning : s.running = true) (hwaits : s.switch.step = .waitRinse) (rs : List (Nat × List Finding)) :
    ∃ w : Switch, w.step = .rinsing ∧ exec (.rinseStart rs) s =
      .next ({ (s.advanceTo s.rinseInstant).suspendProfile.rinseCleared with switch := w } : State).parkLeaving.rinseProgress := by
  have hexec : exec (.rinseStart rs) s = execRinseStart rs s := rfl
  have hstarts : ¬(!s.running || s.switch.step != .waitRinse) = true := by simp [hrunning, hwaits]
  rw [hexec, execRinseStart, if_neg hstarts]
  exact ⟨_, rfl, rfl⟩

/-- R467, R786: the rinse begins at its instant, with memory and the profile in force as they were. -/
theorem rinseStart_completes {s : State} (hrunning : s.running = true) (hwaits : s.switch.step = .waitRinse)
    (rs : List (Nat × List Finding)) : Completes (.rinseStart rs) s (fun t => t.profile = s.profile ∧ t.hbm = s.hbm ∧
      (t.switch.step = .rinsing ∨ t.switch.step = .ready) ∧ t.now = max s.now s.rinseInstant) := by
  obtain ⟨w, hstep, hstarted⟩ := exec_rinseStart hrunning hwaits rs
  have hsetup := (execRinseStart_stays hstarted).setup rfl
  let u : State := { (s.advanceTo s.rinseInstant).suspendProfile.rinseCleared with switch := w }
  have hrinsing : u.parkLeaving.switch.step = .rinsing := (u.parkLeaving_reads (·.switch.step)).trans hstep
  obtain ⟨hstill, hgoes⟩ := State.rinseProgress_outcome hrinsing
  have hall : u.parkLeaving.rinseProgress.still = (s.advanceTo s.rinseInstant).still :=
    hstill.trans ((u.parkLeaving_reads State.still).trans
      ((State.rinseCleared_still _).trans (State.suspendProfile_still _)))
  obtain ⟨hhbm, hnow⟩ := State.still_eq_iff.mp hall
  exact ⟨_, hstarted, congrArg Prod.fst hsetup, hhbm, hgoes, hnow⟩

/-- R792: a rinse of 100 ms ends without an apply. -/
theorem exec_rinseTimeout {s : State} (hrunning : s.running = true) (hrinsing : s.rinsing = true) : exec .rinseTimeout s =
    .next ((s.advanceTo (s.switch.rinseAt + 100000000)).abandonSwitch { code := Code.rinseTimeout }) := by
  have hexec : exec .rinseTimeout s = execRinseTimeout s := rfl
  rw [hexec, execRinseTimeout, if_neg (by simp [hrunning, hrinsing])]

theorem exec_rinseTimeout_of_none {s : State} (hnone : s.rinsing = false) : exec .rinseTimeout s = .next s := by
  have hexec : exec .rinseTimeout s = execRinseTimeout s := rfl
  rw [hexec, execRinseTimeout, if_pos (by simp [hnone])]

end Sys2Proof.Machine
end
section
/-! SUPPORT. Proofs about the apply edge of a profile switch, and the obligation on its steps: what each part of the edge leaves of memory,
and what the transactions that were held back leave of the switch (R696, R784, R793 to R801, R1033). -/
namespace Sys2Proof.Machine

/-! ### Memory at the apply edge: the counts, the powers and the ports -/

theorem State.applyRate_hbm (s : State) (old : Profile) : (s.applyRate old).hbm = s.hbm := rfl

theorem State.applyClock_hbm (s : State) (old : Profile) : (s.applyClock old).hbm = s.hbm := by
  unfold State.applyClock
  split
  · rfl
  · rfl

theorem State.cutPower_hbm (s : State) (oldCap : Nat) (old : Profile) : (s.cutPower oldCap old).hbm = s.hbm := by
  unfold State.cutPower
  split
  · rfl
  · rfl

theorem KeepsRequests.lnak {p : Prop} {r s : State} (h : KeepsRequests p r s) (link code : Nat) (bytes : List Byte) :
    KeepsRequests p r (s.lnak link code bytes) := (h.bump _ _ _ _).ite (h.enqueue _ _ _)

/-- R671: a discarded packet is a violation, and its sender is told. -/
theorem State.discard_hbm (s : State) (link code : Nat) (bytes : List Byte) : (s.discard link code bytes).hbm = s.hbm := by
  have hviolated : KeepsRequests False s (s.violatePkt link code bytes) :=
    (KeepsRequests.refl False s).violate (fun _ => not_false) code (pktType bytes) (pktTag bytes)
  have htold : KeepsRequests False s (s.discard link code bytes) := ((hviolated.bump _ _ _ _).sendToRequester _ _ _).ite (hviolated.lnak _ _ _)
  exact htold.hbm

theorem State.finishOut_hbm (s : State) (r : OutReq) (data : List Byte) (bad : List Nat) (st : Nat) : (s.finishOut r data bad st).hbm = s.hbm :=
  (s.finishOut_keeps True r data bad st).hbm

/-- R721, R735: a packet that cannot be routed. -/
theorem State.discardPacket_hbm (s : State) (bytes : List Byte) (arrived reason : Nat) : (s.discardPacket bytes arrived reason).hbm = s.hbm := by
  unfold State.discardPacket
  extract_lets s1
  have hcounted : s1.hbm = s.hbm := rfl
  split
  · split
    · split
      · exact (s1.finishOut_hbm _ _ _ _).trans hcounted
      · exact hcounted
    · exact ((KeepsRequests.refl False s1).answerCpl _ _ _ _).hbm.trans hcounted
  · split
    · exact (s1.discard_hbm _ _ _).trans hcounted
    · split
      · exact (((Reports.refl s1).deviceEvent _ _ _).reads State.hbm).trans hcounted
      · exact hcounted

theorem State.discardUnacked_hbm (s : State) (n : Nat) : (s.discardUnacked n).hbm = s.hbm :=
  (foldl_reading State.hbm (fun t (o : OutPacket) => t.discardPacket_hbm o.bytes _ 1) _ _).trans rfl

theorem State.portDown_hbm (s : State) (n : Nat) : (s.portDown n).hbm = s.hbm :=
  (State.discardUnacked_hbm _ n).trans (((PortWork.refl s).modFport n _).setPortState n .down |>.reads State.hbm)

theorem State.reconfigurePort_hbm (s : State) (old : List PortCfg) (n : Nat) : (s.reconfigurePort old n).hbm = s.hbm := by
  unfold State.reconfigurePort
  dsimp only
  split
  · rfl
  · split
    · exact s.portDown_hbm n
    · exact ((((PortWork.refl (s.portDown n)).modFport n _).beginTrain n .train).reads State.hbm).trans (s.portDown_hbm n)

/-! ### Memory at the apply edge: the quarters and the contexts -/

theorem State.darnEvents_reports (s : State) (q : Nat) (before : Rotation) : Reports s (s.darnEvents q before) :=
  Reports.foldl (fun _ _ k => (k.bump _ _ _ _).deviceEvent _ _ _) _ (Reports.refl s)

theorem State.returnQuarter_hbm (s : State) (x : Nat × List Finding) : (s.returnQuarter x).hbm = s.hbm := by
  unfold State.returnQuarter
  dsimp only
  split
  · exact (((State.darnEvents_reports _ _ _).deviceEvent _ _ _).reads State.hbm).trans rfl
  · rfl

theorem State.faultContext_hbm (s : State) (c : Nat) (i : FaultInfo) : (s.faultContext c i).hbm = s.hbm :=
  ((KeepsRequests.refl False s).faultContext not_false c i).hbm

theorem State.suspend_hbm (s : State) (q cause : Nat) : (s.suspend q cause).hbm = s.hbm := congrArg Prod.fst (s.suspend_still q cause)

theorem State.dropAhead_hbm (s : State) (c : Nat) : (s.dropAhead c).hbm = s.hbm := by
  unfold State.dropAhead
  split
  · rfl
  · exact (State.modEntry_hbm _ _ _).trans rfl

theorem State.freeEmptyPlanes_hbm (s : State) (c : Nat) : (s.freeEmptyPlanes c).hbm = s.hbm := by
  unfold State.freeEmptyPlanes
  extract_lets empty s1
  refine (foldl_reading State.hbm (fun t pl => ?_) _ s1).trans rfl
  split
  · exact State.modEntry_hbm _ _ _
  · rfl

theorem State.parkAll_hbm (s : State) (c : Nat) : (s.parkAll c).hbm = s.hbm :=
  foldl_reading State.hbm (fun t pl => t.queueInternal_reads State.hbm (.park c pl)) _ s

theorem State.noteOvercommit_hbm (s : State) (q : Nat) : (s.noteOvercommit q).hbm = s.hbm := by
  unfold State.noteOvercommit
  dsimp only
  split
  · rfl
  · exact (State.suspend_hbm _ q _).trans ((((Reports.refl _).deviceEvent _ _ _).reads State.hbm).trans rfl)

/-- R405: a context rebound to another quarter. -/
theorem State.rebindNow_hbm (s : State) (c q : Nat) (lost leaving : Bool) : (s.rebindNow c q lost leaving).hbm = s.hbm := by
  unfold State.rebindNow
  extract_lets e k s1 s2 from_ s3 s4 s5
  have h1 : s1.hbm = s.hbm := by
    unfold s1
    split
    · rfl
    · rfl
  have h2 : s2.hbm = s1.hbm := (State.parkAll_hbm _ c).trans ((State.freeEmptyPlanes_hbm _ c).trans (s1.dropAhead_hbm c))
  have h3 : s3.hbm = s2.hbm := State.modEntry_hbm _ _ _
  have h4 : s4.hbm = s3.hbm := by
    unfold s4
    split
    · exact s3.queueInternal_reads State.hbm _
    · rfl
  have h5 : s5.hbm = s4.hbm := by
    unfold s5
    split
    · exact ((Reports.refl s4).deviceEvent _ _ _).reads State.hbm
    · rfl
  have hbefore : s5.hbm = s.hbm := h5.trans (h4.trans (h3.trans (h2.trans h1)))
  split
  · exact (State.noteOvercommit_hbm _ q).trans ((s5.suspend_hbm q _).trans hbefore)
  · exact hbefore

theorem State.preemptJob_hbm (s : State) (q : Nat) (j : Job) (src : PreemptSource) (displacing : Bool) :
    (s.preemptJob q j src displacing).hbm = s.hbm := congrArg Prod.fst (s.preemptJob_still q j src displacing)

/-- R405: a context whose quarter it may not keep. -/
theorem State.rebindAway_hbm (s : State) (c : Nat) : (s.rebindAway c).hbm = s.hbm := by
  unfold State.rebindAway
  dsimp only
  split
  · split
    · exact s.faultContext_hbm c _
    · rfl
  · next q lost _ =>
    split
    · split
      · exact State.modEntry_hbm _ _ _
      · exact s.rebindNow_hbm c q lost true
    · next q0 j _ =>
      have hpreempted : ((s.modEntry c (fun e => { e with rebindTo := some q })).preemptJob q0 j .displacement true).hbm = s.hbm :=
        (State.preemptJob_hbm _ q0 j _ true).trans (s.modEntry_hbm c _)
      split
      · exact (State.rebindNow_hbm _ c q lost true).trans ((State.modEntry_hbm _ _ _).trans hpreempted)
      · exact hpreempted

/-- R797: every staged field takes effect at one edge, and memory is left. -/
theorem State.installProfile_hbm (s : State) : s.installProfile.hbm = s.hbm := by
  unfold State.installProfile
  extract_lets old oldCap s1 s2 s3 s4 s5
  have h2 : s2.hbm = s1.hbm := (State.cutPower_hbm _ oldCap old).trans ((State.applyClock_hbm _ old).trans (s1.applyRate_hbm old))
  have h3 : s3.hbm = s2.hbm := foldl_reading State.hbm (f := State.advanceEpoch)
    (fun t d => ((PortWork.refl t).advanceEpoch d).reads State.hbm) (List.range 128) s2
  have h4 : s4.hbm = s3.hbm := foldl_reading State.hbm (fun t n => t.reconfigurePort_hbm old.portCfg n) _ s3
  have h5 : s5.hbm = s4.hbm := foldl_reading State.hbm State.returnQuarter_hbm _ s4
  refine (foldl_reading State.hbm (fun t c => ?_) _ s5).trans (h5.trans (h4.trans (h3.trans (h2.trans rfl))))
  split
  · exact t.rebindAway_hbm c
  · rfl

/-- R797, R798: what stands in the set-up after the apply edge. -/
theorem State.installProfile_setup (s : State) : s.installProfile.setup =
    (s.switch.staged, s.switch.number, false, if s.pepoch = 0xFFFFFFFF then 1 else s.pepoch + 1, s.straps, s.levels) := by
  have hedge : Stays true ({ s with
      profile := s.switch.staged, profNum := s.switch.number, profRom := false
      pepoch := if s.pepoch = 0xFFFFFFFF then 1 else s.pepoch + 1 } : State) s.installProfile := by
    unfold State.installProfile
    dsimp only
    refine Stays.foldl _ (fun _ c k => .ite (State.rebindAway_stays c k) k) _ _ ?_
    refine Stays.foldl _ (fun _ x k => State.returnQuarter_stays x k) _ _ ?_
    refine Stays.foldl _ (fun _ n k => State.reconfigurePort_stays _ n k) _ _ ?_
    refine Stays.foldl _ (fun _ d k => State.advanceEpoch_stays d k) _ _ ?_
    exact State.cutHolds_stays (State.rebalance_stays (State.cutPower_stays _ _ (State.applyClock_stays _ (State.applyRate_stays _ (.refl true _)))))
  exact hedge.setup rfl

/-! ### The transactions that were held back -/

theorem Informs.writeRecord {r s : State} (h : Informs r s) (master : Nat) (owner : TxnOwner) (spa : Nat) (bytes : List Byte)
    (after : List Nat) : Informs r (s.writeRecord master owner spa bytes after) :=
  h.trans (.of_reports ((Reports.refl s).writeRecord master owner spa bytes after))

theorem Informs.respond {r s : State} (h : Informs r s) (c : Nat) (pkt : List Byte) (kind code count pepoch : Nat) (after : List Nat) :
    Informs r (s.respond c pkt kind code count pepoch after) :=
  ite (h.writeRecord _ _ _ _ _) ((h.writeRecord _ _ _ _ _).modEntry _ _)

theorem Informs.writeProgress {r s : State} (h : Informs r s) (c : Nat) (after : List Nat) : Informs r (s.writeProgress c after) :=
  ite (h.writeRecord _ _ _ _ _) ((h.writeRecord _ _ _ _ _).modEntry _ _)

theorem Informs.chargeHeld {r s : State} (h : Informs r s) (j : Job) : Informs r (s.chargeHeld j) := by
  unfold State.chargeHeld State.chargeSegment
  dsimp only
  split
  · exact (h.modEntry _ _).ite h
  · exact (h.modEntry _ _).ite h
  · exact h

/-- R331: an aborted segment leaves the switch. -/
theorem State.abortSegment_switch (s : State) (q : Nat) (j : Job) : (s.abortSegment q j).switch = s.switch := by
  unfold State.abortSegment
  extract_lets s0 s1 e s2 s3
  have h0 : s0.switch = s.switch := State.modEntry_switch _ _ _
  have h1 : s1.switch = s0.switch := by
    unfold s1
    split
    · exact State.modEntry_switch _ _ _
    · rfl
  have h2 : s2.switch = s1.switch := by
    unfold s2
    split
    · split
      · dsimp only
        split
        · rfl
        · rfl
      · rfl
    · rfl
  have h3 : s3.switch = s2.switch := by
    unfold s3
    split
    · split
      · split
        · rfl
        · rfl
      · rfl
    · rfl
  have hended : (if j.started = 0 then s3 else s3.modQuarter q (fun u => { u with rotation := { u.rotation with shadowRan := false } })).switch
      = s3.switch := by
    split
    · rfl
    · rfl
  exact hended.trans (h3.trans (h2.trans (h1.trans h0)))

theorem State.dropFloors_switch (s : State) (k : Nat) (iso : Option Nat) : (s.dropFloors k iso).switch = s.switch := by
  unfold State.dropFloors
  dsimp only
  split
  · rfl
  · rfl

theorem State.freeSlot_switch (s : State) (c : Nat) : (s.freeSlot c).switch = s.switch := by
  unfold State.freeSlot
  extract_lets e s1
  have h1 : s1.switch = s.switch := rfl
  split
  · exact h1
  · next k _ =>
    extract_lets s2 s3 s4
    have h3 : s3.switch = s.switch := State.dropFloors_switch s2 k _
    have h4 : s4.switch = s3.switch := by
      unfold s4
      split
      · rfl
      · rfl
    exact (State.modEntry_switch _ _ _).trans (h4.trans h3)

/-- R343: the fault of a context leaves the switch. -/
theorem State.faultContext_switch (s : State) (c : Nat) (i : FaultInfo) : (s.faultContext c i).switch = s.switch := by
  unfold State.faultContext
  split
  · rfl
  · split
    · rfl
    · extract_lets i1 s0 s1 rec_ s2 s3 s4 s5
      have h0 : s0.switch = s.switch := by
        unfold s0
        split
        · exact (State.abortSegment_switch _ _ _).trans (((Informs.refl s).chargeHeld _).reads State.switch)
        · rfl
      have h1 : Informs s0 s1 := (Informs.refl s0).contextEvent _ _ _
      have h2 : Informs s0 s2 := by
        unfold s2
        split
        · exact (h1.respond _ _ _ _ _ _ _).ite h1
        · exact h1
      have h3 : s3.switch = s2.switch := s2.freeSlot_switch c
      have h4 : s4.switch = s3.switch := State.modEntry_switch _ _ _
      have h5 : s5.switch = s4.switch := rfl
      exact (((Informs.refl s5).writeProgress c rec_).reads State.switch).trans
        (h5.trans (h4.trans (h3.trans ((h2.reads State.switch).trans h0))))

theorem State.sendToRequester_switch (s : State) (link sdev : Nat) (bytes : List Byte) :
    (s.sendToRequester link sdev bytes).switch = s.switch := by
  unfold State.sendToRequester
  split
  · rfl
  · rfl

theorem State.answerCpl_switch (s : State) (link tag sdev st : Nat) : (s.answerCpl link tag sdev st).switch = s.switch := by
  refine (State.sendToRequester_switch _ link sdev _).trans ?_
  unfold State.countStatus
  split
  · rfl
  · rfl

/-- R547: the end of a refused transaction of a requester leaves the switch. -/
theorem State.endTxn_inbound_switch {s : State} {t : Txn} {link tag sdev d : Nat} (howner : t.owner = .inbound link tag d sdev)
    {st : Nat} (hst : st ≠ 0) : (s.endTxn t [] [] st).switch = s.switch := by
  unfold State.endTxn
  rw [howner]
  exact (congrArg State.switch (if_pos hst)).trans (State.answerCpl_switch _ link tag sdev st)

theorem State.endTxn_hbm (s : State) (t : Txn) (data : List Byte) (bad : List Nat) (st : Nat) : (s.endTxn t data bad st).hbm = s.hbm :=
  ((KeepsRequests.refl False s).endTxn t data bad st).hbm

/-- R1033: a transaction that was held back goes on, is dropped, or ends as refused. -/
theorem State.reclassify_leaves (s : State) (t : Txn) : (s.reclassify t).hbm = s.hbm ∧ (s.reclassify t).switch = s.switch := by
  unfold State.reclassify
  dsimp only
  split
  · split
    · exact ⟨rfl, rfl⟩
    · exact ⟨(State.faultContext_hbm _ _ _).trans rfl, (State.faultContext_switch _ _ _).trans rfl⟩
  · split <;> exact ⟨rfl, rfl⟩
  · split
    · exact ⟨rfl, rfl⟩
    · split <;> exact ⟨rfl, rfl⟩
  · split
    · exact ⟨rfl, rfl⟩
    · split <;> exact ⟨rfl, rfl⟩
  · exact ⟨rfl, rfl⟩
  · split <;> exact ⟨rfl, rfl⟩
  · next howner =>
    split
    · exact ⟨s.endTxn_hbm t _ _ _, State.endTxn_inbound_switch howner (by decide)⟩
    · split
      · exact ⟨rfl, rfl⟩
      · exact ⟨s.endTxn_hbm t _ _ _, State.endTxn_inbound_switch howner (by decide)⟩
    · exact ⟨rfl, rfl⟩

/-- R1033: the transactions that were held back, in turn. -/
def State.reclassifyHeld (s : State) (held : List Txn) : State :=
  held.foldl (fun s t => if s.inFlight t.id then s.reclassify t else s) s

theorem State.reclassifyHeld_hbm (s : State) (held : List Txn) : (s.reclassifyHeld held).hbm = s.hbm := by
  refine foldl_reading State.hbm (fun u t => ?_) held s
  split
  · exact (u.reclassify_leaves t).1
  · rfl

theorem State.reclassifyHeld_switch (s : State) (held : List Txn) : (s.reclassifyHeld held).switch = s.switch := by
  refine foldl_reading State.switch (fun u t => ?_) held s
  split
  · exact (u.reclassify_leaves t).2
  · rfl

theorem State.reclassifyHeld_setup (s : State) (held : List Txn) : (s.reclassifyHeld held).setup = s.setup :=
  (Stays.foldl (fun (s : State) (t : Txn) => if s.inFlight t.id then s.reclassify t else s) (fun _ t k => .ite (State.reclassify_stays t k) k) held s
    (.refl true s)).setup rfl

/-! ### The apply -/

/-- R797: a suspension leaves the switch and the set-up. -/
theorem State.suspendProfile_switch (s : State) : s.suspendProfile.switch = s.switch := by
  refine foldl_reading State.switch (fun t q => ?_) _ s
  split
  · rfl
  · exact (t.suspend_informs q suspProfile).reads State.switch

theorem State.suspendProfile_setup (s : State) : s.suspendProfile.setup = s.setup :=
  (State.suspendProfile_stays (.refl true s)).setup rfl

/-- R797 to R801: the staged profile is in force, the switch is over, and memory is as it was. -/
theorem State.applySwitch_outcome (s : State) :
    s.applySwitch.setup =
        (s.switch.staged, s.switch.number, false, if s.pepoch = 0xFFFFFFFF then 1 else s.pepoch + 1, s.straps, s.levels) ∧
      s.applySwitch.switch.step = .idle ∧ s.applySwitch.hbm = s.hbm := by
  unfold State.applySwitch
  extract_lets held rinse n s1 switch1 s2 s3 switch3 s4
  have h1 : s1.setup = (s.switch.staged, s.switch.number, false, if s.pepoch = 0xFFFFFFFF then 1 else s.pepoch + 1, s.straps, s.levels) := by
    have hepoch := congrArg (fun x => x.2.2.2.1) s.suspendProfile_setup
    have hstraps := congrArg (fun x => x.2.2.2.2.1) s.suspendProfile_setup
    have hlevels := congrArg (fun x => x.2.2.2.2.2) s.suspendProfile_setup
    dsimp only [State.setup] at hepoch hstraps hlevels
    have hedge := s.suspendProfile.installProfile_setup
    rw [s.suspendProfile_switch, hepoch, hstraps, hlevels] at hedge
    exact hedge
  have h1hbm : s1.hbm = s.hbm := s.suspendProfile.installProfile_hbm.trans (congrArg Prod.fst s.suspendProfile_still)
  clear_value s1
  obtain ⟨es, m, h2⟩ := State.spilledToCandidates_frame { s1 with switch := { switch1 with step := .idle, rinse := false } }
  have h2 : s2 = { s1 with switch := { switch1 with step := .idle, rinse := false }, entries := es, candidates := m } := h2
  have h3 : s3.setup = s2.setup := s2.reclassifyHeld_setup held
  have h3switch : switch3 = s2.switch := s2.reclassifyHeld_switch held
  have h3hbm : s3.hbm = s2.hbm := s2.reclassifyHeld_hbm held
  have h4 : s4.setup = s1.setup := h3.trans (by rw [h2]; rfl)
  have h4step : s4.switch.step = .idle := (congrArg Switch.step h3switch).trans (by rw [h2])
  have h4hbm : s4.hbm = s1.hbm := h3hbm.trans (by rw [h2])
  have hreports := s4.appliedEvent_reports rinse n
  obtain ⟨_, _, _, hshown⟩ := (s4.appliedEvent rinse n).refreshStat_frame
  rw [hshown]
  exact ⟨(hreports.reads State.setup).trans (h4.trans h1), (hreports.reads (·.switch.step)).trans h4step,
    (hreports.reads State.hbm).trans (h4hbm.trans h1hbm)⟩

/-- A rinse that is not under way makes no progress. -/
theorem State.rinseProgress_of_ready {s : State} (h : s.switch.step = .ready) : s.rinseProgress = s := by
  rw [State.rinseProgress, h]
  rfl

theorem exec_profileApply {s : State} (hrunning : s.running = true) (hready : s.ready = true) (hstep : s.switch.step = .ready)
    (hdrained : s.windowBusy = false) (hpassed : s.checkStaged s.switch.staged false = none) : exec .profileApply s = .next s.applySwitch := by
  have hexec : exec .profileApply s = execProfileApply s := rfl
  have happlies : ¬(!s.running || !s.ready) = true := by simp [hrunning, hready]
  have hnow : ¬(s.switch.step != .ready || s.windowBusy) = true := by simp [hstep, hdrained]
  rw [hexec, execProfileApply, if_neg happlies]
  dsimp only
  rw [State.rinseProgress_of_ready hstep, if_neg hnow, hpassed]

theorem exec_profileApply_of_idle {s : State} (hrunning : s.running = true) (hready : s.ready = true) (hidle : s.switch.step = .idle) :
    exec .profileApply s = .next s := by
  have hexec : exec .profileApply s = execProfileApply s := rfl
  have hprogress : s.rinseProgress = s := by
    rw [State.rinseProgress, hidle]
    rfl
  have hwaits : ¬(!s.running || !s.ready) = true := by simp [hrunning, hready]
  rw [hexec, execProfileApply, if_neg hwaits]
  dsimp only
  rw [hprogress, if_pos (by simp [hidle])]

/-- Settles O59: each step of a switch, in its order. -/
theorem profileSwitchesGoThroughTheirSteps : Obligations.ProfileSwitchesGoThroughTheirSteps := by
  unfold Obligations.ProfileSwitchesGoThroughTheirSteps
  intro s hrunning
  refine ⟨fun v hlatched hpins => ?_, fun a hpins hsince hother => ⟨fun hheld => ?_, fun hgap => ?_⟩, exec_pselDebounceDone_of_none,
    fun hready => ⟨fun n hqueued hidle => ⟨fun r => profileSwitchStart_refused hrunning hready hqueued hidle,
      profileSwitchStart_passed hrunning hready hqueued hidle⟩, rinseStart_completes hrunning, fun hrinsing => ?_,
      fun hstep hdrained hpassed => ?_, exec_profileApply_of_idle hrunning hready⟩,
    exec_profileSwitchStart_of_none, exec_rinseTimeout_of_none⟩
  · obtain ⟨htaken, hat, hsame, hnew⟩ := s.switch.sampled_outcome (v % 8) ((s.now / 10000 + 1) * 10000)
    exact ⟨_, exec_pselSample hrunning hlatched hpins v, rfl, htaken, hat, hsame, hnew⟩
  · refine ⟨_, exec_pselDebounceDone hrunning hpins hsince hother, ?_⟩
    rw [if_neg (Nat.not_lt.mpr hheld)]
  · rw [exec_pselDebounceDone hrunning hpins hsince hother, if_pos hgap]
  · obtain ⟨hnow, hidle, hprofile, hhbm, -⟩ :=
      (s.advanceTo (s.switch.rinseAt + 100000000)).abandonSwitch_outcome { code := Code.rinseTimeout }
    exact ⟨_, exec_rinseTimeout hrunning hrinsing, hprofile, hhbm, hidle, hnow⟩
  · obtain ⟨hsetup, hidle, hhbm⟩ := s.applySwitch_outcome
    obtain ⟨hprofile, hnumber, hrom, hepoch, -, -⟩ : s.applySwitch.profile = s.switch.staged ∧ s.applySwitch.profNum = s.switch.number ∧
        s.applySwitch.profRom = false ∧ s.applySwitch.pepoch = (if s.pepoch = 0xFFFFFFFF then 1 else s.pepoch + 1) ∧
        s.applySwitch.straps = s.straps ∧ s.applySwitch.levels = s.levels := by
      simpa only [State.setup, Prod.mk.injEq] using hsetup
    exact ⟨_, exec_profileApply hrunning hready hstep hdrained hpassed, hprofile, hnumber, hrom, hepoch, hidle, congrArg Hbm.mem hhbm⟩

end Sys2Proof.Machine
end

section
/-! SUPPORT. Proof of the obligation on the value writes of a commit: a staged line becomes its tile's line (R97), every other line keeps what it
serves, and the lines released at the commit are none of them. -/
namespace Sys2Proof.Machine

/-! ### Keyed lists in rising order -/

theorem mem_of_mem_assocPut {β : Type} {k : Nat} {v : β} {x : Nat × β} : ∀ {l : List (Nat × β)},
    x ∈ assocPut l k v → x = (k, v) ∨ x ∈ l
  | [], h => .inl (List.mem_singleton.mp h)
  | (k', v') :: rest, h => by
    unfold assocPut at h
    split at h
    · exact List.mem_cons.mp h
    · split at h
      · exact (List.mem_cons.mp h).imp_right (List.mem_cons_of_mem _)
      · obtain rfl | hmem := List.mem_cons.mp h
        · exact .inr (List.mem_cons_self ..)
        · exact (mem_of_mem_assocPut hmem).imp_right (List.mem_cons_of_mem _)

theorem assocPut_rising {β : Type} {k : Nat} {v : β} : ∀ {l : List (Nat × β)}, (l.map (·.1)).Pairwise (· < ·) →
    ((assocPut l k v).map (·.1)).Pairwise (· < ·)
  | [], _ => List.pairwise_singleton _ _
  | (k', v') :: rest, h => by
    obtain ⟨hfirst, hrest⟩ := List.pairwise_cons.mp h
    unfold assocPut
    split
    · next hlt =>
      refine List.pairwise_cons.mpr ⟨fun m hm => ?_, h⟩
      obtain rfl | hm := List.mem_cons.mp hm
      · exact hlt
      · exact Nat.lt_trans hlt (hfirst m hm)
    · next hle =>
      split
      · next heq => exact List.pairwise_cons.mpr ⟨heq ▸ hfirst, hrest⟩
      · next hne =>
        refine List.pairwise_cons.mpr ⟨fun m hm => ?_, assocPut_rising hrest⟩
        obtain ⟨x, hx, rfl⟩ := List.mem_map.mp hm
        obtain rfl | hmem := mem_of_mem_assocPut hx
        · exact Nat.lt_of_le_of_ne (Nat.not_lt.mp hle) (Ne.symm hne)
        · exact hfirst _ (List.mem_map.mpr ⟨x, hmem, rfl⟩)

theorem assocDel_rising {β : Type} {k : Nat} {l : List (Nat × β)} (h : (l.map (·.1)).Pairwise (· < ·)) :
    ((assocDel l k).map (·.1)).Pairwise (· < ·) :=
  h.sublist (List.filter_sublist.map _)

theorem assocGet_del_of_ne {β : Type} {k j : Nat} (h : j ≠ k) : ∀ l : List (Nat × β), assocGet (assocDel l k) j = assocGet l j
  | [] => rfl
  | (k', v) :: rest => by
    have ih := assocGet_del_of_ne h rest
    unfold assocDel at ih ⊢
    by_cases hk : k' = k
    · simp [hk, Ne.symm h, assocGet, ih]
    · simp [hk, assocGet, ih]

theorem mem_of_assocGet {β : Type} {k : Nat} {v : β} : ∀ {l : List (Nat × β)}, assocGet l k = some v → (k, v) ∈ l
  | (k', v') :: rest, h => by
    rw [assocGet] at h
    split at h
    · next hk =>
      cases h
      exact hk ▸ List.mem_cons_self ..
    · exact List.mem_cons_of_mem _ (mem_of_assocGet h)

theorem mem_iff_assocGet {β : Type} {l : List (Nat × β)} (h : (l.map (·.1)).Pairwise (· < ·)) {k : Nat} {v : β} :
    (k, v) ∈ l ↔ assocGet l k = some v := by
  refine ⟨fun hmem => ?_, mem_of_assocGet⟩
  obtain ⟨w, hw⟩ := Option.ne_none_iff_exists'.mp (assocGet_ne_none_of_mem hmem)
  exact hw.trans (congrArg (some ·.2) (eq_of_rising h (mem_of_assocGet hw) hmem rfl))

/-! ### Slices whose lines each serve one owner -/

/-- R96a: no two lines serve one owner. -/
theorem Slice.oneOwner_iff {sl : Slice} : sl.OneOwner ↔ (sl.lines.map (·.1)).Pairwise (· < ·) ∧
    ∀ l m u v, assocGet sl.lines l = some u → assocGet sl.lines m = some v → u.owner = v.owner → l = m := by
  refine and_congr_right (fun hrising => ?_)
  have hnodup : sl.lines.Nodup := List.Nodup.of_map _ (hrising.imp Nat.ne_of_lt)
  rw [List.nodup_map_iff_inj_on hnodup]
  constructor
  · intro h l m u v hu hv hown
    exact congrArg Prod.fst (h _ (mem_of_assocGet hu) _ (mem_of_assocGet hv) hown)
  · rintro h ⟨l, u⟩ hu ⟨m, v⟩ hv hown
    have hu := (mem_iff_assocGet hrising).mp hu
    have hv := (mem_iff_assocGet hrising).mp hv
    obtain rfl := h l m u v hu hv hown
    exact congrArg (Prod.mk l) (Option.some.inj (hu.symm.trans hv))

theorem Slice.OneOwner.lineOf_iff {sl : Slice} (h : sl.OneOwner) {o : LineOwner} {l : Nat} :
    sl.lineOf o = some l ↔ ∃ u, assocGet sl.lines l = some u ∧ u.owner = o := by
  constructor
  · intro hl
    obtain ⟨x, hx, rfl, howner⟩ := Slice.mem_of_lineOf hl
    exact ⟨x.2, (mem_iff_assocGet h.1).mp hx, howner⟩
  · rintro ⟨u, hu, howner⟩
    cases hm : sl.lineOf o with
    | none =>
      have hnone := List.find?_eq_none.mp (Option.map_eq_none_iff.mp hm) _ (mem_of_assocGet hu)
      exact absurd howner (by simpa using hnone)
    | some m =>
      obtain ⟨x, hx, rfl, hxo⟩ := Slice.mem_of_lineOf hm
      exact congrArg some ((Slice.oneOwner_iff.mp h).2 _ _ _ _ ((mem_iff_assocGet h.1).mp hx) hu (hxo.trans howner.symm))

/-- A line that is released leaves every other its one owner. -/
theorem Slice.OneOwner.release {sl : Slice} (h : sl.OneOwner) (l : Nat) : (sl.release l).OneOwner := by
  unfold Slice.OneOwner
  rw [Slice.release_lines]
  exact ⟨assocDel_rising h.1, h.2.sublist (List.filter_sublist.map _)⟩

theorem Slice.OneOwner.releaseWhere {sl : Slice} (h : sl.OneOwner) (p : LineOwner → Bool) : (sl.releaseWhere p).OneOwner := by
  unfold Slice.releaseWhere
  generalize sl.lines.filter _ = ys
  induction ys generalizing sl with
  | nil => exact h
  | cons y ys ih => exact ih (h.release y.1)

/-! ### What a slice tells of the line that serves an owner -/

/-- A line, its metadata word, whether it is lost, and its payload as stored. -/
structure LineView where
  line : Nat
  word : Meta
  lost : Bool
  stored : Option Tile

/-- What a slice tells of a line. -/
def Slice.view (sl : Slice) (l : Nat) : LineView :=
  { line := l, word := sl.word l, lost := sl.lost.contains l, stored := assocGet sl.payload (sl.payKey l) }

/-- What a slice tells of the line that serves an owner. -/
def Slice.viewOf (sl : Slice) (o : LineOwner) : Option LineView := (sl.lineOf o).map sl.view

theorem Slice.lineOf_eq_view (sl : Slice) (o : LineOwner) : sl.lineOf o = (sl.viewOf o).map (·.line) := by
  rw [Slice.viewOf, Option.map_map]
  exact Option.map_id'.symm

/-- Two slices in which an owner has the same line, of which they tell the same. -/
theorem Slice.viewOf_congr {sl sl' : Slice} {o : LineOwner} (hline : sl'.lineOf o = sl.lineOf o)
    (hview : ∀ l, sl.lineOf o = some l → sl'.view l = sl.view l) : sl'.viewOf o = sl.viewOf o := by
  rw [Slice.viewOf, Slice.viewOf, hline]
  exact Option.map_congr hview

/-- R122: a refund leaves what is stored, and where. -/
theorem Slice.refund_stored (sl : Slice) (c : Charge) : (sl.refund c).payload = sl.payload ∧ (sl.refund c).serves = sl.serves := by
  cases c with
  | window => exact ⟨rfl, rfl⟩
  | floor k =>
    simp only [Slice.refund]
    split <;> exact ⟨rfl, rfl⟩
  | shared => exact ⟨rfl, rfl⟩
  | reserve =>
    simp only [Slice.refund]
    split <;> exact ⟨rfl, rfl⟩

/-- What is told of a line whose word stays, where losses, payloads and banks do. -/
theorem Slice.view_congr {sl sl' : Slice} {l : Nat} (hword : sl'.word l = sl.word l) (hlost : sl'.lost = sl.lost)
    (hpay : sl'.payload = sl.payload) (hserves : sl'.serves = sl.serves) : sl'.view l = sl.view l := by
  simp only [Slice.view, hword, hlost, hpay, Slice.payKey, Slice.bankOf, hserves]

theorem Slice.release_view (sl : Slice) {l n : Nat} (h : n ≠ l) : (sl.release l).view n = sl.view n := by
  have hstored : (sl.release l).payload = sl.payload ∧ (sl.release l).serves = sl.serves := by
    unfold Slice.release
    split
    · exact Slice.refund_stored _ _
    · exact ⟨rfl, rfl⟩
  exact Slice.view_congr (sl.release_word h) (sl.release_lost l) hstored.1 hstored.2

/-- A line that does not serve an owner, released, leaves what is told of that owner's. -/
theorem Slice.release_viewOf {sl : Slice} {l : Nat} {o : LineOwner} (h : ∀ x ∈ sl.lines, x.1 = l → x.2.owner ≠ o) :
    (sl.release l).viewOf o = sl.viewOf o := by
  refine Slice.viewOf_congr ?_ (fun n hn => sl.release_view ?_)
  · rw [Slice.lineOf, Slice.release_lines]
    exact congrArg (Option.map Prod.fst) (find?_assocDel (fun x hx hl => decide_eq_false (h x hx hl)))
  · obtain ⟨x, hx, rfl, howner⟩ := Slice.mem_of_lineOf hn
    exact fun hl => h x hx hl howner

theorem Slice.foldl_release_viewOf {o : LineOwner} : ∀ (ys : List (Nat × LineUse)) (sl : Slice),
    (∀ y ∈ ys, ∀ x ∈ sl.lines, x.1 = y.1 → x.2.owner ≠ o) → (ys.foldl (fun sl y => sl.release y.1) sl).viewOf o = sl.viewOf o
  | [], _, _ => rfl
  | y :: ys, sl, h => by
    obtain ⟨hy, hys⟩ := List.forall_mem_cons.mp h
    refine (Slice.foldl_release_viewOf ys _ (fun z hz x hx => hys z hz x ?_)).trans (Slice.release_viewOf hy)
    rw [Slice.release_lines] at hx
    exact (List.mem_filter.mp hx).1

/-- The release of the lines of other owners leaves what is told of an owner's. -/
theorem Slice.OneOwner.releaseWhere_viewOf {sl : Slice} (h : sl.OneOwner) {p : LineOwner → Bool} {o : LineOwner} (hp : p o = false) :
    (sl.releaseWhere p).viewOf o = sl.viewOf o := by
  refine Slice.foldl_release_viewOf _ sl (fun y hy x hx hxy howner => ?_)
  obtain ⟨hmem, hpy⟩ := List.mem_filter.mp hy
  obtain rfl := eq_of_rising h.1 hx hmem hxy
  rw [howner, hp] at hpy
  cases hpy

/-! ### A staged line becomes its tile's line -/

/-- R97: the lines in use after a staged line has become the line of tile `n` of slot `k`. -/
theorem Slice.swap_get {sl : Slice} {l : Nat} {u : LineUse} (hu : assocGet sl.lines l = some u) (k n m : Nat) :
    assocGet (sl.swap k n l).lines m = if m = l then some { owner := .window k n, charge := .window }
      else if sl.lineOf (.window k n) = some m then none else assocGet sl.lines m := by
  unfold Slice.swap
  rw [hu]
  dsimp only
  rw [(Slice.refund_keeps _ _).1, assocGet_put]
  refine if_congr Iff.rfl rfl ?_
  cases hold : sl.lineOf (.window k n) with
  | none => rfl
  | some o =>
    dsimp only [Slice.setTile]
    by_cases hm : m = o
    · rw [hm, if_pos rfl, assocGet_del]
    · rw [if_neg (fun h => hm (Option.some.inj h).symm), assocGet_del_of_ne hm]

/-- R97, R86: the words after it, `tile` 0 in that of the line before. -/
theorem Slice.swap_word {sl : Slice} {k n m : Nat} (h : sl.lineOf (.window k n) ≠ some m) (l : Nat) :
    (sl.swap k n l).word m = sl.word m := by
  unfold Slice.swap
  split
  · rfl
  · dsimp only
    rw [Slice.word, (Slice.refund_keeps _ _).2.1]
    split
    · next o ho =>
      rw [ho] at h
      simp only [Slice.setTile, assocGet_put, if_neg (fun hm : m = o => h (congrArg some hm.symm))]
      rfl
    · rfl

theorem Slice.swap_stored (sl : Slice) (k n l : Nat) :
    (sl.swap k n l).lost = sl.lost ∧ (sl.swap k n l).payload = sl.payload ∧ (sl.swap k n l).serves = sl.serves := by
  unfold Slice.swap
  split
  · exact ⟨rfl, rfl, rfl⟩
  · dsimp only
    rw [(Slice.refund_keeps _ _).2.2, (Slice.refund_stored _ _).1, (Slice.refund_stored _ _).2]
    split <;> exact ⟨rfl, rfl, rfl⟩

theorem Slice.swap_rising {sl : Slice} (h : (sl.lines.map (·.1)).Pairwise (· < ·)) (k n l : Nat) :
    ((sl.swap k n l).lines.map (·.1)).Pairwise (· < ·) := by
  unfold Slice.swap
  split
  · exact h
  · dsimp only
    rw [(Slice.refund_keeps _ _).1]
    split
    · exact assocPut_rising (assocDel_rising h)
    · exact assocPut_rising h

/-- R87, R97: a value write of a tile: the line staged for it becomes its line, with the word written. -/
def Slice.commitValue (sl : Slice) (k n l : Nat) (w : Meta) : Slice := (sl.swap k n l).writeWord l w

section
variable {sl : Slice} {c k n l : Nat}

theorem Slice.OneOwner.commitValue (h : sl.OneOwner) (hl : sl.lineOf (.staged c n) = some l) (w : Meta) :
    (sl.commitValue k n l w).OneOwner := by
  obtain ⟨u, hu, -⟩ := h.lineOf_iff.mp hl
  obtain ⟨hrising, hinj⟩ := Slice.oneOwner_iff.mp h
  have hnew : ∀ m v, assocGet sl.lines m = some v → v.owner = .window k n → sl.lineOf (.window k n) = some m :=
    fun m v hv howner => h.lineOf_iff.mpr ⟨v, hv, howner⟩
  refine Slice.oneOwner_iff.mpr ⟨Slice.swap_rising hrising k n l, fun a b v w hv hw hown => ?_⟩
  replace hv := (Slice.swap_get hu k n a).symm.trans hv
  replace hw := (Slice.swap_get hu k n b).symm.trans hw
  by_cases ha : a = l <;> by_cases hb : b = l
  · rw [ha, hb]
  · rw [if_pos ha, Option.some.injEq] at hv
    rw [if_neg hb] at hw
    split at hw
    · cases hw
    · next hne => exact absurd (hnew b w hw (hown.symm.trans (congrArg LineUse.owner hv.symm))) hne
  · rw [if_pos hb, Option.some.injEq] at hw
    rw [if_neg ha] at hv
    split at hv
    · cases hv
    · next hne => exact absurd (hnew a v hv (hown.trans (congrArg LineUse.owner hw.symm))) hne
  · rw [if_neg ha] at hv
    rw [if_neg hb] at hw
    split at hv
    · cases hv
    · split at hw
      · cases hw
      · exact hinj a b v w hv hw hown

/-- The tile's line is the one that was staged, with its payload and the word written. -/
theorem Slice.OneOwner.commitValue_viewOf (h : sl.OneOwner) (hl : sl.lineOf (.staged c n) = some l) (w : Meta) :
    (sl.commitValue k n l w).viewOf (.window k n) = (sl.viewOf (.staged c n)).map (fun v => { v with word := w }) := by
  obtain ⟨u, hu, -⟩ := h.lineOf_iff.mp hl
  have hline : (sl.commitValue k n l w).lineOf (.window k n) = some l :=
    (h.commitValue hl w).lineOf_iff.mpr ⟨_, (Slice.swap_get hu k n l).trans (if_pos rfl), rfl⟩
  obtain ⟨hlost, hpay, hserves⟩ := sl.swap_stored k n l
  rw [Slice.viewOf, Slice.viewOf, hline, hl]
  simp only [Option.map_some, Slice.view, Slice.commitValue, Slice.writeWord, Slice.word, assocGet_put, hlost, hpay,
    Slice.payKey, Slice.bankOf, hserves]
  rfl

/-- The line of every other owner stays as it is. -/
theorem Slice.OneOwner.commitValue_viewOf_of_ne (h : sl.OneOwner) (hl : sl.lineOf (.staged c n) = some l) (w : Meta) {o : LineOwner}
    (hwindow : o ≠ .window k n) (hstaged : o ≠ .staged c n) : (sl.commitValue k n l w).viewOf o = sl.viewOf o := by
  obtain ⟨u, hu, howner⟩ := h.lineOf_iff.mp hl
  have hother : ∀ m, sl.lineOf o = some m → m ≠ l ∧ sl.lineOf (.window k n) ≠ some m := fun m hm => by
    obtain ⟨v, hv, hvo⟩ := h.lineOf_iff.mp hm
    refine ⟨?_, fun hm' => ?_⟩
    · rintro rfl
      obtain rfl := Option.some.inj (hu.symm.trans hv)
      exact hstaged (hvo.symm.trans howner)
    · obtain ⟨v', hv', hvo'⟩ := h.lineOf_iff.mp hm'
      obtain rfl := Option.some.inj (hv.symm.trans hv')
      exact hwindow (hvo.symm.trans hvo')
  refine Slice.viewOf_congr (Option.ext (fun m => ?_)) (fun m hm => ?_)
  · rw [(h.commitValue hl w).lineOf_iff, h.lineOf_iff]
    refine exists_congr (fun v => ?_)
    rw [show assocGet (sl.commitValue k n l w).lines m = _ from Slice.swap_get hu k n m]
    constructor
    · rintro ⟨hv, hvo⟩
      split at hv
      · exact absurd (hvo.symm.trans (Option.some.inj hv ▸ rfl)) hwindow
      · split at hv
        · cases hv
        · exact ⟨hv, hvo⟩
    · rintro ⟨hv, hvo⟩
      obtain ⟨hne, hold⟩ := hother m (h.lineOf_iff.mpr ⟨v, hv, hvo⟩)
      exact ⟨by rw [if_neg hne, if_neg hold]; exact hv, hvo⟩
  · obtain ⟨hne, hold⟩ := hother m hm
    obtain ⟨hlost, hpay, hserves⟩ := sl.swap_stored k n l
    refine Slice.view_congr ?_ hlost hpay hserves
    rw [← Slice.swap_word hold l, Slice.commitValue, Slice.writeWord, Slice.word, assocGet_put, if_neg hne]
    rfl

end

/-! ### Tiles by what their slice tells of their line -/

theorem State.tileWord_eq_view {s : State} {c k n i : Nat} (hplace : (s.entry c).place n = (some k, i)) :
    s.tileWord c n = (((s.slice i).viewOf (.window k n)).map (·.word)).getD {} := by
  obtain ⟨hslot, rfl⟩ := Prod.mk.injEq .. ▸ hplace
  simp only [State.tileWord, State.tileLine, hslot, Slice.viewOf]
  cases (s.slice ((s.entry c).sliceOf n)).lineOf (.window k n) <;> rfl

theorem Entry.place_of_slot {e : Entry} {k : Nat} (h : e.slot = some k) (n : Nat) : e.place n = (some k, e.sliceOf n) := by
  rw [Entry.place, h]

theorem State.readTile_of_view {s : State} {c k n i : Nat} {v : LineView} (hplace : (s.entry c).place n = (some k, i))
    (hv : (s.slice i).viewOf (.window k n) = some v) :
    s.readTile c n = if v.word.zsrc then Tile.zero else if v.lost then Tile.poisoned else v.stored.getD Tile.zero := by
  obtain ⟨hslot, rfl⟩ := Prod.mk.injEq .. ▸ hplace
  obtain ⟨l, hl, rfl⟩ := Option.map_eq_some_iff.mp hv
  simp only [State.readTile, State.tileLine, hslot, hl, Option.map_some]
  rfl

/-! ### The value writes of a commit -/

theorem State.commitTile_of_value {x : StagedTile} {l : Nat} (h : x.line = some l) (s : State) (c : Nat) :
    s.commitTile c x = (s.modSlice ((s.entry c).sliceOf x.tile) (fun sl => sl.commitValue ((s.entry c).slot.getD 0) x.tile l
      (metaValue (s.tileWord c x.tile) x.tile x.rows))).dropTilePegs ((s.entry c).slot.getD 0) x.tile := by
  unfold State.commitTile
  rw [h]
  rfl

/-- R87, R97: what the value writes of context `c` in slot `k` come to: each of the tiles has the line staged for it, with the word of a value
write over that of its line before; window and staged lines of other tiles stay; each line serves one owner. -/
structure State.CommitsValues (s t : State) (c k : Nat) (xs : List StagedTile) : Prop where
  entries : t.entries = s.entries
  oneOwner : ∀ i, (t.slice i).OneOwner
  written : ∀ x ∈ xs, (t.slice ((s.entry c).sliceOf x.tile)).viewOf (.window k x.tile) =
    ((s.slice ((s.entry c).sliceOf x.tile)).viewOf (.staged c x.tile)).map (fun v =>
      { v with word := metaValue (s.tileWord c x.tile) x.tile x.rows })
  others : ∀ n, n ∉ xs.map (·.tile) → ∀ i, (t.slice i).viewOf (.window k n) = (s.slice i).viewOf (.window k n) ∧
    (t.slice i).viewOf (.staged c n) = (s.slice i).viewOf (.staged c n)

theorem State.commitTile_commitsValues {s : State} {c k l : Nat} {x : StagedTile} (hslot : (s.entry c).slot = some k)
    (howner : ∀ i, (s.slice i).OneOwner) (hline : x.line = some l) (hstaged : s.stagedLine c x.tile = some l) :
    s.CommitsValues (s.commitTile c x) c k [x] := by
  have hslice : ∀ i, (s.commitTile c x).slice i = if i = (s.entry c).sliceOf x.tile then
      (s.slice ((s.entry c).sliceOf x.tile)).commitValue k x.tile l (metaValue (s.tileWord c x.tile) x.tile x.rows)
      else s.slice i := fun i => by
    rw [State.commitTile_of_value hline, hslot]
    exact s.modSlice_slice i _ (State.slice_lt_of_lineOf hstaged)
  have hone := howner ((s.entry c).sliceOf x.tile)
  refine ⟨s.commitTile_entries c x, fun i => ?_, fun y hy => ?_, fun n hn i => ?_⟩
  · rw [hslice]
    split
    · exact hone.commitValue hstaged _
    · exact howner i
  · rw [List.mem_singleton.mp hy, hslice, if_pos rfl]
    exact hone.commitValue_viewOf hstaged _
  · have hne : n ≠ x.tile := fun h => hn (List.mem_singleton.mpr h)
    rw [hslice]
    split
    · next hi =>
      rw [hi]
      exact ⟨hone.commitValue_viewOf_of_ne hstaged _ (by simp [hne]) (by simp),
        hone.commitValue_viewOf_of_ne hstaged _ (by simp) (by simp [hne])⟩
    · exact ⟨rfl, rfl⟩

theorem State.foldl_commitTile_commitsValues {c k : Nat} : ∀ {xs : List StagedTile} {s : State}, (s.entry c).slot = some k →
    (∀ i, (s.slice i).OneOwner) → (xs.map (·.tile)).Nodup → (∀ x ∈ xs, ∃ l, x.line = some l ∧ s.stagedLine c x.tile = some l) →
    s.CommitsValues (xs.foldl (fun s x => s.commitTile c x) s) c k xs
  | [], _, _, howner, _, _ => ⟨rfl, howner, (fun _ h => nomatch h), fun _ _ _ => ⟨rfl, rfl⟩⟩
  | x :: xs, s, hslot, howner, hnodup, hlines => by
    obtain ⟨hnew, hnodup⟩ := List.nodup_cons.mp hnodup
    obtain ⟨⟨l, hline, hstaged⟩, hxs⟩ := List.forall_mem_cons.mp hlines
    have hone := State.commitTile_commitsValues hslot howner hline hstaged
    have hentry : (s.commitTile c x).entry c = s.entry c := by rw [State.entry, hone.entries]; rfl
    have hother : ∀ y ∈ xs, y.tile ∉ [x].map (·.tile) := fun y hy h =>
      hnew (List.mem_map.mpr ⟨y, hy, List.mem_singleton.mp h⟩)
    have hrest : (s.commitTile c x).CommitsValues (xs.foldl (fun s x => s.commitTile c x) (s.commitTile c x)) c k xs := by
      refine State.foldl_commitTile_commitsValues (hentry ▸ hslot) hone.oneOwner hnodup (fun y hy => ?_)
      obtain ⟨m, hm, hsm⟩ := hxs y hy
      refine ⟨m, hm, ?_⟩
      rw [State.stagedLine, hentry, Slice.lineOf_eq_view, (hone.others _ (hother y hy) _).2, ← Slice.lineOf_eq_view]
      exact hsm
    refine ⟨hrest.entries.trans hone.entries, hrest.oneOwner, fun y hy => ?_, fun n hn i => ?_⟩
    · obtain rfl | hy := List.mem_cons.mp hy
      · exact ((hrest.others _ hnew _).1).trans (hone.written y (List.mem_singleton_self y))
      · have hword : (s.commitTile c x).tileWord c y.tile = s.tileWord c y.tile := by
          have hplace := Entry.place_of_slot hslot y.tile
          rw [State.tileWord_eq_view ((congrArg (·.place y.tile) hentry).trans hplace), State.tileWord_eq_view hplace,
            (hone.others _ (hother y hy) _).1]
        have hwritten := hrest.written y hy
        rwa [hentry, hword, (hone.others _ (hother y hy) _).2] at hwritten
    · rw [List.map_cons, List.mem_cons, not_or] at hn
      obtain ⟨hnx, hn⟩ := hn
      have hfirst := hone.others n (fun h => hnx (List.mem_singleton.mp h)) i
      exact ⟨(hrest.others n hn i).1.trans hfirst.1, (hrest.others n hn i).2.trans hfirst.2⟩

/-! ### The commit -/

/-- R324: of a segment that resets no plane the tiles written, and then the lines released, are all that its commit does to the slices. -/
theorem State.commitStore_slice {op : Op} (hopc : ¬(opcOf op.pkt = 0x20 ∨ opcOf op.pkt = 0x24)) (s : State) (c : Nat) (j : Job) (i : Nat) :
    (s.commitStore c j op).slice i =
      ((j.staged.foldl (fun s x => s.commitTile c x) s).slice i).releaseWhere (LineOwner.endsWith c (j.base + j.len)) := by
  rw [State.commitStore, State.releaseCommitted_slice, if_neg hopc]
  split
  · rw [State.slice, State.setLive, State.modEntry_slices]
    rfl
  · rfl

theorem State.commitStore_place {op : Op} (hopc : ¬(opcOf op.pkt = 0x20 ∨ opcOf op.pkt = 0x24)) (s : State) (c : Nat) (j : Job) (n : Nat) :
    ((s.commitStore c j op).entry c).place n = (s.entry c).place n := by
  have hentry : ∀ u : State, u.entries = s.entries → (u.entry c).place n = (s.entry c).place n := fun u hu => by
    rw [State.entry, hu]; rfl
  have hentries := State.foldl_commitTile_entries c j.staged s
  rw [State.commitStore, if_neg hopc]
  split
  · exact (State.modEntry_leaves _ (f := fun e => e.modPlane _ _) (·.place n) c c (fun _ => rfl)).trans (hentry _ hentries)
  · exact hentry _ hentries

/-- R87, R97, R324: at the commit of a segment with value writes each tile has the line staged for it, with the word of a value write; each line
serves one owner. -/
theorem State.commitSegment_commitsValues {s : State} {q held k : Nat} {j : Job} {op : Op} (hkind : j.kind = .op)
    (hyield : j.yielding = false) (hrebind : (s.entry j.ctx).rebindTo = none) (hop : (s.entry j.ctx).headOp = some op)
    (hspl : opcOf op.pkt ≠ 0x03) (hopc : ¬(opcOf op.pkt = 0x20 ∨ opcOf op.pkt = 0x24)) (hslot : (s.entry j.ctx).slot = some k)
    (howner : ∀ i, (s.slice i).OneOwner) (hnodup : (j.staged.map (·.tile)).Nodup)
    (hlines : ∀ x ∈ j.staged, ∃ l, x.line = some l ∧ s.stagedLine j.ctx x.tile = some l) :
    (∀ i, ((s.commitSegment q held j).slice i).OneOwner) ∧
      (∀ n, ((s.commitSegment q held j).entry j.ctx).place n = (s.entry j.ctx).place n) ∧
      ∀ x ∈ j.staged, ((s.commitSegment q held j).slice ((s.entry j.ctx).sliceOf x.tile)).viewOf (.window k x.tile) =
        ((s.slice ((s.entry j.ctx).sliceOf x.tile)).viewOf (.staged j.ctx x.tile)).map (fun v =>
          { v with word := metaValue (s.tileWord j.ctx x.tile) x.tile x.rows }) := by
  obtain ⟨u, hu, -, hcommit⟩ := State.commitSegment_keepsStore (q := q) (held := held) hkind hyield hrebind hop hspl
  have hslice := fun i => hu.slice i
  have hsliceOf := fun n => hu.entry_eq j.ctx (·.sliceOf n)
  have huslot := (hu.entry_eq j.ctx Entry.slot).trans hslot
  have hcommits : u.CommitsValues (j.staged.foldl (fun s x => s.commitTile j.ctx x) u) j.ctx k j.staged := by
    refine State.foldl_commitTile_commitsValues huslot (fun i => by rw [hslice]; exact howner i) hnodup (fun x hx => ?_)
    rw [State.stagedLine, hsliceOf, hslice]
    exact hlines x hx
  have hfinal := fun i => (hcommit.slice i).trans (State.commitStore_slice hopc u j.ctx j i)
  refine ⟨fun i => ?_, fun n => ?_, fun x hx => ?_⟩
  · rw [hfinal]
    exact (hcommits.oneOwner i).releaseWhere _
  · exact (hcommit.entry_eq j.ctx (·.place n)).trans ((State.commitStore_place hopc u j.ctx j n).trans (hu.entry_eq j.ctx (·.place n)))
  · have hwritten := hcommits.written x hx
    rw [State.tileWord_eq_view (Entry.place_of_slot huslot x.tile), hsliceOf, hslice,
      ← State.tileWord_eq_view (Entry.place_of_slot hslot x.tile)] at hwritten
    rw [hfinal, (hcommits.oneOwner _).releaseWhere_viewOf rfl]
    exact hwritten

/-- Settles O44: the line staged for each tile is its line after the commit, with the word of a value write. -/
theorem committedTilesReadAsStaged : Obligations.CommittedTilesReadAsStaged := by
  unfold Obligations.CommittedTilesReadAsStaged
  intro s q tr held j op k hq htr hfind hkind hyield hrebind hop hslot hlen howner hnodup hsome hopcs hstaged
  obtain ⟨hseed, hclose, hspl⟩ := hopcs
  have hlines : ∀ x ∈ j.staged, ∃ l, x.line = some l ∧ s.stagedLine j.ctx x.tile = some l := fun x hx => by
    obtain ⟨l, hl⟩ := Option.isSome_iff_exists.mp (hsome x hx)
    exact ⟨l, hl, (hstaged x hx l hl).1⟩
  obtain ⟨hone, hplace, hwritten⟩ := State.commitSegment_commitsValues (q := q) (held := held) hkind hyield hrebind hop hspl
    (not_or.mpr ⟨hseed, hclose⟩) hslot howner hnodup hlines
  refine ⟨_, exec_segmentCommit_of_job hq htr hfind, fun x hx => ?_, hone⟩
  obtain ⟨l, hl, hsl⟩ := hlines x hx
  obtain ⟨-, hlost, hstored⟩ := hstaged x hx l hl
  have hplaced := (hplace x.tile).trans (Entry.place_of_slot hslot x.tile)
  have hview := hwritten x hx
  rw [show (s.slice _).viewOf (.staged j.ctx x.tile) = _ from congrArg (Option.map (Slice.view _)) hsl, Option.map_some] at hview
  refine ⟨(State.readTile_of_view hplaced hview).trans ?_, ?_⟩
  · simp [Slice.view, metaValue, hlost, hstored]
  · rw [State.tileWord_eq_view hplaced, hview]
    rfl

end Sys2Proof.Machine
end

section
/-! SUPPORT. Proofs about the refresh of a row (R137 to R139, R143): what it does to its slice, and the obligation on TRF_REFRESH and
TRF_REFRESH_URGENT. -/
namespace Sys2Proof.Machine

/-! ### The row that a bank refreshes -/

/-- R137: bank `b` of a slice has refreshed row `row`. -/
def Slice.pastRow (sl : Slice) (b row : Nat) : Slice :=
  sl.modBank b (fun k => { k with refRow := (row + 1) % 256, refSweep := if row = 255 then k.refSweep + 1 else k.refSweep })

/-- R137, R147: bank `b` of a slice refreshes row `row`, and with it the handover that it is the source of goes on. -/
def Slice.refreshRow (sl : Slice) (b row : Nat) : Slice :=
  match (sl.pastRow b row).handover with
  | some h => if h.source = b then (sl.pastRow b row).handoverRow h row else sl.pastRow b row
  | none => sl.pastRow b row

theorem Slice.handoverRow_banks (sl : Slice) (h : Handover) (row : Nat) : (sl.handoverRow h row).banks = sl.banks := by
  unfold Slice.handoverRow
  dsimp only
  split
  · rfl
  · split <;> rfl

theorem Slice.refreshRow_banks (sl : Slice) (b row : Nat) : (sl.refreshRow b row).banks = (sl.pastRow b row).banks := by
  unfold Slice.refreshRow
  split
  · split
    · exact Slice.handoverRow_banks _ _ _
    · rfl
  · rfl

theorem Slice.refreshRow_refRow {sl : Slice} {b : Nat} (hb : b < sl.banks.length) (row : Nat) :
    ((sl.refreshRow b row).banks.getD b {}).refRow = (row + 1) % 256 := by
  rw [Slice.refreshRow_banks]
  exact congrArg Bank.refRow ((getD_modAt _ _ _ _ _ hb).trans (if_pos rfl))

/-- R132: a refresh leaves every line as it reads, where no handover runs. -/
theorem Slice.refreshRow_readLine {sl : Slice} (h : sl.handover = none) (b row line : Nat) :
    (sl.refreshRow b row).readLine line = sl.readLine line := by
  rw [Slice.refreshRow, show (sl.pastRow b row).handover = none from h]
  rfl

/-- R137: a refresh in which no error is met. -/
theorem State.refreshBank_eq (s : State) (i b : Nat) :
    s.refreshBank i b [] = (s.modSlice i (fun sl => sl.refreshRow b ((s.slice i).banks.getD b {}).refRow)).chargeCore 25 := by
  refine congrArg (fun ls => State.chargeCore { s with slices := ls } 25) ((modAt_modAt _ _ s.slices i).trans ?_)
  rfl

/-- What the refresh of a row of bank `b` of slice `i` comes to, from `s` to `t`: nothing but the slice, ports and power changes beside time,
the bank goes on to its next row, and the lines read as before where no handover runs. -/
structure RowRefreshed (i b at_ : Nat) (s t : State) : Prop where
  frame : t = { s with now := max s.now at_, slices := t.slices, ports := t.ports, power := (s.chargeCore 25).power }
  row : ((t.slice i).banks.getD b {}).refRow = (((s.slice i).banks.getD b {}).refRow + 1) % 256
  others : ∀ j, j ≠ i → t.slice j = s.slice j
  reads : (s.slice i).handover = none → ∀ line, (t.slice i).readLine line = (s.slice i).readLine line

/-- A refresh at its instant, whatever has changed at the ports. -/
theorem State.refreshBank_rowRefreshed {s u : State} {i b at_ : Nat} (hi : i < s.slices.length) (hb : b < (s.slice i).banks.length)
    (hu : u = { s with now := max s.now at_, ports := u.ports }) : RowRefreshed i b at_ s (u.refreshBank i b []) := by
  have hslices : u.slices = s.slices := by rw [hu]
  have hslice : ∀ j, (u.refreshBank i b []).slice j = if j = i then (s.slice i).refreshRow b ((s.slice i).banks.getD b {}).refRow
      else s.slice j := fun j => by
    rw [u.refreshBank_eq, State.slice, State.chargeCore_slices, ← State.slice, State.modSlice_slice _ _ _ (hslices ▸ hi)]
    simp only [State.slice, hslices]
  refine ⟨?_, ?_, fun j hj => by rw [hslice, if_neg hj], fun hnone line => ?_⟩
  · rw [u.refreshBank_eq, hu]
    rfl
  · rw [hslice, if_pos rfl, Slice.refreshRow_refRow hb]
  · rw [hslice, if_pos rfl, Slice.refreshRow_readLine hnone]

/-! ### A port with no lane at it -/

/-- R158: no lane has its first request at port SP`p` of slice `i`. -/
def State.NoLaneAt (s : State) (i p : Nat) : Prop :=
  ∀ r x, r < 32 → ((s.quarter (r / 8)).lanes.getD (r % 8) []).head? = some x → x.port ≠ 4 * i + p

theorem lt_of_mem_laneIndices {r : Nat} (h : r ∈ laneIndices) : r < 32 := List.mem_range.mp (List.mem_filter.mp h).1

theorem State.NoLaneAt.supplied {s : State} {i p r : Nat} (h : s.NoLaneAt i p) (hr : r < 32) (late : List (Nat × Nat)) :
    s.supplied i p r late = 0 := by
  unfold State.supplied
  split
  · next x hx => exact if_pos (bne_iff_ne.mpr (h r x hr hx))
  · rfl

theorem State.NoLaneAt.portRequests {s : State} {i p : Nat} (h : s.NoLaneAt i p) : s.portRequests i p = [] := by
  refine List.filter_eq_nil_iff.mpr (fun r hr hhead => ?_)
  obtain ⟨x, hx⟩ := Option.isSome_iff_exists.mp hhead
  obtain ⟨hx, hport⟩ := Option.filter_eq_some_iff.mp hx
  exact h r x (lt_of_mem_laneIndices hr) hx (by simpa using (Bool.and_eq_true_iff.mp hport).1)

/-- A run of steps that each leave a state. -/
theorem foldl_fixed {α β : Type} {f : β → α → β} {b : β} : ∀ {l : List α}, (∀ a ∈ l, f b a = b) → l.foldl f b = b
  | [], _ => rfl
  | a :: l, h => by
    obtain ⟨ha, hl⟩ := List.forall_mem_cons.mp h
    rw [List.foldl_cons, ha, foldl_fixed hl]

theorem State.NoLaneAt.latchPort {s : State} {i p : Nat} (h : s.NoLaneAt i p) (late : List (Nat × Nat)) : s.latchPort i p late = s := by
  refine foldl_fixed (fun r hr => ?_)
  unfold State.latchLane
  rw [h.supplied (lt_of_mem_laneIndices hr)]
  exact if_pos (by simp)

theorem rotationFrom_nil (ptr : Nat) : rotationFrom ptr [] = [] := List.filter_eq_nil_iff.mpr (fun _ _ => by simp)

/-- R166: a round without a request has no winner. -/
theorem Arb.winners_nil (a : Arb) (limit : Nat) (cls : Nat → Nat) : a.winners limit cls [] = [] := by
  unfold Arb.winners
  rw [show a.forced limit [] = [] from rfl, rotationFrom_nil]
  change (rotationFrom a.ptr []).head?.toList = []
  rw [rotationFrom_nil]
  rfl

/-- R138: a port with no lane and one refresh waiting holds that refresh in its round. -/
theorem State.NoLaneAt.portRound {s : State} {i p b : Nat} (h : s.NoLaneAt i p) (hp : 4 * i + p < s.ports.length)
    (hpending : (s.port i p).pendingRef = [b]) : ∃ u : State, u = { s with ports := u.ports } ∧ (u.port i p).pendingRef = [] ∧
      s.portRound i p [] [] = u.refreshBank i b [] := by
  refine ⟨(s.modPort i p (fun x => { x with arb := s.roundArb i p })).modPort i p (fun x => { x with pendingRef := [] }), rfl, ?_, ?_⟩
  · rw [State.modPort_port _ (by rw [State.modPort, modAt_length]; exact hp)]
  · have hwon : s.roundWon i p = [] := by rw [State.roundWon, h.portRequests, Arb.winners_nil]
    unfold State.portRound
    dsimp only
    rw [h.latchPort, hpending]
    exact if_pos (List.isEmpty_iff.mpr hwon)

/-! ### The commands -/

/-- R138: bank `b` waits at its port for a free round, once the slot of its next row has opened. -/
def State.awaitRound (s : State) (i b : Nat) : State :=
  (s.advanceTo (s.slotInstant i b 0)).modPort i ((s.slice i).portOfBank b) (fun x => { x with pendingRef := addOnce x.pendingRef b })

/-- R139: bank `b` takes the next slot of its port, once three quarters of the slot of its next row have passed. -/
def State.takeSlot (s : State) (i b : Nat) : State :=
  (s.advanceTo (s.slotInstant i b 3)).modPort i ((s.slice i).portOfBank b) (fun x => { x with pendingRef := x.pendingRef.erase b })

/-- R166: no lane wins a round of port SP`p` of slice `i` that none of the classes decides. -/
def State.roundFree (s : State) (i p : Nat) : Bool :=
  ((s.port i p).arb.winners s.profile.waitLimit (fun _ => 0) (s.portRequests i p)).isEmpty

section
variable {s : State} {i b : Nat}

theorem exec_trfRefresh (hi : i < 4) (hb : b < 34) (hrun : s.running = true) (href : (s.slice i).inRefresh b = true) :
    exec (.trfRefresh i b []) s = .next (if (s.awaitRound i b).roundFree i ((s.slice i).portOfBank b) then
      (s.awaitRound i b).portRound i ((s.slice i).portOfBank b) [] [] else s.awaitRound i b) := by
  change execTrfRefresh i b [] s = _
  rw [execTrfRefresh, if_neg (by omega), hrun, href]
  rfl

theorem exec_trfRefreshUrgent (hi : i < 4) (hb : b < 34) (hrun : s.running = true) (href : (s.slice i).inRefresh b = true) :
    exec (.trfRefreshUrgent i b []) s = .next ((s.takeSlot i b).refreshBank i b []) := by
  change execTrfRefreshUrgent i b [] s = _
  rw [execTrfRefreshUrgent, if_neg (by omega), hrun, href]
  rfl

theorem exec_trfRefresh_out_of_refresh (hi : i < 4) (hb : b < 34) (href : (s.slice i).inRefresh b = false) :
    exec (.trfRefresh i b []) s = .next s ∧ exec (.trfRefreshUrgent i b []) s = .next s := by
  change execTrfRefresh i b [] s = _ ∧ execTrfRefreshUrgent i b [] s = _
  have hunits : ¬(4 ≤ i ∨ 34 ≤ b) := by omega
  rw [execTrfRefresh, execTrfRefreshUrgent, if_neg hunits, if_neg hunits, href, Bool.not_false, Bool.or_true]
  exact ⟨rfl, rfl⟩

theorem State.awaitRound_port (h : 4 * i + (s.slice i).portOfBank b < s.ports.length) :
    (s.awaitRound i b).port i ((s.slice i).portOfBank b) = { s.port i ((s.slice i).portOfBank b) with
      pendingRef := addOnce (s.port i ((s.slice i).portOfBank b)).pendingRef b } :=
  State.modPort_port (s := s.advanceTo _) _ h

theorem State.awaitRound_roundFree (h : 4 * i + (s.slice i).portOfBank b < s.ports.length) :
    (s.awaitRound i b).roundFree i ((s.slice i).portOfBank b) = s.roundFree i ((s.slice i).portOfBank b) := by
  rw [State.roundFree, State.awaitRound_port h]
  rfl

end

/-- Settles O22: with no lane at the port the refresh takes the round, with a winner it waits, and an urgent one takes the slot. -/
theorem trfRefreshReadsOneRow : Obligations.TrfRefreshReadsOneRow := by
  unfold Obligations.TrfRefreshReadsOneRow
  intro s i b p hi hb34 hslices hports hrun hb hp hp4
  subst hp
  have hport : 4 * i + (s.slice i).portOfBank b < s.ports.length := by omega
  have hslice : i < s.slices.length := by omega
  refine ⟨fun href => ⟨fun hpending hlanes => ?_, fun hwinner => ?_, ?_⟩, exec_trfRefresh_out_of_refresh hi hb34⟩
  · have hfree : s.roundFree i ((s.slice i).portOfBank b) = true := by
      rw [State.roundFree, State.NoLaneAt.portRequests hlanes, Arb.winners_nil]
      rfl
    have hwaits : ((s.awaitRound i b).port i ((s.slice i).portOfBank b)).pendingRef = [b] := by
      rw [State.awaitRound_port hport, hpending]
      rfl
    obtain ⟨u, hu, hnone, hround⟩ := State.NoLaneAt.portRound (s := s.awaitRound i b) hlanes
      (by rw [State.awaitRound, State.modPort, modAt_length]; exact hport) hwaits
    have hrefreshed := State.refreshBank_rowRefreshed (at_ := s.slotInstant i b 0) hslice hb hu
    refine ⟨_, exec_trfRefresh hi hb34 hrun href, ?_⟩
    rw [State.awaitRound_roundFree hport, if_pos hfree, hround]
    refine ⟨hrefreshed.frame, hrefreshed.row, ?_, hrefreshed.others, hrefreshed.reads⟩
    rw [u.refreshBank_eq]
    exact hnone
  · refine ⟨_, exec_trfRefresh hi hb34 hrun href, ?_⟩
    rw [State.awaitRound_roundFree hport, if_neg (by rw [State.roundFree, hwinner]; exact Bool.false_ne_true)]
    exact ⟨rfl, State.awaitRound_port hport⟩
  · have hrefreshed := State.refreshBank_rowRefreshed (u := s.takeSlot i b) (at_ := s.slotInstant i b 3) hslice hb rfl
    refine ⟨_, exec_trfRefreshUrgent hi hb34 hrun href, hrefreshed.frame, hrefreshed.row, fun k _ => ?_, hrefreshed.others,
      hrefreshed.reads⟩
    rw [State.refreshBank_eq]
    exact (getD_modAt_reading Port.arb (f := fun x => { x with pendingRef := x.pendingRef.erase b }) (h := id) (fun _ => rfl) rfl
      s.ports _ _).trans (ite_self _)

end Sys2Proof.Machine
end

section
/-! SUPPORT. Proofs of the obligation on the scrub of the stores and on the draw of a salt (R144, R348, R558, R559, R916). -/
namespace Sys2Proof.Machine

/-! ### A line that is lost -/

theorem mem_insertRising_self (x : Nat) : ∀ l : List Nat, x ∈ insertRising x l
  | [] => List.mem_singleton_self x
  | y :: l => by
    unfold insertRising
    split
    · exact List.mem_cons_self
    · split
      · next heq => exact heq ▸ List.mem_cons_self
      · exact List.mem_cons_of_mem y (mem_insertRising_self x l)

/-- R144: a line that is marked lost. -/
theorem State.loseLine_outcome {s : State} {i : Nat} (hi : i < s.slices.length) (line : Nat) :
    line ∈ ((s.loseLine i line).slice i).lost ∧ (s.loseLine i line).hbm = s.hbm := by
  have hslices : (s.loseLine i line).slices = (s.modSlice i (fun sl => { sl with lost := insertRising line sl.lost })).slices ∧
      (s.loseLine i line).hbm = s.hbm := by
    unfold State.loseLine
    dsimp only
    split
    · split <;> exact ⟨rfl, rfl⟩
    · exact ⟨rfl, rfl⟩
  obtain ⟨hslices, hhbm⟩ := hslices
  refine ⟨?_, hhbm⟩
  rw [State.slice, hslices, ← State.slice, s.modSlice_slice i _ hi, if_pos rfl]
  exact mem_insertRising_self line _

/-- R144, Table 3.10: of a line that is no structural zero an uncorrectable payload marks the line lost, and leaves memory. -/
theorem State.payloadLost_outcome {s : State} {i line : Nat} (hi : i < s.slices.length) (hword : ((s.slice i).word line).zsrc = false) :
    line ∈ ((s.payloadLost i line).slice i).lost ∧ (s.payloadLost i line).hbm = s.hbm := by
  have hevent : Reports s (s.trfUeEvent i line) := ((Reports.refl s).bump _ _ _ _).deviceEvent _ _ _
  unfold State.payloadLost
  dsimp only
  rw [if_pos (by simp [hword])]
  have hlost := State.loseLine_outcome (s := (s.trfUeEvent i line).modSlice i (fun sl => sl.modBank (sl.bankOf line) (fun b => { b with
      ueTimes := if 2 ≤ b.ueTimes.length then b.ueTimes else
        (s.trfUeEvent i line).now :: b.ueTimes.filter (fun t => decide ((s.trfUeEvent i line).now < t + 3600000000000)) })))
    (i := i) (by rw [State.modSlice, modAt_length, hevent.reads State.slices]; exact hi) line
  rw [hevent.reads State.now] at hlost
  exact ⟨hlost.1, hlost.2.trans (hevent.reads State.hbm)⟩

/-! ### The scrub of the stores -/

/-- R916: a millisecond of scrubbing has ended. -/
def State.scrubbed (s : State) : State :=
  { s with
    now := max s.now (s.stores.scrubAt + 1000000)
    stores := { s.stores with scrubAt := max s.now (s.stores.scrubAt + 1000000) } }

theorem exec_storeScrub {s : State} {found : List Found} (hwf : ∀ f ∈ found, f.wf = true) (hrun : s.running = true) :
    exec (.storeScrub found) s = .next (s.scrubbed.applyAll none none found) := by
  have hall : found.find? (fun f => !f.wf) = none := List.find?_eq_none.mpr (fun f hf => by simp [hwf f hf])
  change execStoreScrub found s = _
  rw [execStoreScrub, guardFound, hall, hrun]
  rfl

theorem exec_storeScrub_of_stopped {s : State} (hrun : s.running = false) : exec (.storeScrub []) s = .next s := by
  change execStoreScrub [] s = _
  rw [execStoreScrub, hrun]
  rfl

/-! ### The draw of a salt -/

/-- R558, R559: a routine that waits for its salt goes on with the data track held and the salt drawn. -/
def State.saltDrawn (s : State) (q c : Nat) : State :=
  ((s.modJob q c (fun j => { j with awaitsSalt := false, tracks := [trackData], takenAt := s.now })).drawSalt q c).state

section
variable {s : State} {c q : Nat} {j : Job}

theorem exec_saltDrawResume (hc : c < 512) (hjob : s.jobOf c = some (q, j)) (hwaits : j.awaitsSalt = true) :
    exec (.saltDrawResume c) s = .next (if 48 ≤ s.hbm.pool ∧ s.tracksOpen q [trackData] = true then s.saltDrawn q c else s) := by
  change execSaltDrawResume c s = _
  rw [execSaltDrawResume, if_neg (Nat.not_le.mpr hc), hjob]
  dsimp only
  rw [hwaits, Bool.true_and]
  refine congrArg Host.Outcome.next (if_congr ?_ rfl rfl)
  rw [Bool.and_eq_true, decide_eq_true_iff]

/-- R407, R558: with the bits in the pool the draw takes them, and gives the context its salt. -/
theorem State.saltDrawn_outcome (hjob : s.jobOf c = some (q, j)) (hpool : 48 ≤ s.hbm.pool) (hsalt : (s.entry c).salt = none)
    (hc : s.Attached c) : (s.saltDrawn q c).hbm = { s.hbm with pool := s.hbm.pool - 48 } ∧
      ((s.saltDrawn q c).entry c).salt = some (Config.salt s.free.salts) ∧
      (s.saltDrawn q c).jobOf c = some (q, { j with awaitsSalt := false, tracks := [trackData], takenAt := s.now }) := by
  have hresumed := State.modJob_jobOf_of hjob (f := fun j => { j with awaitsSalt := false, tracks := [trackData], takenAt := s.now })
  unfold State.saltDrawn
  generalize hu : s.modJob q c (fun j => { j with awaitsSalt := false, tracks := [trackData], takenAt := s.now }) = u at hresumed
  have hentries : u.entries = s.entries := by rw [← hu]; rfl
  have hhbm : u.hbm = s.hbm := by rw [← hu]; rfl
  have hfree : u.free = s.free := by rw [← hu]; rfl
  have hentry : u.entry c = s.entry c := by rw [State.entry, hentries]; rfl
  have hattached : u.Attached c := by rw [State.Attached, hentries]; exact hc
  unfold State.drawSalt
  rw [if_neg (by rw [hentry, hsalt]; exact Bool.false_ne_true), if_neg (by rw [hhbm]; omega)]
  dsimp only [Prog.state]
  refine ⟨?_, ?_, ?_⟩
  · rw [State.modEntry_hbm, hhbm]
  · refine (congrArg Entry.salt (State.Attached.modEntry_entry ?_ _)).trans ?_
    · exact hattached
    · exact congrArg (fun f : Free => some (Config.salt f.salts)) hfree
  · rw [State.jobOf_congr (s := u) c (fun p => ?_)]
    · exact hresumed
    · rw [State.quarter, State.modEntry_quarters]
      rfl

end

/-- Settles O29: each error found is handled as a read would, and the salt is drawn once the pool has its bits. -/
theorem scrubbedStoresAndSaltDraws : Obligations.ScrubbedStoresAndSaltDraws := by
  unfold Obligations.ScrubbedStoresAndSaltDraws
  refine fun s => ⟨fun hrun => ?_, exec_storeScrub_of_stopped, fun q p e hrun hq hp he => ?_, fun i line hrun hi hline hslices hword => ?_,
    fun c q j hc hjob hwaits => ⟨fun hpool hopen hsalt hattached => ?_, fun hpool => ?_⟩⟩
  · exact ⟨_, exec_storeScrub nofun hrun, rfl⟩
  · have hwf : (Found.element q p e false true).wf = true := by
      simp only [Found.wf, Bool.and_eq_true, decide_eq_true_iff]
      exact ⟨⟨hq, hp⟩, he⟩
    exact ⟨_, exec_storeScrub (by simpa using hwf) hrun, rfl, rfl, rfl⟩
  · obtain ⟨hlost, hhbm⟩ := State.payloadLost_outcome (s := s.scrubbed) (i := i) (by rw [State.scrubbed, hslices]; exact hi) hword
    exact ⟨_, exec_storeScrub (by simp [Found.wf, hi, hline]) hrun, hlost, congrArg Hbm.mem hhbm⟩
  · obtain ⟨hhbm, hdrawn, hresumed⟩ := State.saltDrawn_outcome hjob hpool hsalt hattached
    refine ⟨_, exec_saltDrawResume hc hjob hwaits, ?_⟩
    rw [if_pos ⟨hpool, hopen⟩]
    exact ⟨hhbm, hdrawn, _, hresumed, rfl, rfl, rfl⟩
  · rw [exec_saltDrawResume hc hjob hwaits, if_neg (fun h => Nat.not_le.mpr hpool h.1)]

end Sys2Proof.Machine
end

section
/-! SUPPORT. Proofs of the obligation on the retirement of a bank through a spare (R146, R150, R895 to R897). -/
namespace Sys2Proof.Machine

/-! ### A bank that is to retire -/

/-- R895, R896: a handover from bank `b`, that serves number `n`, to spare `sp` of slice `i` begins. -/
def State.handoverBegun (s : State) (i b n sp : Nat) : State :=
  s.modSlice i (fun sl => { sl with handover := some { bank := n, source := b, target := sp } })

/-- R897: bank `b` of slice `i` waits to be evacuated. -/
def State.evacuationAwaited (s : State) (i b cause : Nat) : State :=
  s.modSlice i (fun sl => sl.modBank b (fun k => { k with status := .retiring, passes := cause }))

section
variable {s : State} {i b n c : Nat}

theorem exec_bankRetire (hi : i < 4) (hb : b < 34) (hrun : s.running = true) (hnum : (s.slice i).numberOf b = some n)
    (hstatus : ((s.slice i).banks.getD b {}).status = .serving) (hnone : (s.slice i).handover = none)
    (hmust : ((s.slice i).banks.getD b {}).mustRetire c = true) :
    exec (.bankRetire i b c) s = .next (match (s.slice i).freeSpare with
      | some sp => ((s.handoverBegun i b n sp).bump 2 56 2 1).deviceEvent Code.bankRetire none (bankPayload i b sp 0 c)
      | none => s.evacuationAwaited i b c) := by
  change execBankRetire i b c s = _
  rw [execBankRetire, if_neg (by omega)]
  dsimp only
  rw [hnum, hrun, hstatus, hnone, hmust]
  rfl

/-- What a bank's retirement leaves: memory, contexts, quarters, time, the other slices and every line. -/
structure State.RetireLeaves (s t : State) (i : Nat) : Prop where
  hbm : t.hbm = s.hbm
  entries : t.entries = s.entries
  quarters : t.quarters = s.quarters
  now : t.now = s.now
  others : ∀ j, j ≠ i → t.slice j = s.slice j
  reads : ∀ line, (t.slice i).readLine line = (s.slice i).readLine line

/-- A slice that is changed but for its lines. -/
theorem State.modSlice_retireLeaves (s : State) {i : Nat} {f : Slice → Slice} (hf : ∀ sl line, (f sl).readLine line = sl.readLine line) :
    s.RetireLeaves (s.modSlice i f) i where
  hbm := rfl
  entries := rfl
  quarters := rfl
  now := rfl
  others j hj := by
    rw [State.slice, State.modSlice, List.getD_eq_getElem?_getD, getElem?_modAt_of_ne f _ hj]
    exact (List.getD_eq_getElem?_getD ..).symm
  reads line := s.modSlice_leaves (·.readLine line) i i (fun sl => hf sl line)

theorem State.RetireLeaves.reported {s t u : State} {i : Nat} (h : s.RetireLeaves t i) (k : Reports t u) : s.RetireLeaves u i where
  hbm := (k.reads State.hbm).trans h.hbm
  entries := (k.reads State.entries).trans h.entries
  quarters := (k.reads State.quarters).trans h.quarters
  now := (k.reads State.now).trans h.now
  others j hj := (k.reads (·.slice j)).trans (h.others j hj)
  reads line := (k.reads (fun v => (v.slice i).readLine line)).trans (h.reads line)

end

theorem State.modSlice_congr {s : State} {i : Nat} {f g : Slice → Slice} (h : f (s.slice i) = g (s.slice i)) :
    s.modSlice i f = s.modSlice i g :=
  congrArg (fun ls => { s with slices := ls }) (modAt_congr ({} : Slice) h)

theorem State.modSlice_fixed {s : State} {i : Nat} {f : Slice → Slice} (h : f (s.slice i) = s.slice i) : s.modSlice i f = s :=
  (State.modSlice_congr (g := fun sl => sl) h).trans (congrArg (fun ls => { s with slices := ls }) (modAt_id s.slices i))

/-! ### The end of a handover -/

/-- R150, R903: the target of handover `h` takes over; its source is retired, or free again where the target was a returning bank. -/
def Slice.handedOver (sl : Slice) (h : Handover) : Slice :=
  let back := (sl.banks.getD h.target {}).status == .retired
  (({ sl with serves := setAt sl.serves h.bank h.target, handover := none }).modBank h.target (fun k => { k with
    status := .serving, ueTimes := [], ceTimes := [], passes := 0, served := none
    refRow := (sl.banks.getD h.source {}).refRow, refSweep := (sl.banks.getD h.source {}).refSweep })).modBank h.source (fun k => { k with
      status := if back then .free else .retired, passes := 0, ueTimes := [], ceTimes := []
      served := if back then none else some h.bank })

theorem Slice.handedOver_serves {sl : Slice} {h : Handover} (hbank : h.bank < sl.serves.length) :
    (sl.handedOver h).serves.getD h.bank h.bank = h.target :=
  (getD_modAt _ sl.serves _ _ _ hbank).trans (if_pos rfl)

theorem Slice.handedOver_target {sl : Slice} {h : Handover} (hne : h.source ≠ h.target) (hsource : h.source < sl.banks.length)
    (htarget : h.target < sl.banks.length) : ((sl.handedOver h).banks.getD h.target {}).status = .serving := by
  refine (congrArg Bank.status (getD_modAt _ _ _ _ _ ?_)).trans ?_
  · exact (modAt_length _ _ _).symm ▸ hsource
  · rw [if_neg (Ne.symm hne)]
    exact congrArg Bank.status ((getD_modAt _ _ _ _ _ htarget).trans (if_pos rfl))

theorem Slice.handedOver_source {sl : Slice} {h : Handover} (hsource : h.source < sl.banks.length) :
    ((sl.handedOver h).banks.getD h.source {}).status =
      if (sl.banks.getD h.target {}).status = .retired then .free else .retired := by
  refine (congrArg Bank.status (getD_modAt _ _ _ _ _ ?_)).trans ?_
  · exact (modAt_length _ _ _).symm ▸ hsource
  · rw [if_pos rfl]
    exact if_congr beq_iff_eq rfl rfl

/-- R150: the lines of the other bank numbers stay where they are. -/
theorem Slice.handedOver_readLine {sl : Slice} {h : Handover} {line : Nat} (hline : line % 32 ≠ h.bank) :
    (sl.handedOver h).readLine line = sl.readLine line := by
  have hbank : (sl.handedOver h).bankOf line = sl.bankOf line := by
    refine (List.getD_eq_getElem?_getD ..).trans ?_
    rw [Slice.bankOf, List.getD_eq_getElem?_getD]
    exact congrArg (Option.getD · _) (getElem?_modAt_of_ne _ sl.serves hline)
  simp only [Slice.readLine, Slice.payKey, hbank]
  rfl

section
variable {s : State} {i : Nat} {h : Handover}

theorem exec_bankHandoverSwap (hi : i < 4) (hh : (s.slice i).handover = some h) : exec (.bankHandoverSwap i) s =
    .next (if h.phase = .verify ∧ h.rows = 256 then s.modSlice i (fun sl => sl.handedOver h) else s) := by
  change execBankHandoverSwap i s = _
  rw [execBankHandoverSwap, if_neg (Nat.not_le.mpr hi)]
  refine congrArg Host.Outcome.next ?_
  by_cases hended : h.phase = .verify ∧ h.rows = 256
  · rw [if_pos hended]
    refine State.modSlice_congr ?_
    rw [hh]
    dsimp only
    rw [if_neg (by simp [hended.1, hended.2])]
    rfl
  · rw [if_neg hended]
    refine State.modSlice_fixed ?_
    rw [hh]
    dsimp only
    rw [if_pos (by simpa [← not_and_or] using hended)]

end

/-- Settles O24: a bank leaves through a free spare, and the spare takes over once it has been verified. -/
theorem banksRetireThroughASpare : Obligations.BanksRetireThroughASpare := by
  unfold Obligations.BanksRetireThroughASpare
  refine fun s i hi hslices => ⟨fun b n c hb hrun hlen hnum hstatus hnone hmust => ?_,
    fun h hh hphase hrows hne hbank hsource htarget => ?_, fun h hh hgoing => ?_⟩
  · have hlt : i < s.slices.length := by omega
    refine ⟨_, exec_bankRetire hi hb hrun hnum hstatus hnone hmust, ?_⟩
    cases hspare : (s.slice i).freeSpare with
    | some sp =>
      have hevent := ((Reports.refl (s.handoverBegun i b n sp)).bump 2 56 2 1).deviceEvent Code.bankRetire none (bankPayload i b sp 0 c)
      have hleaves := (s.modSlice_retireLeaves (i := i) (f := fun sl => { sl with handover := some { bank := n, source := b, target := sp } })
        (fun _ _ => rfl)).reported hevent
      have hslice : (((s.handoverBegun i b n sp).bump 2 56 2 1).deviceEvent Code.bankRetire none (bankPayload i b sp 0 c)).slice i =
          { s.slice i with handover := some { bank := n, source := b, target := sp } } :=
        (hevent.reads (·.slice i)).trans ((s.modSlice_slice i _ hlt).trans (if_pos rfl))
      refine ⟨hleaves.hbm, hleaves.entries, hleaves.quarters, hleaves.now, hleaves.others, hleaves.reads, fun sp' hsp' => ?_, nofun⟩
      cases hsp'
      dsimp only
      rw [hslice]
      exact ⟨rfl, rfl⟩
    | none =>
      have hleaves := s.modSlice_retireLeaves (i := i) (f := fun sl => sl.modBank b (fun k => { k with status := .retiring, passes := c }))
        (fun _ _ => rfl)
      refine ⟨hleaves.hbm, hleaves.entries, hleaves.quarters, hleaves.now, hleaves.others, hleaves.reads, nofun, fun _ => ⟨rfl, ?_⟩⟩
      dsimp only [State.evacuationAwaited]
      rw [s.modSlice_slice i _ hlt, if_pos rfl]
      exact congrArg Bank.status ((getD_modAt _ _ _ _ _ hlen).trans (if_pos rfl))
  · have hslice : ∀ j, (s.modSlice i (fun sl => sl.handedOver h)).slice j = if j = i then (s.slice i).handedOver h else s.slice j :=
      fun j => s.modSlice_slice j _ (by omega)
    have hexec := exec_bankHandoverSwap hi hh
    rw [if_pos (And.intro hphase hrows)] at hexec
    refine ⟨_, hexec, ?_⟩
    dsimp only
    rw [hslice i, if_pos rfl]
    exact ⟨rfl, fun j hj => by rw [hslice, if_neg hj], rfl, Slice.handedOver_serves hbank, Slice.handedOver_target hne hsource htarget,
      Slice.handedOver_source hsource, fun line => Slice.handedOver_readLine⟩
  · rw [exec_bankHandoverSwap hi hh, if_neg]
    rintro ⟨hverify, hrows⟩
    obtain hfill | hrows' := hgoing
    · rw [hfill] at hverify
      cases hverify
    · exact hrows' hrows

end Sys2Proof.Machine
end

section
/-! SUPPORT. Proofs of the obligation on the sweep period, debug transfers, the basket allocator and the start of a step (R134 to R136, R172,
R173, R184 to R187, R189, R800, R1028). -/
namespace Sys2Proof.Machine

/-! ### The sweep period -/

/-- R134, R135: the lines are still refreshed as hot ones at the next sweep boundary. -/
def State.staysHot (s : State) : Bool :=
  s.refresh.hot && !(match s.refresh.coolSince with | some c => decide (c + 10000000 ≤ s.nextSweep) | none => false)

/-- R134 to R136, R800: the sweep period that the temperature and REF_INTERVAL_US ask for. -/
def State.sweepWanted (s : State) : Nat := if s.staysHot then 20 else s.profile.refIntervalUs

/-- R136: that period takes effect at the next sweep boundary. -/
def State.sweepChanged (s : State) : State :=
  { s.advanceTo s.nextSweep with refresh := { s.refresh with period := s.sweepWanted, hot := s.staysHot } }.newSweep s.nextSweep

/-- A new sweep origin leaves every line as it reads. -/
theorem State.newSweep_readLine (s : State) (t i line : Nat) : ((s.newSweep t).slice i).readLine line = (s.slice i).readLine line := by
  have hslice : (s.newSweep t).slice i =
      { s.slice i with banks := (s.slice i).banks.map (fun b => { b with refSweep := if b.refRow = 0 then 1 else 0 }) } :=
    getD_map_of_default rfl s.slices i
  rw [hslice]
  rfl

theorem exec_refIntervalChange_of_same {s : State} (hrun : s.running = true) (hset : s.boot.applied = true)
    (hsame : s.sweepWanted = s.refresh.period) :
    exec .refIntervalChange s = .next { s with refresh := { s.refresh with hot := s.staysHot } } := by
  change execRefIntervalChange s = _
  rw [execRefIntervalChange, hrun, hset]
  exact congrArg Host.Outcome.next (if_pos hsame)

theorem exec_refIntervalChange_of_other {s : State} (hrun : s.running = true) (hset : s.boot.applied = true)
    (hother : s.sweepWanted ≠ s.refresh.period) :
    ∃ t, exec .refIntervalChange s = .next t ∧ Reports s.sweepChanged t := by
  change ∃ t, execRefIntervalChange s = .next t ∧ _
  rw [execRefIntervalChange, hrun, hset]
  exact ⟨_, congrArg Host.Outcome.next (if_neg hother), (Reports.refl s.sweepChanged).deviceEvent _ _ _⟩

/-! ### A debug transfer -/

theorem exec_debugTransfer {s : State} {i line : Nat} (hi : i < 4) (hline : line < 8192) (hrun : s.running = true) :
    exec (.debugTransfer i line) s = .next (({ (match s.instruments.lineAt with
        | some a => s.advanceTo (a + s.cclkNs 2112)
        | none => s) with
      instruments := { s.instruments with
        line := some (i, line, (s.slice i).readLine line)
        lineAt := some (match s.instruments.lineAt with | some a => max s.now (a + s.cclkNs 2112) | none => s.now) } } : State).chargeCore 25) := by
  change execDebugTransfer i line s = _
  rw [execDebugTransfer, if_neg (by omega), hrun]
  cases s.instruments.lineAt <;> rfl

/-! ### The basket allocator -/

/-- R184, R1028: from `sl` to `sl'` each use that has left the waiting list has taken one shared line, and no payload changes. -/
structure Slice.Grants (sl sl' : Slice) : Prop where
  count : sl'.sharedFree + sl.waiting.length = sl.sharedFree + sl'.waiting.length
  waiting : sl'.waiting ⊆ sl.waiting
  payload : sl'.payload = sl.payload

theorem Slice.Grants.refl (sl : Slice) : sl.Grants sl := ⟨rfl, List.Subset.refl _, rfl⟩

theorem Slice.Grants.trans {a b d : Slice} (h : a.Grants b) (k : b.Grants d) : a.Grants d where
  count := by
    have hfirst := h.count
    have hrest := k.count
    omega
  waiting := List.Subset.trans k.waiting h.waiting
  payload := k.payload.trans h.payload

/-- A shared line that is taken leaves the waiting uses and the payloads. -/
theorem Slice.takeSharedLine_outcome {sl sl' : Slice} {port : Nat} {o : LineOwner} (h : sl.takeSharedLine port o = some sl') :
    sl'.sharedFree + 1 = sl.sharedFree ∧ sl'.waiting = sl.waiting ∧ sl'.payload = sl.payload := by
  unfold Slice.takeSharedLine at h
  split at h
  · cases h
  · next hfree =>
    obtain ⟨l, -, rfl⟩ := Option.map_eq_some_iff.mp h
    exact ⟨Nat.sub_add_cancel (Nat.pos_of_ne_zero hfree), rfl, rfl⟩

theorem Slice.giveShared_grants (sl : Slice) (r : Nat) : sl.Grants (sl.giveShared r) := by
  unfold Slice.giveShared
  split
  · exact .refl sl
  · next w hw =>
    split
    · next sl1 hsl1 =>
      obtain ⟨hshared, hwaiting, hpayload⟩ := Slice.takeSharedLine_outcome hsl1
      have hmem : w ∈ sl.waiting := List.mem_of_find?_eq_some hw
      refine ⟨?_, ?_, hpayload⟩
      · have hlength := List.length_erase_add_one hmem
        rw [hwaiting]
        dsimp only
        omega
      · rw [hwaiting]
        exact List.erase_subset
    · exact .refl sl

theorem Slice.foldl_giveShared_grants : ∀ (won : List Nat) (sl : Slice), sl.Grants (won.foldl Slice.giveShared sl)
  | [], sl => .refl sl
  | r :: won, sl => (sl.giveShared_grants r).trans (Slice.foldl_giveShared_grants won _)

theorem Slice.allocRound_grants (sl : Slice) (limit base cap : Nat) : sl.Grants (sl.allocRound limit base cap) := by
  have hgrants := fun won => Slice.foldl_giveShared_grants won sl
  exact ⟨(hgrants _).count, (hgrants _).waiting, (hgrants _).payload⟩

theorem exec_allocatorRound {s : State} {i : Nat} (hi : i < 4) : exec (.allocatorRound i) s = .next (if (s.slice i).waiting.isEmpty then s
    else s.modSlice i (fun sl => sl.allocRound s.profile.waitLimit s.profile.backoffBase s.profile.backoffCap)) :=
  if_neg (Nat.not_le.mpr hi)

/-! ### The start of a step -/

/-- R189, R942: a quarter's step starts, where one is permitted and has its lines at the array edge. -/
def Quarter.stepStarted (u : Quarter) : Quarter :=
  if u.stepPermit = true ∧ (∃ j ∈ u.jobs, j.edge = true) then
    { u with
      stepPermit := false
      jobs := u.jobs.map (fun j => if j.edge then { j with edge := false, started := j.started + 1 } else j) }
  else u

theorem exec_arrayStepStart {s : State} {q : Nat} (hq : q < 4) : exec (.arrayStepStart q) s = .next (s.modQuarter q Quarter.stepStarted) := by
  change execArrayStepStart q s = _
  rw [execArrayStepStart, if_neg (Nat.not_le.mpr hq)]
  refine congrArg (fun f => Host.Outcome.next (s.modQuarter q f)) (funext fun u => if_congr ?_ rfl rfl)
  rw [Bool.and_eq_true, List.any_eq_true]

/-- Settles O26: the period changes at a sweep boundary, a debug transfer reads its line, the allocator gives each use one line, and a step
uses its permission up. -/
theorem trfScheduleAllocatorAndSteps : Obligations.TrfScheduleAllocatorAndSteps := by
  unfold Obligations.TrfScheduleAllocatorAndSteps
  refine fun s => ⟨fun hrun hset => ?_, fun i line hrun hi hline => ?_, fun i hi hslices hwaiting => ?_, fun i hi hnone => ?_,
    fun q hq hquarters => ?_⟩
  · by_cases hsame : s.sweepWanted = s.refresh.period
    · refine ⟨_, exec_refIntervalChange_of_same hrun hset hsame, rfl, fun _ _ => rfl, rfl, rfl, fun want hwant => ?_⟩
      have hperiod : want = s.refresh.period := hwant.trans hsame
      exact ⟨hperiod.symm, fun _ => ⟨rfl, rfl, rfl⟩, absurd hperiod⟩
    · obtain ⟨t, hexec, hreports⟩ := exec_refIntervalChange_of_other hrun hset hsame
      refine ⟨t, hexec, hreports.reads State.hbm, fun i line => ?_, hreports.reads State.quarters, hreports.reads State.entries,
        fun want hwant => ?_⟩
      · exact (hreports.reads (fun v => (v.slice i).readLine line)).trans (State.newSweep_readLine _ _ i line)
      · have hwanted : want = s.sweepWanted := hwant
        refine ⟨?_, fun heq => absurd (hwanted.symm.trans heq) hsame, fun _ => ⟨hreports.reads State.now, ?_⟩⟩
        · exact (hreports.reads (·.refresh.period)).trans hwanted.symm
        · exact hreports.reads (·.refresh.origin)
  · refine ⟨_, exec_debugTransfer hi hline hrun, ?_⟩
    cases hat : s.instruments.lineAt <;> exact ⟨rfl, rfl⟩
  · have hempty : ¬(s.slice i).waiting.isEmpty = true := by rwa [List.isEmpty_iff]
    have hexec := exec_allocatorRound (s := s) hi
    rw [if_neg hempty] at hexec
    refine ⟨_, hexec, rfl, fun j hj => ?_, ?_⟩
    · rw [s.modSlice_slice j _ (by omega), if_neg hj]
    · rw [s.modSlice_slice i _ (by omega), if_pos rfl]
      have hgrants := (s.slice i).allocRound_grants s.profile.waitLimit s.profile.backoffBase s.profile.backoffCap
      exact ⟨hgrants.count, hgrants.waiting, hgrants.payload⟩
  · rw [exec_allocatorRound hi, if_pos (List.isEmpty_iff.mpr hnone)]
  · refine ⟨_, exec_arrayStepStart hq, rfl, fun k hk => s.modQuarter_quarter_of_ne _ hk, ?_⟩
    rw [s.modQuarter_quarter q _ (by omega), if_pos rfl]
    rfl

end Sys2Proof.Machine
end

section
/-! SUPPORT. Proofs of the obligation on the march, the return and the evacuation of a bank (R152, R897 to R904): a fault leaves banks and
ceilings, and a line that moves leaves the bank numbers. -/
namespace Sys2Proof.Machine

/-! ### What is read of the slices -/

/-- A reading that two states give alike of their slices, slice by slice. -/
theorem State.slice_reading {α : Type} {s t : State} (g : Slice → α) (h : t.slices.map g = s.slices.map g) (i : Nat) :
    g (t.slice i) = g (s.slice i) := by
  have hread : ∀ v : State, g (v.slice i) = (v.slices.map g).getD i (g {}) := fun v => by
    rw [State.slice, List.getD_eq_getElem?_getD, List.getD_eq_getElem?_getD, List.getElem?_map]
    cases v.slices[i]? <;> rfl
  rw [hread, hread, h]

/-- A run of steps that each leave what is read. -/
theorem foldl_leaves {α β γ : Type} (g : β → γ) {f : β → α → β} (hf : ∀ b a, g (f b a) = g b) :
    ∀ (l : List α) (b : β), g (l.foldl f b) = g b
  | [], _ => rfl
  | a :: l, b => (foldl_leaves g hf l (f b a)).trans (hf b a)

/-! ### What a fault leaves of banks and ceilings -/

/-- The repair state of a slice: its banks and the slot ceiling that it has set. -/
def Slice.repairs (sl : Slice) : List Bank × Option Nat := (sl.banks, sl.ceiling)

theorem Slice.release_repairs (sl : Slice) (line : Nat) : (sl.release line).repairs = sl.repairs := by
  have hrefund : ∀ (sl : Slice) (c : Charge), (sl.refund c).repairs = sl.repairs := fun sl c => by
    cases c with
    | window => rfl
    | floor k =>
      simp only [Slice.refund]
      split <;> rfl
    | shared => rfl
    | reserve =>
      simp only [Slice.refund]
      split <;> rfl
  unfold Slice.release
  split
  · exact hrefund _ _
  · rfl

theorem Slice.releaseWhere_repairs (sl : Slice) (p : LineOwner → Bool) : (sl.releaseWhere p).repairs = sl.repairs :=
  foldl_leaves Slice.repairs (fun sl (x : Nat × LineUse) => sl.release_repairs x.1) _ sl

/-- From `s` to `t` no bank's repair state and no slot ceiling changes. -/
def KeepsRepairs (s t : State) : Prop := t.slices.map Slice.repairs = s.slices.map Slice.repairs

namespace KeepsRepairs

variable {r s t : State}

theorem refl (s : State) : KeepsRepairs s s := rfl

theorem trans (h : KeepsRepairs r s) (k : KeepsRepairs s t) : KeepsRepairs r t := Eq.trans k h

/-- An update of other parts of the state. -/
theorem update (h : KeepsRepairs r s) (hslices : t.slices = s.slices) : KeepsRepairs r t := h.trans (congrArg (List.map Slice.repairs) hslices)

/-- An update of each slice that leaves banks and ceiling. -/
theorem mapSlices (h : KeepsRepairs r s) {f : Slice → Slice} (hslices : t.slices = s.slices.map f)
    (hf : ∀ sl, (f sl).repairs = sl.repairs := by intro _; rfl) : KeepsRepairs r t :=
  h.trans ((congrArg (List.map Slice.repairs) hslices).trans (map_reading hf s.slices))

theorem zipIdxSlices (h : KeepsRepairs r s) {f : Slice × Nat → Slice} (hslices : t.slices = s.slices.zipIdx.map f)
    (hf : ∀ x, (f x).repairs = x.1.repairs) : KeepsRepairs r t :=
  h.trans ((congrArg (List.map Slice.repairs) hslices).trans (zipIdx_map_reading hf s.slices))

theorem ite {a : Prop} {_ : Decidable a} (h : KeepsRepairs r s) (k : KeepsRepairs r t) : KeepsRepairs r (if a then s else t) := by
  split
  · exact h
  · exact k

theorem foldl {α : Type} {f : State → α → State} (hf : ∀ s a, KeepsRepairs r s → KeepsRepairs r (f s a)) :
    ∀ (l : List α) {s : State}, KeepsRepairs r s → KeepsRepairs r (l.foldl f s)
  | [], _, h => h
  | a :: l, s, h => foldl hf l (hf s a h)

theorem of_books (h : KeepsRepairs r s) (k : KeepsBooks True s t) : KeepsRepairs r t := h.update (k.slices trivial)

theorem modEntry (h : KeepsRepairs r s) (c : Nat) (f : Entry → Entry) : KeepsRepairs r (s.modEntry c f) := h.update (s.modEntry_slices c f)

theorem modQuarter (h : KeepsRepairs r s) (q : Nat) (f : Quarter → Quarter) : KeepsRepairs r (s.modQuarter q f) := h.update rfl

theorem putEntry (h : KeepsRepairs r s) (c : Nat) (e : Entry) : KeepsRepairs r (s.putEntry c e) := h.update rfl

theorem withdraw (h : KeepsRepairs r s) (c : Nat) : KeepsRepairs r (s.withdraw c) := h.mapSlices rfl

theorem releaseStaged (h : KeepsRepairs r s) (c : Nat) : KeepsRepairs r (s.releaseStaged c) :=
  h.mapSlices rfl (fun sl => sl.releaseWhere_repairs _)

/-- R331: an aborted segment. -/
theorem abortSegment (h : KeepsRepairs r s) (q : Nat) (j : Job) : KeepsRepairs r (s.abortSegment q j) := by
  unfold State.abortSegment
  extract_lets s0 s1 e s2 s3
  have hwithdrawn : KeepsRepairs r s0 := ((h.withdraw j.ctx).releaseStaged j.ctx).modEntry _ _
  have hforgotten : KeepsRepairs r s1 := ite (hwithdrawn.modEntry _ _) hwithdrawn
  have hrestored : KeepsRepairs r s2 := by
    unfold s2
    split
    · split
      · exact ite (putEntry (hforgotten.modQuarter _ _) _ _) hforgotten
      · exact hforgotten
    · exact hforgotten
  have hfreed : KeepsRepairs r s3 := by
    unfold s3
    split
    · split
      · exact ite (putEntry (hrestored.modQuarter _ _) _ _) hrestored
      · exact hrestored
    · exact hrestored
  exact (hfreed.ite (hfreed.modQuarter _ _)).modQuarter _ _

theorem dropMoves (h : KeepsRepairs r s) (f : MoveJob → Bool) : KeepsRepairs r (s.dropMoves f) :=
  h.zipIdxSlices rfl (fun x => foldl_leaves Slice.repairs (f := fun sl _ => sl.freeShared _) (fun _ _ => rfl) _ x.1)

theorem dropFloors (h : KeepsRepairs r s) (k : Nat) (iso : Option Nat) : KeepsRepairs r (s.dropFloors k iso) := by
  unfold State.dropFloors
  dsimp only
  split
  · exact h.mapSlices rfl
  · refine h.zipIdxSlices rfl (fun x => ?_)
    split <;> rfl

theorem freeSlot (h : KeepsRepairs r s) (c : Nat) : KeepsRepairs r (s.freeSlot c) := by
  unfold State.freeSlot
  extract_lets e s1
  have hcleared : KeepsRepairs r s1 := ((h.dropMoves (fun m => m.ctx == c)).withdraw c).update rfl
  split
  · exact hcleared.mapSlices rfl (fun sl => sl.releaseWhere_repairs _)
  · next k _ =>
    extract_lets s2 s3 s4
    have hreleased : KeepsRepairs r s2 := hcleared.mapSlices rfl (fun sl => sl.releaseWhere_repairs _)
    have hfloors : KeepsRepairs r s3 := (hreleased.dropFloors k _).update rfl
    have hclosed : KeepsRepairs r s4 := ite (hfloors.mapSlices rfl) hfloors
    exact hclosed.modEntry c _

/-- R343: a context that faults gives its lines up, and changes no bank and no ceiling. -/
theorem faultContext (h : KeepsRepairs r s) (c : Nat) (i : FaultInfo) : KeepsRepairs r (s.faultContext c i) := by
  unfold State.faultContext
  split
  · exact h
  · refine h.ite ?_
    extract_lets i1 s0 s1 rec_ s2 s3 s4 s5
    have h0 : KeepsRepairs r s0 := by
      unfold s0
      split
      · exact (h.of_books ((KeepsBooks.refl True s).chargeSegment _ _ _)).abortSegment _ _
      · exact h.withdraw c
    have h1 : KeepsRepairs r s1 := h0.of_books ((KeepsBooks.refl True s0).contextEvent _ _ _)
    have h2 : KeepsRepairs r s2 := by
      unfold s2
      split
      · exact (h1.of_books ((KeepsBooks.refl True s1).respond _ _ _ _ _ _ _)).ite h1
      · exact h1
    have h5 : KeepsRepairs r s5 := ((h2.freeSlot c).modEntry c _).update rfl
    exact h5.of_books ((KeepsBooks.refl True s5).writeProgress _ _)

/-- R899, R900: one context that leaves its slot. -/
theorem shedOne (h : KeepsRepairs r s) (c : Nat) : KeepsRepairs r (s.shedOne c) :=
  (h.faultContext c _).ite (h.ite (h.update rfl))

end KeepsRepairs

theorem State.shedOne_hbm (s : State) (c : Nat) : (s.shedOne c).hbm = s.hbm := by
  unfold State.shedOne
  split
  · exact s.faultContext_hbm c _
  · split <;> rfl

/-- R899 to R901: a slot ceiling is set in slice `i`; banks and memory stay. -/
theorem State.shrink_outcome {s : State} {i : Nat} (hi : i < s.slices.length) (bank : Nat) :
    ((s.shrink i bank).slice i).ceiling = some (min s.ceilingNow (s.ceilingWithout i)) ∧
      ((s.shrink i bank).slice i).banks = (s.slice i).banks ∧ (s.shrink i bank).hbm = s.hbm := by
  unfold State.shrink
  extract_lets m n s1 above empty s2 order s3 faulted
  have hkeeps : KeepsRepairs s1 s3 :=
    KeepsRepairs.foldl (fun _ x k => k.shedOne x.2) order ((KeepsRepairs.refl s1).mapSlices (t := s2) rfl)
  have hslice : s1.slice i = { s.slice i with ceiling := some (min m n) } := (s.modSlice_slice i _ hi).trans (if_pos rfl)
  have hrepairs := State.slice_reading Slice.repairs hkeeps i
  rw [hslice] at hrepairs
  have hreported : ∀ t, Reports s3 t → (t.slice i).ceiling = some (min m n) ∧ (t.slice i).banks = (s.slice i).banks ∧ t.hbm = s.hbm :=
    fun t ht => by
      obtain ⟨hbanks, hceiling⟩ := Prod.mk.injEq .. ▸ (congrArg Slice.repairs (ht.reads (·.slice i))).trans hrepairs
      exact ⟨hceiling, hbanks, (ht.reads State.hbm).trans (foldl_reading State.hbm (fun t x => t.shedOne_hbm x.2) order s2)⟩
  exact hreported _ ((Reports.refl s3).deviceEvent _ _ _)

/-! ### The march of a bank -/

/-- R902, R904: a march of a bank has ended; `need` passes make a suspect spare free again. -/
def Bank.marched (ok : Bool) (need : Nat) (b : Bank) : Bank :=
  match b.status with
  | .retired => { b with passes := if ok then b.passes + 1 else 0 }
  | .free => if ok then { b with passes := b.passes + 1 } else { b with status := .suspect, passes := 0 }
  | .suspect => { b with
      passes := if ok then b.passes + 1 else 0
      status := if need ≤ (if ok then b.passes + 1 else 0) then .free else .suspect }
  | _ => b

theorem Bank.marched_of_in_service {b : Bank} (h : b.status = .serving ∨ b.status = .retiring) (ok : Bool) (need : Nat) :
    b.marched ok need = b := by
  obtain h | h := h <;> simp only [Bank.marched, h]

theorem Bank.marched_status_of_free {b : Bank} (h : b.status = .free) (ok : Bool) (need : Nat) :
    (b.marched ok need).status = if ok then .free else .suspect := by
  cases ok <;> simp [Bank.marched, h]

section
variable {s : State} {i b : Nat}

theorem exec_bankMarch (hi : i < 4) (hb : b < 34) (hrun : s.running = true)
    (hfilled : ((s.slice i).handover.map (·.target)) ≠ some b) (ok : Bool) :
    exec (.bankMarch i b ok) s = .next (s.modSlice i (fun sl => sl.modBank b (Bank.marched ok s.profile.reinstatePasses))) := by
  change execBankMarch i b ok s = _
  rw [execBankMarch, if_neg (by omega), hrun]
  dsimp only
  rw [if_neg (by simpa using hfilled)]
  rfl

/-! ### The return of a bank -/

/-- R903: bank `b` serves the number `n` again, whose lines had left, from the next sweep boundary. -/
def State.bankReturned (s : State) (i b n : Nat) : State :=
  (s.advanceTo s.nextSweep).modSlice i (fun sl =>
    (({ sl with gone := sl.gone.filter (· != n), serves := setAt sl.serves n b }).freeShared 256).modBank b (fun k => { k with
      status := .serving, served := none, passes := 0, refRow := 0
      refSweep := (s.nextSweep - s.refresh.origin) / (1000 * s.refresh.period) + 1 }))

/-- The bank numbers of a slice: those that are gone, the banks that serve them, and the state of the banks. -/
def Slice.numbers (sl : Slice) : List Nat × List Nat × List Bank := (sl.gone, sl.serves, sl.banks)

theorem State.bankReturned_outcome {n : Nat} (hi : i < s.slices.length) (hn : n < (s.slice i).serves.length)
    (hb : b < (s.slice i).banks.length) : n ∉ ((s.bankReturned i b n).slice i).gone ∧
      ((s.bankReturned i b n).slice i).serves.getD n n = b ∧ (((s.bankReturned i b n).slice i).banks.getD b {}).status = .serving := by
  unfold State.bankReturned
  rw [State.modSlice_slice _ i _ (by exact hi), if_pos rfl]
  refine ⟨?_, ?_, ?_⟩
  · exact fun hmem => by simpa using (List.mem_filter.mp hmem).2
  · exact (getD_modAt _ _ _ _ _ hn).trans (if_pos rfl)
  · exact congrArg Bank.status ((getD_modAt _ _ _ _ _ hb).trans (if_pos rfl))

/-- R901: the slots that open leave the bank numbers. -/
theorem State.reopenSlots_numbers (s : State) (i k : Nat) : ((s.reopenSlots i).slice k).numbers = (s.slice k).numbers := by
  refine State.slice_reading Slice.numbers ?_ k
  exact (map_reading (fun _ => by rfl) _).trans ((modAt_reading (fun _ => by rfl) _ i).trans (map_reading (fun _ => by rfl) s.slices))

/-- A reading that asks none of what a report or STAT changes. -/
theorem Reports.reads_refreshStat {α : Type} {s t : State} (h : Reports s t) (g : State → α)
    (hg : ∀ (v : State) f r c, g { v with fabric := f, ring := r, health := c } = g v := by intro _ _ _ _; rfl)
    (hboot : ∀ (v : State) b, g { v with boot := b } = g v := by intro _ _; rfl) : g t.refreshStat = g s :=
  (congrArg g t.refreshStat_eq).trans ((hboot t _).trans (h.reads g hg))

section
variable {n : Nat} (hi : i < 4) (hb : b < 34) (hrun : s.running = true) (hserved : ((s.slice i).banks.getD b {}).served = some n)
  (hstatus : ((s.slice i).banks.getD b {}).status = .retired) (hpasses : s.profile.reinstatePasses ≤ ((s.slice i).banks.getD b {}).passes)
  (hnone : (s.slice i).handover = none)
include hi hb hrun hserved hstatus hpasses hnone

theorem exec_bankReinstate_of_gone (hgone : n ∈ (s.slice i).gone) : ∃ u t : State, exec (.bankReinstate i b) s = .next t.refreshStat ∧
    Reports u t ∧ u = { s with now := max s.now s.nextSweep, slices := u.slices } ∧
      (u.slice i).numbers = ((s.bankReturned i b n).slice i).numbers := by
  change ∃ u t : State, execBankReinstate i b s = .next t.refreshStat ∧ _
  rw [execBankReinstate, if_neg (by omega)]
  dsimp only
  rw [hserved, hrun, hstatus, hnone, decide_eq_false (Nat.not_lt.mpr hpasses)]
  dsimp only
  rw [if_neg (by simp), if_pos (List.contains_iff_mem.mpr hgone)]
  refine ⟨if s.slices.any (fun sl => sl.ceiling.isSome) then (s.bankReturned i b n).reopenSlots i else s.bankReturned i b n, _, rfl,
    (Reports.refl _).deviceEvent _ _ _, ?_⟩
  split
  · exact ⟨rfl, State.reopenSlots_numbers _ i i⟩
  · exact ⟨rfl, rfl⟩

theorem exec_bankReinstate_of_spare (hgone : n ∉ (s.slice i).gone) (hspare : 32 ≤ (s.slice i).serves.getD n n) :
    ∃ t, exec (.bankReinstate i b) s = .next t ∧ Reports (s.handoverBegun i ((s.slice i).serves.getD n n) n b) t := by
  change ∃ t, execBankReinstate i b s = .next t ∧ _
  rw [execBankReinstate, if_neg (by omega)]
  dsimp only
  rw [hserved, hrun, hstatus, hnone, decide_eq_false (Nat.not_lt.mpr hpasses)]
  dsimp only
  rw [if_neg (by simp), if_neg (by simpa using hgone), if_pos hspare]
  exact ⟨_, rfl, (Reports.refl _).deviceEvent _ _ _⟩

theorem exec_bankReinstate_as_spare (hgone : n ∉ (s.slice i).gone) (hplain : (s.slice i).serves.getD n n < 32) :
    ∃ t, exec (.bankReinstate i b) s = .next t ∧
      Reports (s.modSlice i (fun sl => sl.modBank b (fun k => { k with status := .free, served := none, passes := 0 }))) t := by
  change ∃ t, execBankReinstate i b s = .next t ∧ _
  rw [execBankReinstate, if_neg (by omega)]
  dsimp only
  rw [hserved, hrun, hstatus, hnone, decide_eq_false (Nat.not_lt.mpr hpasses)]
  dsimp only
  rw [if_neg (by simp), if_neg (by simpa using hgone), if_neg (Nat.not_le.mpr hplain)]
  exact ⟨_, rfl, (Reports.refl _).deviceEvent _ _ _⟩

end

/-! ### The evacuation of a bank -/

/-- R897, R898: the lines `used` move out of bank number `n`, the number is gone, and bank `b` is retired. -/
def Slice.evacuated (sl : Slice) (b n : Nat) (used : List Nat) : Slice :=
  ((used.foldl (fun sl l => sl.moveLine n l) sl).loseBank n).modBank b (fun k => { k with
    status := .retired, served := some n, passes := 0, ueTimes := [], ceTimes := [] })

theorem Slice.moveLine_numbers (sl : Slice) (n line : Nat) : (sl.moveLine n line).numbers = sl.numbers := by
  unfold Slice.moveLine
  generalize List.range Config.sliceLines = ls
  dsimp only
  split <;> rfl

theorem Slice.loseBank_numbers {sl : Slice} {n : Nat} (h : n ∉ sl.gone) : (sl.loseBank n).numbers = (sl.gone ++ [n], sl.serves, sl.banks) := by
  unfold Slice.loseBank
  rw [if_neg (by simpa using h)]
  simp only [Slice.numbers, Slice.takeShared]

/-- A bank that serves a number serves one that is not gone. -/
theorem Slice.not_gone_of_numberOf {sl : Slice} {n : Nat} (h : sl.numberOf b = some n) : n ∉ sl.gone := by
  obtain ⟨-, hgone⟩ := Option.filter_eq_some_iff.mp h
  simpa using hgone

theorem Slice.evacuated_outcome {sl : Slice} {n : Nat} (hb : b < sl.banks.length) (h : n ∉ sl.gone) (used : List Nat) :
    (sl.evacuated b n used).gone = sl.gone ++ [n] ∧ ((sl.evacuated b n used).banks.getD b {}).status = .retired := by
  have hmoved : (used.foldl (fun sl l => sl.moveLine n l) sl).numbers = sl.numbers :=
    foldl_leaves Slice.numbers (fun sl l => sl.moveLine_numbers n l) used sl
  unfold Slice.evacuated
  generalize used.foldl (fun sl l => sl.moveLine n l) sl = u at hmoved
  obtain ⟨hgone, -, hbanks⟩ : u.gone = sl.gone ∧ u.serves = sl.serves ∧ u.banks = sl.banks := by
    simpa only [Slice.numbers, Prod.mk.injEq] using hmoved
  obtain ⟨hlost, -, hleft⟩ : (u.loseBank n).gone = u.gone ++ [n] ∧ (u.loseBank n).serves = u.serves ∧ (u.loseBank n).banks = u.banks := by
    simpa only [Slice.numbers, Prod.mk.injEq] using Slice.loseBank_numbers (sl := u) (hgone ▸ h)
  refine ⟨hlost.trans (congrArg (· ++ [n]) hgone), ?_⟩
  refine congrArg Bank.status ((getD_modAt _ _ _ _ _ ?_).trans (if_pos rfl))
  rw [hleft, hbanks]
  exact hb

section
variable {n : Nat} (hi : i < 4) (hb : b < 34) (hnum : (s.slice i).numberOf b = some n)
  (hstatus : ((s.slice i).banks.getD b {}).status = .retiring)
include hi hb hnum hstatus

theorem exec_bankEvacuate_of_shrink
    (hshort : (s.slice i).sharedFree < 256 ∧ ((s.slice i).ceiling = none ∨ s.ceilingWithout i < s.ceilingNow)) :
    exec (.bankEvacuate i b) s = .next (s.shrink i b) := by
  change execBankEvacuate i b s = _
  rw [execBankEvacuate, if_neg (by omega)]
  dsimp only
  rw [hnum, hstatus]
  dsimp only
  rw [if_neg (by simp), if_pos hshort]

theorem exec_bankEvacuate_of_room
    (hsupply : ¬((s.slice i).sharedFree < 256 ∧ ((s.slice i).ceiling = none ∨ s.ceilingWithout i < s.ceilingNow)))
    (hroom : ((s.slice i).lines.filter (fun x => x.1 % 32 == n)).length ≤
      ((List.range 8192).filter (fun l => l % 32 != n && (s.slice i).isFree l)).length) :
    ∃ t : State, exec (.bankEvacuate i b) s = .next t.refreshStat ∧ Reports (s.modSlice i (fun sl =>
      sl.evacuated b n (((s.slice i).lines.filter (fun x => x.1 % 32 == n)).map (·.1)))) t := by
  change ∃ t : State, execBankEvacuate i b s = .next t.refreshStat ∧ _
  rw [execBankEvacuate, if_neg (by omega)]
  dsimp only
  rw [hnum, hstatus]
  dsimp only
  rw [if_neg (by simp), if_neg hsupply, if_neg (by rw [List.length_map]; exact Nat.not_lt.mpr hroom)]
  exact ⟨_, rfl, ((Reports.refl _).bump _ _ _ _).deviceEvent _ _ _⟩

end

end

/-- Settles O25: a march counts, a bank that returns takes its number back or a handover, and an evacuated one leaves with its lines moved. -/
theorem banksMarchReturnAndLeave : Obligations.BanksMarchReturnAndLeave := by
  unfold Obligations.BanksMarchReturnAndLeave
  refine fun s i b hi hb hslices hbank => ⟨fun ok hrun hfilled => ?_, fun n hrun hserved hstatus hpasses hnone => ?_,
    fun n hnum hstatus => ⟨fun hshort => ?_, fun hsupply hroom => ?_⟩⟩
  all_goals have hlt : i < s.slices.length := by omega
  · have hmarched : ((s.slice i).modBank b (Bank.marched ok s.profile.reinstatePasses)).banks.getD b {} =
        ((s.slice i).banks.getD b {}).marched ok s.profile.reinstatePasses := (getD_modAt _ _ _ _ _ hbank).trans (if_pos rfl)
    refine ⟨_, exec_bankMarch hi hb hrun hfilled ok, rfl, fun j hj => ?_, ?_⟩
    · rw [s.modSlice_slice j _ hlt, if_neg hj]
    · rw [s.modSlice_slice i _ hlt, if_pos rfl, hmarched]
      refine ⟨rfl, fun k hk => getElem?_modAt_of_ne _ _ hk, fun hin => ?_, fun hretired => ?_, fun hfree => ?_, fun hsuspect => ?_⟩
      · refine (modAt_congr ({} : Bank) (g := fun k => k) ?_).trans (modAt_id _ b)
        exact Bank.marched_of_in_service hin _ _
      · simp only [Bank.marched, hretired, and_self]
      · exact Bank.marched_status_of_free hfree ok _
      · simp only [Bank.marched, hsuspect]
  · by_cases hgone : n ∈ (s.slice i).gone
    · obtain ⟨u, t, hexec, hreports, hframe, hnumbers⟩ := exec_bankReinstate_of_gone hi hb hrun hserved hstatus hpasses hnone hgone
      refine ⟨_, hexec, ?_, ?_, ?_, fun _ hn => ?_, fun h => absurd hgone h, fun h => absurd hgone h⟩
      · rw [hreports.reads_refreshStat State.hbm, hframe]
      · rw [hreports.reads_refreshStat State.quarters, hframe]
      · rw [hreports.reads_refreshStat State.entries, hframe]
      · obtain ⟨hleft, hserves, hserving⟩ := State.bankReturned_outcome hlt hn hbank
        obtain ⟨hgone', hserves', hbanks'⟩ : (u.slice i).gone = ((s.bankReturned i b n).slice i).gone ∧
            (u.slice i).serves = ((s.bankReturned i b n).slice i).serves ∧ (u.slice i).banks = ((s.bankReturned i b n).slice i).banks := by
          simpa only [Slice.numbers, Prod.mk.injEq] using hnumbers
        rw [hreports.reads_refreshStat (·.slice i), hgone', hserves', hbanks']
        exact ⟨hleft, hserves, hserving, by rw [hreports.reads_refreshStat State.now, hframe]⟩
    · by_cases hspare : 32 ≤ (s.slice i).serves.getD n n
      · obtain ⟨t, hexec, hreports⟩ := exec_bankReinstate_of_spare hi hb hrun hserved hstatus hpasses hnone hgone hspare
        refine ⟨t, hexec, hreports.reads State.hbm, hreports.reads State.quarters, hreports.reads State.entries,
          fun h => absurd h hgone, fun _ _ => ⟨hreports.reads State.now, ?_⟩, fun _ h => absurd hspare (Nat.not_le.mpr h)⟩
        rw [hreports.reads (·.slice i), State.handoverBegun, s.modSlice_slice i _ hlt, if_pos rfl]
      · obtain ⟨t, hexec, hreports⟩ :=
          exec_bankReinstate_as_spare hi hb hrun hserved hstatus hpasses hnone hgone (Nat.not_le.mp hspare)
        refine ⟨t, hexec, hreports.reads State.hbm, hreports.reads State.quarters, hreports.reads State.entries,
          fun h => absurd h hgone, fun _ h => absurd h hspare, fun _ _ => ⟨hreports.reads State.now, ?_⟩⟩
        rw [hreports.reads (·.slice i), s.modSlice_slice i _ hlt, if_pos rfl]
        exact congrArg Bank.status ((getD_modAt _ _ _ _ _ hbank).trans (if_pos rfl))
  · obtain ⟨hceiling, hbanks, hhbm⟩ := State.shrink_outcome hlt b
    refine ⟨_, exec_bankEvacuate_of_shrink hi hb hnum hstatus hshort, ?_, ?_, hhbm⟩
    · rw [hceiling]
      rfl
    · rw [hbanks]
      exact hstatus
  · obtain ⟨t, hexec, hreports⟩ := exec_bankEvacuate_of_room hi hb hnum hstatus hsupply hroom
    obtain ⟨hgone, hretired⟩ := Slice.evacuated_outcome hbank (Slice.not_gone_of_numberOf hnum)
      (((s.slice i).lines.filter (fun x => x.1 % 32 == n)).map (·.1))
    refine ⟨_, hexec, ?_, ?_, fun j hj => ?_, hreports.reads_refreshStat State.hbm, hreports.reads_refreshStat State.quarters,
      hreports.reads_refreshStat State.entries⟩
    · rw [hreports.reads_refreshStat (·.slice i), s.modSlice_slice i _ hlt, if_pos rfl]
      exact hgone
    · rw [hreports.reads_refreshStat (·.slice i), s.modSlice_slice i _ hlt, if_pos rfl]
      exact hretired
    · rw [hreports.reads_refreshStat (·.slice j), s.modSlice_slice j _ hlt, if_neg hj]

end Sys2Proof.Machine
end
